-- ==== Sys2Proof/Word.lean ====
section
/-!
DEFINITION. The word types of the Yunaryn 880 and their plainest arithmetic: registers (04 R65), the fields of a
word (04 R60), sign extension on naturals, and the shapes of the messages that cross a link (24 R341, R345).
-/

namespace Sys2Proof

/-- A scalar register, 64 bits (R65). -/
abbrev Word := BitVec 64

/-- A vector register, 1024 bits: byte lane c is bits 8c+7 to 8c (R65, R3). -/
abbrev Vec := BitVec 1024

/-- A predicate register: bit c belongs to byte lane c (R65). -/
abbrev Pred := BitVec 128

/-- `bits w hi lo`: the field in bits `hi` to `lo` of the natural number `w`. -/
def bits (w hi lo : Nat) : Nat := w / 2 ^ lo % 2 ^ (hi + 1 - lo)

/-- Bit `i` of the natural number `w`. -/
def bit (w i : Nat) : Bool := w / 2 ^ i % 2 == 1

/-- `sx n x`: the two's complement integer in the low `n` bits of `x`. -/
def sx (n x : Nat) : Int := if bit x (n - 1) then (x % 2 ^ n : Int) - (2 ^ n : Int) else (x % 2 ^ n : Int)

/-- An integer modulo `2 ^ n`, as a natural number. -/
def wrap (n : Nat) (x : Int) : Nat := (x % (2 ^ n : Int)).toNat

/-- A 64-bit word from an integer, modulo 2^64. -/
def toWord (x : Int) : Word := BitVec.ofInt 64 x

/-- Distance of two 32-bit counts, modulo 2^32 (R145). -/
def dist32 (a b : Nat) : Nat := (a + 2 ^ 32 - b % 2 ^ 32) % 2 ^ 32

/-- One count more, modulo 2^32. -/
def inc32 (a : Nat) : Nat := (a + 1) % 2 ^ 32

/-- A message of the fabric, one packet (R341, R345). `cls`: 0 P, 1 Q, 2 S, 3 T, 4 A, 5 E. `op` names what the
message asks: 0 store, 1 load, 2 atomic (`sub` holds the ATOM op and width), 3 ACAS2, 4 append, 5 close request,
6 response. `src` is the sender's agent id, `vi` its tenant, `seq` its per-source number (R161), `tag` its batch. -/
structure Packet where
  cls  : Nat
  op   : Nat
  node : Nat
  src  : Nat
  vi   : Nat
  seq  : Nat
  tag  : Nat
  addr : Nat
  size : Nat
  sub  : Nat
  data : Nat
  cmp  : Nat
  deriving DecidableEq, Repr

/-- A flit as a receiver meets it (R341, R343): its link sequence number, whether its CRC is good, the packet that it
completes, and the acknowledgement and replay request that it carries for the other direction. -/
structure Flit where
  seq    : Nat
  crcOk  : Bool
  packet : Option Packet
  ack    : Option Nat
  replay : Option Nat
  deriving DecidableEq, Repr

end Sys2Proof
end

