-- ==== Sys2Proof/Config.lean ====
section
/-!
DEFINITION. What one package fixes and the spec leaves open. An opaque constant has no value that a proof can see: it
stands for a value, or a function, of the device's own choosing (notes/assumptions/9.md and the entries named below).

Readings and choices of the model (log): DESIGN CHOICE 2, 9, 19, 20, 21, 22, 23, 24; DEDUCED 26.
-/

namespace Sys2Proof.Config

/-- What a byte that nothing has written reads as (DESIGN CHOICE, notes/assumptions/2.md). -/
def memDefault : BitVec 8 := 0

/-- The free value drawn at count `n`: 64 bits that the spec leaves undefined (log 9). -/
opaque freeValue : Nat → BitVec 64

/-- The check word that CTXSAVE computes over the covered bytes (20 R306; log 19). -/
opaque checkWord : List Nat → BitVec 64

/-- The hash by which a message chooses its port (24 R342): source agent, destination node, key (log 20). -/
opaque portHash : Nat → Nat → Nat → Nat

/-- The die whose HBM stack holds a 4 KiB tile of device memory, by the tile's number (01 R11; 16 R262; log 21). -/
opaque dieOf : Nat → Fin 4

/-- The SHA-384 digest of image `i` in verification order (24 R367, R368; log 22). -/
opaque digest : Nat → BitVec 384

/-- The 32-bit version of image `i` (24 R367). -/
opaque imageVersion : Nat → BitVec 32

/-- The fused minimum version (24 R367). -/
opaque minVersion : BitVec 32

/-- The signature of a report's first 256 bytes: its r and its s (24 R368). -/
opaque signature : List Nat → BitVec 384 × BitVec 384

/-- The local memory region that an RKEY names: its VI, its address, its length (24 R361; log 23). -/
opaque ueRegion : Nat → Option (Nat × Nat × Nat)

/-- Which of the results that 06 R130 admits an approximating instruction gives: its code, its format (64 times the width plus the bits of
the significand), its operand (log 24). -/
opaque specPick : Nat → Nat → Nat → Nat

/-- What the home of another node knows of an event name at a moment (draws so far, timestamp, name): bit 0 that the event is live and
of the tenant, bit 1 that the asking agent is a party, bits 4 to 2 modulo 5 its plan, bit 5 that the slot is the party of the side that it
offers (10 R193, R198, R200; log 26). -/
opaque farEvent : Nat → Nat → Nat → BitVec 64

end Sys2Proof.Config
end

