-- ==== Sys2Proof/Machine/Flags.lean ====
section
/-!
DEFINITION. Number formats, rounding and every floating-point flag (06 R95 to R102, R105, R109): values are exact dyadic
numbers, and each operation rounds once. A set of flags is a number with the bits of the FLAGS register (04 R70):
16 NV, 8 DZ, 4 OF, 2 UF, 1 NX.

Readings and choices of the model (log): DESIGN CHOICE 24, 145.
-/

namespace Sys2Proof.Machine

open Sys2Proof

/-- Invalid operation. -/
def flNV : Nat := 16
/-- Divide by zero. -/
def flDZ : Nat := 8
/-- Overflow. -/
def flOF : Nat := 4
/-- Underflow. -/
def flUF : Nat := 2
/-- Inexact. -/
def flNX : Nat := 1

/-- A floating-point format (R95): width, fraction bits, bias, the all-ones exponent, and its special codes: 0 infinities and
NaNs, 1 one NaN pattern only (E4M3), 2 none (E2M1). -/
structure Fmt where
  w    : Nat
  m    : Nat
  bias : Nat
  ones : Nat
  kind : Nat
  deriving DecidableEq, Repr

/-- The floating-point format of a format code (04 R76). -/
def fmtOf (code : Nat) : Option Fmt :=
  match code with
  | 0x0 => some ⟨32, 23, 127, 255, 0⟩
  | 0x1 => some ⟨64, 52, 1023, 2047, 0⟩
  | 0x2 => some ⟨16, 10, 15, 31, 0⟩
  | 0x3 => some ⟨16, 7, 127, 255, 0⟩
  | 0x4 => some ⟨8, 2, 15, 31, 0⟩
  | 0x5 => some ⟨8, 3, 7, 15, 1⟩
  | 0x6 => some ⟨4, 1, 1, 3, 2⟩
  | 0xF => some ⟨19, 10, 127, 255, 0⟩
  | _ => none

/-- FP32. -/
def fp32 : Fmt := ⟨32, 23, 127, 255, 0⟩
/-- FP64. -/
def fp64 : Fmt := ⟨64, 52, 1023, 2047, 0⟩

/-- An integer format: its width and whether it is signed (R96). -/
def intFmt (code : Nat) : Option (Nat × Bool) :=
  match code with
  | 0x7 => some (8, true)
  | 0x8 => some (8, false)
  | 0x9 => some (4, true)
  | 0xA => some (16, true)
  | 0xB => some (32, true)
  | 0xC => some (64, true)
  | _ => none

/-- Width in bits of a format's element (R93, R95; W19 in its 32-bit container). -/
def fmtWidth (code : Nat) : Nat :=
  match code with
  | 0x0 => 32 | 0x1 => 64 | 0x2 => 16 | 0x3 => 16 | 0x4 => 8 | 0x5 => 8 | 0x6 => 4 | 0x7 => 8 | 0x8 => 8 | 0x9 => 4
  | 0xA => 16 | 0xB => 32 | 0xC => 64 | 0xD => 8 | 0xE => 8 | _ => 32

/-- An exact value: a NaN (signalling or quiet), an infinity, or (−1)^neg · m · 2^e. -/
inductive FVal where
  | nan (sig : Bool)
  | inf (neg : Bool)
  | fin (neg : Bool) (m : Nat) (e : Int)
  deriving DecidableEq, Repr

/-- The value of a code (R95, R97). -/
def fdec (f : Fmt) (c : Nat) : FVal :=
  let neg := bit c (f.w - 1)
  let e := c / 2 ^ f.m % (f.ones + 1)
  let r := c % 2 ^ f.m
  if e = f.ones ∧ f.kind = 0 then (if r = 0 then .inf neg else .nan (!bit r (f.m - 1)  && decide (8 < f.w)))
  else if e = f.ones ∧ f.kind = 1 ∧ r = 2 ^ f.m - 1 then .nan false
  else if e = 0 then .fin neg r (1 - (f.bias : Int) - f.m)
  else .fin neg (2 ^ f.m + r) ((e : Int) - f.bias - f.m)

/-- The sign of a code. -/
def signBit (f : Fmt) (c : Nat) : Bool := bit c (f.w - 1)

/-- The canonical NaN of a format (R97); E2M1 has none and takes +0 (R102). -/
def canonNaN (f : Fmt) : Nat :=
  match f.kind with
  | 0 => f.ones * 2 ^ f.m + 2 ^ (f.m - 1)
  | 1 => 0x7F
  | _ => 0

/-- The code of the largest finite magnitude. -/
def maxCode (f : Fmt) : Nat :=
  match f.kind with
  | 0 => f.ones * 2 ^ f.m - 1
  | 1 => f.ones * 2 ^ f.m + 2 ^ f.m - 2
  | _ => f.ones * 2 ^ f.m + 2 ^ f.m - 1

/-- The infinity of a format with the given sign, or its largest finite value where it has none. -/
def infCode (f : Fmt) (neg : Bool) : Nat :=
  (if f.kind = 0 then f.ones * 2 ^ f.m else maxCode f) + (if neg then 2 ^ (f.w - 1) else 0)

/-- A code with the given sign. -/
def withSign (f : Fmt) (neg : Bool) (c : Nat) : Nat := c + (if neg then 2 ^ (f.w - 1) else 0)

/-- A rounding: RNE, RTZ, RUP, RDN (R71), or stochastic with a `k`-bit random number (R100). -/
inductive Rnd where
  | rne
  | rtz
  | rup
  | rdn
  | sr (rho k : Nat)
  deriving DecidableEq, Repr

/-- The rounding mode that a two-bit RMODE names (R71). -/
def rndOf (x : Nat) : Rnd :=
  match x % 4 with
  | 0 => .rne
  | 1 => .rtz
  | 2 => .rup
  | _ => .rdn

/-- Whether the magnitude `q + r / 2^n` (0 ≤ r < 2^n) rounds up to `q + 1` (R99, R100). -/
def roundsUp (md : Rnd) (neg : Bool) (q r n : Nat) : Bool :=
  match md with
  | .rne => decide (2 ^ n < 2 * r) || (decide (2 * r = 2 ^ n) && decide (q % 2 = 1))
  | .rtz => false
  | .rup => decide (r ≠ 0) && !neg
  | .rdn => decide (r ≠ 0) && neg
  | .sr rho k =>
    if r = 0 then false
    else if neg then !decide (rho * 2 ^ n < (2 ^ n - r) * 2 ^ k) else decide (rho * 2 ^ n < r * 2 ^ k)

/-- The magnitude m · 2^e rounded to a multiple of 2^q: the multiple, and whether it is inexact. -/
def roundAt (md : Rnd) (neg : Bool) (m : Nat) (e q : Int) : Nat × Bool :=
  if q ≤ e then (m * 2 ^ (e - q).toNat, false)
  else
    let n := (q - e).toNat
    let a := m / 2 ^ n
    let r := m % 2 ^ n
    (if roundsUp md neg a r n then a + 1 else a, decide (r ≠ 0))

/-- Whether a · 2^p exceeds b · 2^q. -/
def magGt (a : Nat) (p : Int) (b : Nat) (q : Int) : Bool :=
  if p ≤ q then decide (b * 2 ^ (q - p).toNat < a) else decide (b < a * 2 ^ (p - q).toNat)

/-- The result of an overflow (R99). -/
def overflowCode (f : Fmt) (md : Rnd) (neg : Bool) : Nat :=
  let big := withSign f neg (maxCode f)
  if f.kind ≠ 0 then big
  else match md with
    | .rne => infCode f neg
    | .rtz => big
    | .rup => if neg then big else infCode f neg
    | .rdn => if neg then infCode f neg else big
    | .sr _ _ => big

/-- A nonzero magnitude m · 2^e rounded into a format: code and flags (R98, R99, R101). -/
def roundFin (f : Fmt) (md : Rnd) (neg : Bool) (m : Nat) (e : Int) : Nat × Nat :=
  if m = 0 then (withSign f neg 0, 0)
  else
    let emin : Int := 1 - (f.bias : Int)
    let q' : Int := (Nat.log2 m : Int) + e - f.m
    let q : Int := max q' (emin - f.m)
    let (a, ix) := roundAt md neg m e q
    let (u, _) := roundAt md neg m e q'
    let mx := maxCode f
    let mxE : Int := (mx / 2 ^ f.m : Int) - f.bias - f.m
    let mxM := 2 ^ f.m + mx % 2 ^ f.m
    let ovf := match md with
      | .sr _ _ => magGt m e mxM mxE
      | _ => magGt a q mxM mxE
    if ovf then (overflowCode f md neg, flOF + flNX)
    else
      let tiny := magGt (2 ^ f.m) (emin - f.m) u q'
      let code := ((q + f.m + f.bias).toNat * 2 ^ f.m + a) - 2 ^ f.m
      (withSign f neg code, (if ix then flNX else 0) + (if ix && tiny then flUF else 0))

/-- An exact value rounded into a format (R99, R101, R102): a NaN gives the canonical NaN, an infinity keeps its sign; into a
format that has neither, NV is raised. A signalling NaN raises NV. -/
def fround (f : Fmt) (md : Rnd) (v : FVal) : Nat × Nat :=
  match v with
  | .nan sig => (canonNaN f, if sig || f.kind = 2 then flNV else 0)
  | .inf neg => (infCode f neg, if f.kind = 0 then 0 else flNV)
  | .fin neg m e => roundFin f md neg m e

/-- Whether a rounding goes down, for the sign of an exact zero (R115). -/
def isDown (md : Rnd) : Bool := decide (md = .rdn)

/-- NV when one of the values is a signalling NaN. -/
def sigFlag (l : List FVal) : Nat := if l.any fun v => decide (v = .nan true) then flNV else 0

/-- Whether a value is a NaN. -/
def FVal.isNan (v : FVal) : Bool := match v with
  | .nan _ => true
  | _ => false

/-- A value negated. -/
def FVal.negated (v : FVal) : FVal := match v with
  | .nan g => .nan g
  | .inf b => .inf (!b)
  | .fin b m e => .fin (!b) m e

/-- The signed significand of a finite value at exponent `q`, not above its own. -/
def scaled (neg : Bool) (m : Nat) (e q : Int) : Int :=
  let x : Int := (m * 2 ^ (e - q).toNat : Nat)
  if neg then -x else x

/-- The exact sum (R101, R115): NaN operands give a NaN, infinities of opposite sign NV; an exact zero of operands of opposite
sign is +0, or −0 under RDN. -/
def addV (down : Bool) (a b : FVal) : FVal × Nat :=
  let fl := sigFlag [a, b]
  match a, b with
  | .nan _, _ => (.nan false, fl)
  | _, .nan _ => (.nan false, fl)
  | .inf x, .inf y => if x = y then (.inf x, fl) else (.nan false, flNV)
  | .inf x, .fin _ _ _ => (.inf x, fl)
  | .fin _ _ _, .inf y => (.inf y, fl)
  | .fin x m e, .fin y n g =>
    let q := min e g
    let t := scaled x m e q + scaled y n g q
    if t = 0 then (.fin (if x = y then x else down) 0 q, fl)
    else (.fin (decide (t < 0)) t.natAbs q, fl)

/-- The exact product (R101): 0 × ∞ raises NV. -/
def mulV (a b : FVal) : FVal × Nat :=
  let fl := sigFlag [a, b]
  match a, b with
  | .nan _, _ => (.nan false, fl)
  | _, .nan _ => (.nan false, fl)
  | .inf x, .inf y => (.inf (x != y), fl)
  | .inf x, .fin y n _ => if n = 0 then (.nan false, flNV) else (.inf (x != y), fl)
  | .fin x m _, .inf y => if m = 0 then (.nan false, flNV) else (.inf (x != y), fl)
  | .fin x m e, .fin y n g => (.fin (x != y) (m * n) (e + g), fl)

/-- Flags of two steps together. -/
def orFlags (a b : Nat) : Nat := a ||| b

/-- A rounded result with the flags of the step before it. -/
def roundWith (f : Fmt) (md : Rnd) (r : FVal × Nat) : Nat × Nat :=
  let (c, g) := fround f md r.1
  (c, orFlags r.2 g)

/-- Addition (R115). -/
def fadd (f : Fmt) (md : Rnd) (a b : Nat) : Nat × Nat := roundWith f md (addV (isDown md) (fdec f a) (fdec f b))

/-- Subtraction (R115). -/
def fsub (f : Fmt) (md : Rnd) (a b : Nat) : Nat × Nat :=
  roundWith f md (addV (isDown md) (fdec f a) (fdec f b).negated)

/-- Multiplication (R115). -/
def fmul (f : Fmt) (md : Rnd) (a b : Nat) : Nat × Nat := roundWith f md (mulV (fdec f a) (fdec f b))

/-- Fused multiply-add: ±(a × b) ± c, rounded once (R116). 0 × ∞ raises NV even when c is a quiet NaN. -/
def fma (f : Fmt) (md : Rnd) (np nc : Bool) (a b c : Nat) : Nat × Nat :=
  let (p, g) := mulV (fdec f a) (fdec f b)
  let z := fdec f c
  let (r, h) := addV (isDown md) (if np then p.negated else p) (if nc then z.negated else z)
  roundWith f md (r, orFlags g h)

/-- Whether value `a` is less than value `b`, neither a NaN; −0 and +0 compare equal (R117). -/
def ltV (a b : FVal) : Bool :=
  match a, b with
  | .nan _, _ => false
  | _, .nan _ => false
  | .inf x, .inf y => x && !y
  | .inf x, .fin _ _ _ => x
  | .fin _ _ _, .inf y => !y
  | .fin x m e, .fin y n g =>
    let q := min e g
    decide (scaled x m e q < scaled y n g q)

/-- Whether two values compare equal. -/
def eqV (a b : FVal) : Bool :=
  match a, b with
  | .nan _, _ => false
  | _, .nan _ => false
  | .inf x, .inf y => x == y
  | .fin x m e, .fin y n g =>
    let q := min e g
    decide (scaled x m e q = scaled y n g q)
  | _, _ => false

/-- The lesser, with −0 < +0; a NaN operand gives the other (R115). `gt` asks for the greater. -/
def fminmax (f : Fmt) (gt : Bool) (a b : Nat) : Nat × Nat :=
  let x := fdec f a
  let y := fdec f b
  let fl := sigFlag [x, y]
  if x.isNan && y.isNan then (canonNaN f, fl)
  else if x.isNan then (b, fl)
  else if y.isNan then (a, fl)
  else
    let less := ltV x y || (eqV x y && signBit f a && !signBit f b)
    (if less != gt then a else b, fl)

/-- A step of a reduction list: neighbours combined, an odd last element carried (R119). -/
def pairUp (op : Nat → Nat → Nat × Nat) (l : List Nat) : List Nat × Nat :=
  match l with
  | a :: b :: t =>
    let (c, f) := op a b
    let (r, g) := pairUp op t
    (c :: r, orFlags f g)
  | l => (l, 0)

/-- The list of R119 combined to one element, with the flags of every step; `fuel` bounds the rounds. -/
def combine (op : Nat → Nat → Nat × Nat) (fuel : Nat) (l : List Nat) : List Nat × Nat :=
  match fuel with
  | 0 => (l, 0)
  | k + 1 =>
    if l.length ≤ 1 then (l, 0)
    else
      let (r, f) := pairUp op l
      let (q, g) := combine op k r
      (q, orFlags f g)

/-- The largest natural number whose square is at most `n`, bit by bit from bit `k`. -/
def isqrtGo (n : Nat) (k r : Nat) : Nat :=
  match k with
  | 0 => if (r + 1) * (r + 1) ≤ n then r + 1 else r
  | k + 1 => isqrtGo n k (if (r + 2 ^ (k + 1)) * (r + 2 ^ (k + 1)) ≤ n then r + 2 ^ (k + 1) else r)

/-- Integer square root. -/
def isqrt (n : Nat) : Nat := isqrtGo n (Nat.log2 n / 2 + 1) 0

/-- A quotient of positive integers with `p` and more significant bits, its last bit set when it is inexact, and the
exponent of that last bit. -/
def stickyDiv (m n p : Nat) : Nat × Int :=
  let k := Nat.log2 n + p + 4
  let q := m * 2 ^ k / n
  (2 * q + (if m * 2 ^ k % n = 0 then 0 else 1), -(k : Int) - 1)

/-- The exact quotient as far as rounding can see (R101, R130). -/
def divV (a b : FVal) : FVal × Nat :=
  let fl := sigFlag [a, b]
  match a, b with
  | .nan _, _ => (.nan false, fl)
  | _, .nan _ => (.nan false, fl)
  | .inf _, .inf _ => (.nan false, flNV)
  | .inf x, .fin y _ _ => (.inf (x != y), fl)
  | .fin x _ _, .inf y => (.fin (x != y) 0 0, fl)
  | .fin x m e, .fin y n g =>
    if n = 0 then (if m = 0 then (.nan false, flNV) else (.inf (x != y), flDZ))
    else if m = 0 then (.fin (x != y) 0 0, fl)
    else
      let (q, k) := stickyDiv m n 64
      (.fin (x != y) q (e - g + k), fl)

/-- Division (R130). -/
def fdiv (f : Fmt) (md : Rnd) (a b : Nat) : Nat × Nat := roundWith f md (divV (fdec f a) (fdec f b))

/-- The square root of m · 2^e with 64 and more significant bits, the last set when it is inexact, and its exponent. -/
def stickySqrt (m : Nat) (e : Int) : Nat × Int :=
  let k : Nat := 130 + (if (e % 2) = 0 then 0 else 1)
  let n := m * 2 ^ k
  let r := isqrt n
  (2 * r + (if r * r = n then 0 else 1), (e - k) / 2 - 1)

/-- Square root, rounded (R130). -/
def fsqrt (f : Fmt) (md : Rnd) (a : Nat) : Nat × Nat :=
  match fdec f a with
  | .nan g => (canonNaN f, if g then flNV else 0)
  | .inf neg => if neg then (canonNaN f, flNV) else (infCode f false, 0)
  | .fin neg m e =>
    if m = 0 then (a % 2 ^ f.w, 0)
    else if neg then (canonNaN f, flNV)
    else
      let (r, g) := stickySqrt m e
      roundFin f md false r g

/-- 2 to the power f / 2^200, in 200-bit fixed point: the product of the roots of two whose bits stand in `f`, bit 199
first; `c` is the next root. -/
def pow2Go (f : Nat) (k c acc : Nat) : Nat :=
  match k with
  | 0 => acc
  | k + 1 =>
    let c' := isqrt (c * 2 ^ 200)
    pow2Go f k c' (if bit f k then acc * c' / 2 ^ 200 else acc)

/-- The binary digits of log2 (x / 2^320) for 1 ≤ x / 2^320 < 2: `k` of them, by squaring. -/
def log2Go (x : Nat) (k acc : Nat) : Nat :=
  match k with
  | 0 => acc
  | k + 1 =>
    let y := x * x / 2 ^ 320
    if 2 ^ 321 ≤ y then log2Go (y / 2) k (2 * acc + 1) else log2Go y k (2 * acc)

/-- The places, counted from the neighbour `mag` below the exact result, of the results within 1 ulp of it, or 2 where `two`; the ulp is
the spacing at the exact result. Just above the start of a binade the spacing below is half; just below the next one the spacing above
is twice. `low` says that the exact result lies in the lower half of its gap (R130). -/
def nearPlaces (f : Fmt) (two low : Bool) (mag : Nat) : List Int :=
  let starts := fun (c : Nat) => decide (c % 2 ^ f.m = 0) && decide (2 * 2 ^ f.m ≤ c)
  if two then
    [-1, 0, 1] ++ (if starts (mag + 1) then [] else [2]) ++ (if starts mag then (if low then [-2, -3] else [-2]) else [])
  else [0, 1] ++ (if starts mag && low then [-1] else [])

/-- The result of an approximating instruction (R130) whose exact magnitude is m · 2^e, or is just above it when the last
digit is odd. An exact result is delivered without NX, but for VRCP only when it is normal. Every other finite result
raises NX and is one of those within the error that R130 admits. A result beyond the largest finite value is infinite with OF and NX,
of VRCP too (log 145). `fn` is the instruction's code, `a` its operand. -/
def pickNear (f : Fmt) (fn a : Nat) (neg : Bool) (m : Nat) (e : Int) : Nat × Nat :=
  let (lo, fl) := roundFin f .rtz neg m e
  let mag := lo % 2 ^ (f.w - 1)
  let sub := decide (mag < 2 ^ f.m)
  let pick := Config.specPick fn (f.w * 64 + f.m) a
  let tail := flNX + (if sub then flUF else 0)
  if fl = 0 then
    (if fn = 0 && sub then (withSign f neg (mag + pick % 3 - 1), tail) else (lo, 0))
  else if fl / 4 % 2 = 1 || mag = maxCode f then (infCode f neg, flOF + flNX)
  else
    let ps := nearPlaces f (decide (f.w = 64) && decide (2 ≤ fn)) (decide ((roundFin f .rne neg m e).1 = lo)) mag
    let c := ((mag : Int) + ps.getD (pick % ps.length) 0).toNat
    (withSign f neg (min c (maxCode f)), tail)

/-- VRCP (R130). -/
def frcp (f : Fmt) (a : Nat) : Nat × Nat :=
  match fdec f a with
  | .nan g => (canonNaN f, if g then flNV else 0)
  | .inf neg => (withSign f neg 0, 0)
  | .fin neg m e =>
    if m = 0 then (infCode f neg, flDZ)
    else
      let (q, k) := stickyDiv 1 m 64
      pickNear f 0 a neg q (k - e)

/-- VRSQ (R130). -/
def frsq (f : Fmt) (a : Nat) : Nat × Nat :=
  match fdec f a with
  | .nan g => (canonNaN f, if g then flNV else 0)
  | .inf neg => if neg then (canonNaN f, flNV) else (0, 0)
  | .fin neg m e =>
    if m = 0 then (infCode f neg, flDZ)
    else if neg then (canonNaN f, flNV)
    else
      -- the root of 2^(2n) / (m · 2^e) with n large, cut off with a sticky last digit
      let odd : Nat := if e % 2 = 0 then 0 else 1
      let n := 2 ^ (400 + odd) / m
      let ex := decide (2 ^ (400 + odd) % m = 0)
      let r := isqrt n
      let st := if ex && r * r = n then 0 else 1
      pickNear f 1 a false (2 * r + st) ((-(400 + (odd : Int) + e)) / 2 - 1)

/-- VEXP2 (R130). -/
def fexp2 (f : Fmt) (a : Nat) : Nat × Nat :=
  match fdec f a with
  | .nan g => (canonNaN f, if g then flNV else 0)
  | .inf neg => if neg then (0, 0) else (infCode f false, 0)
  | .fin neg m e =>
    if m = 0 then (f.bias * 2 ^ f.m, 0)
    else if magGt m e 4096 0 then
      (if neg then pickNear f 2 a false 1 (-5000) else (infCode f false, flOF + flNX))
    else
      -- the operand in units of 2^-200, rounded down, and whether that lost something
      let k : Nat := (-200 - e).toNat
      let x : Int := if e ≥ -200 then scaled neg m e (-200)
        else if neg then -(((m + 2 ^ k - 1) / 2 ^ k : Nat) : Int) else ((m / 2 ^ k : Nat) : Int)
      let i := x / (2 ^ 200 : Int)
      let fr := (x % (2 ^ 200 : Int)).toNat
      let exact := decide (fr = 0) && (decide (e ≥ -200) || decide (m % 2 ^ k = 0))
      let p := pow2Go fr 200 (2 * 2 ^ 200) (2 ^ 200)
      pickNear f 2 a false (2 * p + (if exact then 0 else 1)) (i - 201)

/-- VLOG2 (R130). -/
def flog2 (f : Fmt) (a : Nat) : Nat × Nat :=
  match fdec f a with
  | .nan g => (canonNaN f, if g then flNV else 0)
  | .inf neg => if neg then (canonNaN f, flNV) else (infCode f false, 0)
  | .fin neg m e =>
    if m = 0 then (infCode f true, flDZ)
    else if neg then (canonNaN f, flNV)
    else
      let l := Nat.log2 m
      let k : Int := (l : Int) + e
      if m = 2 ^ l then roundFin f .rne (decide (k < 0)) k.natAbs 0
      else
        let d := log2Go (m * 2 ^ 320 / 2 ^ l) 140 0
        if k < 0 then pickNear f 3 a true (2 * ((-k).toNat * 2 ^ 140 - d - 1) + 1) (-141)
        else pickNear f 3 a false (2 * (k.toNat * 2 ^ 140 + d) + 1) (-141)

/-- An integer into a floating-point format (R102). -/
def intToFloat (f : Fmt) (md : Rnd) (x : Int) : Nat × Nat :=
  roundFin f md (decide (x < 0)) x.natAbs 0

/-- The bounds of an integer format. -/
def intLo (n : Nat) (sg : Bool) : Int := if sg then -(2 ^ (n - 1) : Int) else 0
/-- The largest value of an integer format. -/
def intHi (n : Nat) (sg : Bool) : Int := if sg then (2 ^ (n - 1) : Int) - 1 else (2 ^ n : Int) - 1

/-- A value into an integer format: rounded by the mode, saturated with NV outside the range; NaN gives 0 with NV (R102). -/
def floatToInt (n : Nat) (sg : Bool) (md : Rnd) (v : FVal) : Nat × Nat :=
  match v with
  | .nan _ => (0, flNV)
  | .inf neg => (wrap n (if neg then intLo n sg else intHi n sg), flNV)
  | .fin neg m e =>
    let (q, ix) := roundAt md neg m e 0
    let x : Int := if neg then -(q : Int) else q
    if x < intLo n sg then (wrap n (intLo n sg), flNV)
    else if intHi n sg < x then (wrap n (intHi n sg), flNV)
    else (wrap n x, if ix then flNX else 0)

/-- The value of a BS12 scale; a NaN scale has none (R103). -/
def scaleVal (c : Nat) : FVal :=
  let e := bits c 11 4
  let r := c % 16
  if e = 255 then .nan false
  else if e = 0 then .fin false r (-130)
  else .fin false (16 + r) ((e : Int) - 131)

/-- The value of an element of a float or integer format (R95, R96); not for T8A and T8B. -/
def elemVal (code c : Nat) : FVal :=
  match fmtOf code with
  | some f => fdec f c
  | none =>
    match intFmt code with
    | some (n, sg) =>
      let x : Int := if sg then sx n c else (c % 2 ^ n : Nat)
      .fin (decide (x < 0)) x.natAbs 0
    | none => .fin false 0 0

/-- The largest finite value of a block format (R105), as a significand and an exponent. -/
def blockMax (code : Nat) : Nat × Int :=
  match code with
  | 0x5 => (448, 0) | 0x4 => (57344, 0) | 0x6 => (6, 0) | 0x7 => (127, 0) | _ => (7, 0)

/-- The least finite BS12 code whose value is at least amax / M, if there is one (R105); amax = m · 2^e. -/
def leastScale (m : Nat) (e : Int) (mx : Nat) : Option Nat :=
  let le := fun c => match scaleVal c with
    | .fin _ s g => !magGt m e (s * mx) g
    | _ => false
  let rec go (k c : Nat) : Nat :=
    match k with
    | 0 => c
    | k + 1 => if c + 2 ^ k ≤ 0xFEF && !le (c + 2 ^ k - 1) then go k (c + 2 ^ k) else go k c
  if le 0xFEF then some (go 12 0) else none

/-- One code of a quantised block: the quotient rounded into Q, beyond ±M saturated with OF and NX (R105). -/
def quantCode (code : Nat) (md : Rnd) (v : FVal) : Nat × Nat :=
  match v with
  | .fin neg m e =>
    let (mx, me) := blockMax code
    match fmtOf code with
    | some f =>
      let (c, fl) := roundFin f md neg m e
      if fl / 4 % 2 = 1 then (withSign f neg (maxCode f), flOF + flNX) else (c, fl)
    | none =>
      let n := fmtWidth code
      let (q, ix) := roundAt md neg m e 0
      if magGt q 0 mx me then (wrap n (if neg then -(mx : Int) else mx), flOF + flNX)
      else (wrap n (if neg then -(q : Int) else q), if ix then flNX else 0)
  | _ => (0, 0)

/-- QuantiseBlock (R105): the scale, the codes, the flags. `md j` is the rounding of element j. -/
def quantise (code : Nat) (md : Nat → Rnd) (x : List FVal) : Nat × List Nat × Nat :=
  let bad := x.any fun v => match v with
    | .fin _ _ _ => false
    | _ => true
  if bad then
    let nv := x.any fun v => match v with
      | .inf _ => true
      | .nan g => g
      | _ => false
    (0xFF0, x.map fun _ => 0, if nv then flNV else 0)
  else
    let amax := x.foldl (fun (b : Nat × Int) v => match v with
      | .fin _ m e => if magGt m e b.1 b.2 then (m, e) else b
      | _ => b) (0, 0)
    if amax.1 = 0 then (0, x.map fun _ => 0, 0)
    else
      let (s, fl) := match leastScale amax.1 amax.2 (blockMax code).1 with
        | some s => (s, 0)
        | none => (0xFEF, flOF + flNX)
      let qs := x.zipIdx.map fun e => quantCode code (md e.2) (divV e.1 (scaleVal s)).1
      (s, qs.map Prod.fst, qs.foldl (fun a q => orFlags a q.2) fl)

/-- floor (log2 (m · 2^e)) of a nonzero magnitude. -/
def magLog (m : Nat) (e : Int) : Int := (Nat.log2 m : Int) + e

/-- DotSum (R109): products already formed, each with the flag of 0 × ∞, and the accumulator. -/
def dotSum (ps : List (FVal × Nat)) (c : FVal) : Nat × Nat :=
  let xs := c :: ps.map Prod.fst
  let zi := ps.any fun p => p.2 / 16 % 2 = 1 && p.1.isNan
  let pos := xs.any fun v => decide (v = .inf false)
  let neg := xs.any fun v => decide (v = .inf true)
  if xs.any FVal.isNan || (pos && neg) then (0x7FC00000, if zi || (pos && neg) then flNV else 0)
  else if pos then (infCode fp32 false, 0)
  else if neg then (infCode fp32 true, 0)
  else
    let nz := xs.filterMap fun v => match v with
      | .fin b m e => if m = 0 then none else some (b, m, e)
      | _ => none
    match nz with
    | [] => (if xs.all (fun v => match v with
        | .fin b _ _ => b
        | _ => false) then withSign fp32 true 0 else 0, 0)
    | (_, m0, e0) :: t =>
      let top := t.foldl (fun a v => max a (magLog v.2.1 v.2.2)) (magLog m0 e0)
      let q := top - 40
      let cut := nz.map fun v =>
        let (a, ix) := roundAt .rtz v.1 v.2.1 v.2.2 q
        ((if v.1 then -(a : Int) else (a : Int)), ix)
      let sum := cut.foldl (fun a v => a + v.1) (0 : Int)
      let lost := cut.any Prod.snd
      let (r, fl) := if sum = 0 then (0, 0) else roundFin fp32 .rne (decide (sum < 0)) sum.natAbs q
      (r, orFlags fl (if lost then flNX else 0))

end Sys2Proof.Machine
end

