-- ==== Sys2Proof/Syntax.lean ====
section
/-!
DEFINITION. The one syntax of the model: a constructor for every row of the opcode table. The first 235 rows are
instruction words; their arguments are the raw fields of the word (04 R60), as naturals. The other 87 rows are the
steps that the agents of the package take by themselves (95); their arguments name the agent that acts and hold what
the outside world or an open timing decides (notes/assumptions/11.md).

Readings and choices of the model (log): DESIGN CHOICE 11.
-/

namespace Sys2Proof

/-- One step of the machine: an instruction word, or a step of another agent. -/
inductive Instr where
  /-- NOP (R75). Does nothing beyond advancing PC. -/
  | nop
  /-- TRAP (R317). Posts an SVC fault record with its argument and service number, and leaves the slot Faulted until a reply. -/
  | trap (d a b : Nat)
  /-- ERET (R317). Returns to EPC in the mode PSTAT.PMODE names and clears PSTAT.INH. -/
  | eret
  /-- ICINV (R317). Invalidates the instruction-cache lines of a byte range in the own quad or in the whole package, interlocked until done. -/
  | icinv (d a b : Nat)
  /-- BRK (R317). Posts a breakpoint record and halts the executing core. -/
  | brk
  /-- CSRR (R75). Reads a control register into a scalar register. -/
  | csrr (d b : Nat)
  /-- CSRW (R75). Writes a control register and returns its old value. -/
  | csrw (d a b : Nat)
  /-- CSRS (R75). Sets bits of a control register and returns its old value. -/
  | csrs (d a b : Nat)
  /-- CSRC (R75). Clears bits of a control register and returns its old value. -/
  | csrc (d a b : Nat)
  /-- CTXSAVE (R317). Saves the pre-empted task's context, and with r = 1 its TCM image, then frees the slot. -/
  | ctxsave (b : Nat)
  /-- CTXREST (R317). Restores a task's context from SAVEPTR, checks the check word and returns to user mode. -/
  | ctxrest
  /-- SVCREPLY (R317). Answers a posted fault record with REPLAY, RESUME, EMULATE or KILL. -/
  | svcreply (d a b : Nat)
  /-- GSTOP_PARTITION (R317). Stops the requesting slot's partition through the halt tree and records STOPCAUSE. -/
  | gstopPartition (a : Nat)
  /-- GSTOP_PACKAGE (R317). Stops the whole package through the halt tree and records STOPCAUSE. -/
  | gstopPackage (a : Nat)
  /-- GSTOP_RESUME (R317). Resumes the partition of VISEL's virtual interface. -/
  | gstopResume (a : Nat)
  /-- ADD (R79). Adds two scalars modulo 2^64. -/
  | add (d a b : Nat)
  /-- SUB (R79). Subtracts two scalars modulo 2^64. -/
  | sub (d a b : Nat)
  /-- MUL (R79). Writes the low 64 bits of the product. -/
  | mul (d a b : Nat)
  /-- MULH (R79). Writes the high 64 bits of the signed product. -/
  | mulh (d a b : Nat)
  /-- MULHN (R79). Writes the high 64 bits of the natural product. -/
  | mulhn (d a b : Nat)
  /-- DIV (R79). Signed division truncated toward zero, with no fault on a zero divisor. -/
  | div (d a b : Nat)
  /-- DIVN (R79). Natural division. -/
  | divn (d a b : Nat)
  /-- REM (R79). Signed remainder with the sign of the dividend. -/
  | rem (d a b : Nat)
  /-- REMN (R79). Natural remainder. -/
  | remn (d a b : Nat)
  /-- AND (R79). Bitwise AND. -/
  | and (d a b : Nat)
  /-- OR (R79). Bitwise OR. -/
  | or (d a b : Nat)
  /-- XOR (R79). Bitwise XOR. -/
  | xor (d a b : Nat)
  /-- ANDN (R79). AND with the complement of the second operand. -/
  | andn (d a b : Nat)
  /-- SHL (R79). Shifts left by a register amount. -/
  | shl (d a b : Nat)
  /-- SHR (R79). Shifts right logically by a register amount. -/
  | shr (d a b : Nat)
  /-- SAR (R79). Shifts right arithmetically by a register amount. -/
  | sar (d a b : Nat)
  /-- ROTL (R79). Rotates left by a register amount. -/
  | rotl (d a b : Nat)
  /-- MIN (R79). Signed minimum. -/
  | min (d a b : Nat)
  /-- MAX (R79). Signed maximum. -/
  | max (d a b : Nat)
  /-- MINN (R79). Natural minimum. -/
  | minn (d a b : Nat)
  /-- MAXN (R79). Natural maximum. -/
  | maxn (d a b : Nat)
  /-- SEQ (R79). Sets 1 when the operands are equal. -/
  | seq (d a b : Nat)
  /-- SNE (R79). Sets 1 when the operands differ. -/
  | sne (d a b : Nat)
  /-- SLT (R79). Signed less-than test. -/
  | slt (d a b : Nat)
  /-- SLTN (R79). Natural less-than test. -/
  | sltn (d a b : Nat)
  /-- SLE (R79). Signed less-or-equal test. -/
  | sle (d a b : Nat)
  /-- SLEN (R79). Natural less-or-equal test. -/
  | slen (d a b : Nat)
  /-- SEL (R79). Selects s[a] or s[b] on the old value of s[d]. -/
  | sel (d a b : Nat)
  /-- CLZ (R79). Counts leading zero bits. -/
  | clz (d a : Nat)
  /-- CTZ (R79). Counts trailing zero bits. -/
  | ctz (d a : Nat)
  /-- POPC (R79). Counts one bits. -/
  | popc (d a : Nat)
  /-- SEXT (R79). Sign-extends from a register-given bit. -/
  | sext (d a b : Nat)
  /-- EXT (R79). Extracts a zero-extended bit field. -/
  | ext (d a b : Nat)
  /-- INS (R79). Inserts a bit field into s[d]. -/
  | ins (d a b : Nat)
  /-- ADDI (R80). Adds a sign-extended 14-bit immediate. -/
  | addi (d a i : Nat)
  /-- ANDI (R80). ANDs with a sign-extended immediate. -/
  | andi (d a i : Nat)
  /-- ORI (R80). ORs with a zero-extended immediate. -/
  | ori (d a i : Nat)
  /-- XORI (R80). XORs with a zero-extended immediate. -/
  | xori (d a i : Nat)
  /-- SHLI (R80). Shifts left by an immediate amount. -/
  | shli (d a n : Nat)
  /-- SHRI (R80). Shifts right logically by an immediate amount. -/
  | shri (d a n : Nat)
  /-- SARI (R80). Shifts right arithmetically by an immediate amount. -/
  | sari (d a n : Nat)
  /-- ROTLI (R80). Rotates left by an immediate amount. -/
  | rotli (d a n : Nat)
  /-- SLTI (R80). Signed compare with an immediate. -/
  | slti (d a i : Nat)
  /-- SLTIN (R80). Natural compare with a sign-extended immediate. -/
  | sltin (d a i : Nat)
  /-- LUI (R80). Loads a sign-extended 20-bit immediate shifted left by 14. -/
  | lui (d i : Nat)
  /-- ADDPC (R80). Forms a PC-relative address modulo 2^52. -/
  | addpc (d i : Nat)
  /-- BZ (R81). Branches when s[a] is zero. -/
  | bz (a p : Nat)
  /-- BNZ (R81). Branches when s[a] is nonzero. -/
  | bnz (a p : Nat)
  /-- BLTZ (R81). Branches when s[a] is negative. -/
  | bltz (a p : Nat)
  /-- BGEZ (R81). Branches when s[a] is non-negative. -/
  | bgez (a p : Nat)
  /-- BGTZ (R81). Branches when s[a] is positive. -/
  | bgtz (a p : Nat)
  /-- BLEZ (R81). Branches when s[a] is zero or negative. -/
  | blez (a p : Nat)
  /-- J (R82). Jumps by a 26-bit word displacement. -/
  | j (p : Nat)
  /-- JL (R82). Jumps and writes the return address to s62. -/
  | jl (p : Nat)
  /-- JX (R84). Indirect jump, with a landing-pad label check at the target. -/
  | jx (a b : Nat)
  /-- CALLX (R84). Indirect call with a pad check that writes the link register. -/
  | callx (a b : Nat)
  /-- RET (R84). Returns through s62 without a pad check. -/
  | ret
  /-- JT (R84). Bounded jump through a labelled table entry, with a pad check. -/
  | jt (d a b : Nat)
  /-- PAD (R83). Landing pad that acts as a NOP when reached directly. -/
  | pad (l : Nat)
  /-- RPT (R88). Captures up to 16 following words and runs them count times with register staggers. -/
  | rpt (l c x y z : Nat)
  /-- TID (R91). Returns the task's tile coordinate. -/
  | tid (d : Nat)
  /-- TGRP (R91). Returns the task's group index. -/
  | tgrp (d : Nat)
  /-- TEXIT (R49). Requests retirement of the task and is interlocked until the slot's engine commands complete. -/
  | texit (a : Nat)
  /-- LAUNCH (R328). Presents a launch record to the dispatcher and returns a successor handle or a refusal status. -/
  | launch (d a x e : Nat)
  /-- LB (R153). Loads a sign-extended byte. -/
  | lb (d b o f : Nat)
  /-- LBN (R153). Loads a zero-extended byte. -/
  | lbn (d b o f : Nat)
  /-- LH (R153). Loads a sign-extended halfword. -/
  | lh (d b o f : Nat)
  /-- LHN (R153). Loads a zero-extended halfword. -/
  | lhn (d b o f : Nat)
  /-- LW (R153). Loads a sign-extended word. -/
  | lw (d b o f : Nat)
  /-- LWN (R153). Loads a zero-extended word. -/
  | lwn (d b o f : Nat)
  /-- LD (R153). Loads a doubleword. -/
  | ld (d b o f : Nat)
  /-- LDP (R153). Loads a 16-byte pair into two registers. -/
  | ldp (d b o f : Nat)
  /-- STB (R153). Stores a byte. -/
  | stb (d b o f : Nat)
  /-- STH (R153). Stores a halfword. -/
  | sth (d b o f : Nat)
  /-- STW (R153). Stores a word. -/
  | stw (d b o f : Nat)
  /-- STD (R153). Stores a doubleword. -/
  | std (d b o f : Nat)
  /-- STP (R153). Stores a 16-byte register pair. -/
  | stp (d b o f : Nat)
  /-- LDX (R155). Indexed load of the width the func field gives. -/
  | ldx (d a b o s w : Nat)
  /-- STX (R155). Indexed store of the width the func field gives. -/
  | stx (d a b o s w : Nat)
  /-- FENCE (R157). Full fence of the chosen scope, interlocked until earlier accesses are performed. -/
  | fence (s : Nat)
  /-- FENCE_ACQ (R157). Orders earlier loads before later loads and stores. -/
  | fenceAcq (s : Nat)
  /-- FENCE_REL (R157). Orders earlier loads and stores before later stores. -/
  | fenceRel (s : Nat)
  /-- FENCE_SS (R157). Orders earlier stores before later stores. -/
  | fenceSs (s : Nat)
  /-- AADD (R158). Atomic add at the home. -/
  | aadd (d a b o w : Nat)
  /-- AAND (R158). Atomic AND at the home. -/
  | aand (d a b o w : Nat)
  /-- AOR (R158). Atomic OR at the home. -/
  | aor (d a b o w : Nat)
  /-- AXOR (R158). Atomic XOR at the home. -/
  | axor (d a b o w : Nat)
  /-- AMIN (R158). Atomic signed minimum. -/
  | amin (d a b o w : Nat)
  /-- AMAX (R158). Atomic signed maximum. -/
  | amax (d a b o w : Nat)
  /-- AMINN (R158). Atomic natural minimum. -/
  | aminn (d a b o w : Nat)
  /-- AMAXN (R158). Atomic natural maximum. -/
  | amaxn (d a b o w : Nat)
  /-- ASWP (R158). Atomic swap. -/
  | aswp (d a b o w : Nat)
  /-- ACAS (R158). Atomic compare-and-swap. -/
  | acas (d a b o w : Nat)
  /-- AFADD (R159). Atomic floating-point add, rounded to nearest even. -/
  | afadd (d a b o w : Nat)
  /-- AFMIN (R158). Atomic floating-point minimum. -/
  | afmin (d a b o w : Nat)
  /-- AFMAX (R158). Atomic floating-point maximum. -/
  | afmax (d a b o w : Nat)
  /-- ACAS2 (R163). 16-byte compare-and-swap that always returns the old pair. -/
  | acas2 (d a b o : Nat)
  /-- BTAG (R165). Makes a batch tag current for later remote stores. -/
  | btag (b : Nat)
  /-- BCLOSE (R166). Closes a batch and sends a close request to every node it touched. -/
  | bclose (e a b : Nat)
  /-- RAPPEND (R168). Sends a record to a remote byte ring in one class-A packet. -/
  | rappend (e a b : Nat)
  /-- VADD (R114). Lane-wise integer add. -/
  | vadd (d a b k w : Nat)
  /-- VSUB (R114). Lane-wise integer subtract. -/
  | vsub (d a b k w : Nat)
  /-- VMUL (R114). Lane-wise low product. -/
  | vmul (d a b k w : Nat)
  /-- VMULH (R114). Lane-wise signed high product. -/
  | vmulh (d a b k w : Nat)
  /-- VMIN (R114). Lane-wise signed minimum. -/
  | vmin (d a b k w : Nat)
  /-- VMAX (R114). Lane-wise signed maximum. -/
  | vmax (d a b k w : Nat)
  /-- VMINN (R114). Lane-wise natural minimum. -/
  | vminn (d a b k w : Nat)
  /-- VMAXN (R114). Lane-wise natural maximum. -/
  | vmaxn (d a b k w : Nat)
  /-- VAND (R114). Lane-wise AND. -/
  | vand (d a b k w : Nat)
  /-- VOR (R114). Lane-wise OR. -/
  | vor (d a b k w : Nat)
  /-- VXOR (R114). Lane-wise XOR. -/
  | vxor (d a b k w : Nat)
  /-- VANDN (R114). Lane-wise AND-NOT. -/
  | vandn (d a b k w : Nat)
  /-- VSHL (R114). Lane-wise shift left. -/
  | vshl (d a b k w : Nat)
  /-- VSHR (R114). Lane-wise logical shift right. -/
  | vshr (d a b k w : Nat)
  /-- VSAR (R114). Lane-wise arithmetic shift right. -/
  | vsar (d a b k w : Nat)
  /-- VABS (R114). Lane-wise absolute value. -/
  | vabs (d a k w : Nat)
  /-- VNEG (R114). Lane-wise negation. -/
  | vneg (d a k w : Nat)
  /-- VPOPC (R114). Lane-wise population count. -/
  | vpopc (d a k w : Nat)
  /-- VFADD (R115). Lane-wise rounded float add. -/
  | vfadd (d a b k : Nat)
  /-- VFSUB (R115). Lane-wise rounded float subtract. -/
  | vfsub (d a b k : Nat)
  /-- VFMUL (R115). Lane-wise rounded float multiply. -/
  | vfmul (d a b k : Nat)
  /-- VFMIN (R115). Lane-wise float minimum with the NaN and zero rules. -/
  | vfmin (d a b k : Nat)
  /-- VFMAX (R115). Lane-wise float maximum. -/
  | vfmax (d a b k : Nat)
  /-- VFABS (R115). Clears the sign bit of each element. -/
  | vfabs (d a k : Nat)
  /-- VFNEG (R115). Inverts the sign bit of each element. -/
  | vfneg (d a k : Nat)
  /-- VFMA (R116). Fused multiply-add. -/
  | vfma (d a b c k : Nat)
  /-- VFMS (R116). Fused multiply-subtract. -/
  | vfms (d a b c k : Nat)
  /-- VFNMA (R116). Negated fused multiply-add. -/
  | vfnma (d a b c k : Nat)
  /-- VFNMS (R116). Negated fused multiply-subtract. -/
  | vfnms (d a b c k : Nat)
  /-- VMADD (R116). 32-bit integer multiply-add. -/
  | vmadd (d a b c k : Nat)
  /-- VMSUB (R116). 32-bit integer multiply-subtract. -/
  | vmsub (d a b c k : Nat)
  /-- VCMPI (R117). Integer compare into a predicate. -/
  | vcmpi (d a b k w n : Nat)
  /-- VCMPF (R117). Float compare into a predicate. -/
  | vcmpf (d a b k n : Nat)
  /-- VSEL (R117). Selects elements under a predicate. -/
  | vsel (d a b k w : Nat)
  /-- VRED (R119). Pairwise reduction of the active elements into element 0. -/
  | vred (d a b k w o : Nat)
  /-- VSCAN (R119). Inclusive scan over the active elements. -/
  | vscan (d a b k w o : Nat)
  /-- VPERM (R120). Permutes elements by index. -/
  | vperm (d a b k w : Nat)
  /-- VBCAST (R120). Broadcasts a scalar to the active elements. -/
  | vbcast (d a k w h : Nat)
  /-- VGETL (R120). Moves one element to a scalar register. -/
  | vgetl (d a l w h : Nat)
  /-- VSETL (R120). Writes one element from a scalar register. -/
  | vsetl (d a l w h : Nat)
  /-- VSLIDE_DN (R120). Slides elements down by a literal amount. -/
  | vslideDn (d a n k w : Nat)
  /-- VSLIDE_UP (R120). Slides elements up by a literal amount. -/
  | vslideUp (d a n k w : Nat)
  /-- VIOTA (R120). Writes each element's index. -/
  | viota (d k w : Nat)
  /-- VIOTA_CNT (R120). Writes the count of active elements below each index. -/
  | viotaCnt (d k w : Nat)
  /-- VCVT (R122). Converts elements between formats, part by part. -/
  | vcvt (d a k p : Nat)
  /-- VQUANT (R125). Quantises a 32-element FP32 block into one block of a block-scaled row. -/
  | vquant (d a p : Nat)
  /-- VDEQ (R126). Dequantises one block of a block-scaled row to FP32. -/
  | vdeq (d a k p : Nat)
  /-- VDEC (R123). Decodes 8-bit codes through a decode table. -/
  | vdec (d a k p : Nat)
  /-- VENC (R124). Encodes values through a decode table by binary search. -/
  | venc (d a k p : Nat)
  /-- VBADD (R127). Adds two block-scaled rows and requantises the sum. -/
  | vbadd (d a b : Nat)
  /-- TBLLD (R128). Loads a decode table and its descriptor from registers or a standard source, taking ownership. -/
  | tblld (s t a b h : Nat)
  /-- VRCP (R130). Lane-wise reciprocal. -/
  | vrcp (d a k : Nat)
  /-- VRSQ (R130). Lane-wise reciprocal square root. -/
  | vrsq (d a k : Nat)
  /-- VEXP2 (R130). Lane-wise power of two. -/
  | vexp2 (d a k : Nat)
  /-- VLOG2 (R130). Lane-wise base-2 logarithm. -/
  | vlog2 (d a k : Nat)
  /-- VSQRT (R130). Lane-wise correctly rounded square root. -/
  | vsqrt (d a k : Nat)
  /-- VDIV (R130). Lane-wise correctly rounded division. -/
  | vdiv (d a b k : Nat)
  /-- KAND (R131). Predicate AND. -/
  | kand (d a b : Nat)
  /-- KOR (R131). Predicate OR. -/
  | kor (d a b : Nat)
  /-- KXOR (R131). Predicate XOR. -/
  | kxor (d a b : Nat)
  /-- KNOT (R131). Predicate NOT. -/
  | knot (d a : Nat)
  /-- KMOV (R131). Predicate move. -/
  | kmov (d a : Nat)
  /-- KPOPC (R131). Counts active elements of a predicate. -/
  | kpopc (d a w h : Nat)
  /-- KFIRST (R131). Finds the lowest active element index. -/
  | kfirst (d a w h : Nat)
  /-- VLD (R132). Contiguous vector load. -/
  | vld (v b x k o w : Nat)
  /-- VLDS (R132). Strided vector load. -/
  | vlds (v b x k o w : Nat)
  /-- VLDX (R132). Indexed vector gather. -/
  | vldx (v b x k o w : Nat)
  /-- VLDB (R132). Broadcast vector load. -/
  | vldb (v b x k o w : Nat)
  /-- VST (R132). Contiguous vector store. -/
  | vst (v b x k o w : Nat)
  /-- VSTS (R132). Strided vector store. -/
  | vsts (v b x k o w : Nat)
  /-- VSTX (R132). Indexed vector scatter. -/
  | vstx (v b x k o w : Nat)
  /-- MLEASE (R219). Registers an MXE lease request for a bound event. -/
  | mlease (e : Nat)
  /-- MFREE (R219). Ends the slot's lease or withdraws its pending request. -/
  | mfree
  /-- MRING (R220). Configures or releases a matrix ring once the commands that name it have completed. -/
  | mring (a n : Nat)
  /-- MRPUB (R221). Publishes m panels of a matrix ring. -/
  | mrpub (d a n : Nat)
  /-- MRPOP (R221). Discards the m oldest unreserved panels of a ring. -/
  | mrpop (d a n : Nat)
  /-- MMA (R222). Accepts a multiply of the A and B head panels into a tile, then pops both heads. -/
  | mma (x e r c s : Nat)
  /-- MMAH (R222). Accepts a multiply that pops only the A head. -/
  | mmah (x e r c s : Nat)
  /-- MZERO (R223). Zeroes an accumulator tile and ends wide mode. -/
  | mzero (x e c : Nat)
  /-- MLDA (R223). Loads a tile from the own Tarn. -/
  | mlda (x e c b : Nat)
  /-- MSTA (R223). Stores a tile to the own Tarn in format FR. -/
  | msta (x e c b : Nat)
  /-- MSCALE (R226). Writes the scale exponent of each operand row. -/
  | mscale (x e a : Nat)
  /-- MSPLIT (R226). Splits an FP64 or FP32 operand into digit panels pushed into a ring. -/
  | msplit (x e a b : Nat)
  /-- MSMM (R228). Accepts a sliced product into the wide tile, reserving the panels of block 0. -/
  | msmm (x e a b : Nat)
  /-- MSFIN (R230). Rounds the wide tile into an FP64 or FP32 result and leaves wide mode. -/
  | msfin (x e a b : Nat)
  /-- SBIND (R233). Binds a stream register to a stream parameter block. -/
  | sbind (x e a r : Nat)
  /-- SFREE (R236). Unbinds a stream register and discards unmoved beats. -/
  | sfree (r : Nat)
  /-- SSTAT (R236). Returns a stream's status word. -/
  | sstat (d r : Nat)
  /-- SRD (R236). Reads the next beat of a read stream into a vector register. -/
  | srd (v r : Nat)
  /-- SWR (R236). Writes a vector register as the next beat of a write stream. -/
  | swr (v r : Nat)
  /-- CPY (R239). Accepts a single-row copy command into a copy queue. -/
  | cpy (x e a q : Nat)
  /-- CPYS (R239). Accepts a strided copy command. -/
  | cpys (x e a q : Nat)
  /-- CPYG (R239). Accepts an indexed gather copy command. -/
  | cpyg (x e a q : Nat)
  /-- CPYM (R240). Accepts a multicast copy into the TCM of the masked co-launch teams. -/
  | cpym (x e a q : Nat)
  /-- EVNEW (R193). Creates an event from an event creation block, or returns 0 when there is no room. -/
  | evnew (d a : Nat)
  /-- EVFREE (R193). Breaks a live event if needed and frees it, advancing GEN. -/
  | evfree (a : Nat)
  /-- EVBIND (R193). Binds an event slot to a name. -/
  | evbind (e a : Nat)
  /-- EVDROP (R193). Unbinds an event slot. -/
  | evdrop (e : Nat)
  /-- EVBREAK (R193). Breaks the event bound to a slot. -/
  | evbreak (e : Nat)
  /-- EVSTAT (R194). Returns the status word of a bound event. -/
  | evstat (d e : Nat)
  /-- OFFER (R198). Registers a blocking offer of up to eight events and waits for an outcome. -/
  | offer (d a b : Nat)
  /-- OFFERT (R198). Registers a blocking offer with a cycle limit. -/
  | offert (d a b : Nat)
  /-- OFFERS (R199). Arms a standing offer with a handler, without blocking. -/
  | offers (d a b : Nat)
  /-- OFCAN (R199). Withdraws the armed standing offer. -/
  | ofcan (d : Nat)
  /-- OFCAN_RET (R190). Leaves a standing-offer handler, restores the registers and resumes a suspended offer. -/
  | ofcanRet
  /-- GET (R200). Offers the get side of a channel; in a folded chain it acts under R250. -/
  | get (d e : Nat)
  /-- PUT (R200). Offers the put side of a channel; in a folded chain it acts under R250. -/
  | put (d e : Nat)
  /-- SYNC (R201). Offers the domain barrier instance of the slot's DOMAIN value. -/
  | sync (d : Nat)
  /-- EQP (R257). Parks a chain stage at an equivalence point when a switch is pending. -/
  | eqp
  /-- CHFOLD (R257). Requests folded form for the chain. -/
  | chfold (d : Nat)
  /-- CHSPREAD (R257). Requests spread form for the chain. -/
  | chspread (d : Nat)
  /-- CHSTAT (R258). Returns the chain status word. -/
  | chstat (d : Nat)
  /-- CCENROL (R274). Enrols a tile range as a new node of the change-count tree. -/
  | ccenrol (d a b : Nat)
  /-- CCDROP (R274). Drops a node and frees its tile entries. -/
  | ccdrop (d a : Nat)
  /-- CCMOVE (R274). Moves a node to a new parent, bumping both paths. -/
  | ccmove (d a b : Nat)
  /-- CCSETTLE (R274). Starts a roll-up of every bump owed to a node. -/
  | ccsettle (x e a : Nat)
  /-- CCREAD (R274). Reads a node count. -/
  | ccread (d a : Nat)
  /-- CCREAD_T (R274). Reads the count of the tile at an address. -/
  | ccreadT (d a : Nat)
  /-- CCCMP (R274). Compares a node count with an expected count. -/
  | cccmp (d a b : Nat)
  /-- FMTP (R77). Sets a format prefix for the next instruction. -/
  | fmtp (a b r m s : Nat)
  /-- TASK_RETIREMENT (R48). When TEXIT's interlock ends, breaks events, releases the lease and frees, reserves or lingers the slot. -/
  | taskRetirement (slot : Nat)
  /-- LOAD_DATA_RETURN (R45). Data of a load, returning atomic, LDX or ACAS2 returns and the slot's interlock ends. -/
  | loadDataReturn (slot st data : Nat)
  /-- FENCE_DRAIN_END (R157). The fence's ordered earlier accesses are performed within its scope, and the slot goes on. -/
  | fenceDrainEnd (slot : Nat)
  /-- ICINV_DONE (R317). Every covered instruction-cache line has been invalidated, and ICINV completes. -/
  | icinvDone (slot : Nat)
  /-- HELD_RECORD_POST (R302). A non-fatal record held in its core is posted once the trap queue has room. -/
  | heldRecordPost (die i : Nat)
  /-- PREEMPT (R305). A slot takes a PREEMPT request and enters the resident handler at VBASE. -/
  | preempt (slot : Nat)
  /-- TASK_DISPATCH (R334). The dispatcher places a ready task, co-launch instance or chain on a fitting core or cluster. -/
  | taskDispatch (pick : Nat)
  /-- TASK_REDISPATCH (R337). The dispatcher restores a pre-empted task, its TCM image and its state on a slot. -/
  | taskRedispatch (pick : Nat)
  /-- CHAIN_SWITCH (R254). At an equivalence point Saffron moves every stage to its new form in one step. -/
  | chainSwitch (vi id : Nat)
  /-- LEASE_GRANT_OFFER (R204). The lease arbiter offers the grant event of the next requesting position after its pointer. -/
  | leaseGrantOffer (cl : Nat)
  /-- LEASE_OFFER_TIMEOUT (R204). The arbiter withdraws a grant offer not occurred after 64 cycles and moves on. -/
  | leaseOfferTimeout (cl : Nat)
  /-- LEASE_EXPIRY (R205). A lease ends 1024 cycles after its occurrence. -/
  | leaseExpiry (cl : Nat)
  /-- MXE_COMMAND_EXECUTE (R213). The MXE executes the next accepted command in acceptance order. -/
  | mxeCommandExecute (cl : Nat)
  /-- MSMM_PASS (R227). The MXE runs one pass of a sliced product and holds its checkpoint. -/
  | msmmPass (cl : Nat)
  /-- MSMM_BLOCK_RESERVE (R228). The MXE reserves the panels of the next K block, waiting on the slot's own pushes, or ends with RING. -/
  | msmmBlockReserve (cl : Nat)
  /-- COPY_EXECUTE (R239). A copy queue starts its next command once the previous one has completed. -/
  | copyExecute (cl q n : Nat)
  /-- RING_PUSH (R147). A push into a multicast or matrix ring that waited for a free entry takes place. -/
  | ringPush (cl q : Nat)
  /-- COPY_COMPLETE (R237). A copy command's last write and push finish and its copy agent offers its event. -/
  | copyComplete (cl q : Nat)
  /-- STREAM_BEAT (R234). The stream unit moves one 128-byte beat, pushing a panel after every 32nd beat of a ring stream. -/
  | streamBeat (slot r : Nat)
  /-- STREAM_COMPLETE (R235). A stream's last beat is read or written and the stream agent offers its event. -/
  | streamComplete (slot r : Nat)
  /-- OFFER_REGISTRATION (R183). A registration, engine offer or withdrawal reaches a home resolver after its trip. -/
  | offerRegistration (i : Nat)
  /-- RESOLVER_WINDOW (R183). At the end of each window the resolver selects and commits enabled events by key and rotation pointer. -/
  | resolverWindow (home : Nat)
  /-- CLAIM (R184). An offer unit answers a claim by granting, revoking an older claim or refusing. -/
  | claim (i : Nat)
  /-- CLAIM_ANSWER (R184). A grant or refusal reaches the claiming home. -/
  | claimAnswer (i : Nat)
  /-- CLAIM_REVOKE (R184). A revoke reaches a home, which releases every claim of its attempt. -/
  | claimRevoke (i : Nat)
  /-- CLAIM_RELEASE (R184). A release of a claim reaches an offer unit. -/
  | claimRelease (i : Nat)
  /-- COMMIT_NOTIFY (R184). An offer unit receives a commit, consumes the offer and withdraws its other events. -/
  | commitNotify (i : Nat)
  /-- FREE_ANNOUNCE (R184). A unit announces that a refused offer is free to the waiting home. -/
  | freeAnnounce (i : Nat)
  /-- OFFERT_EXPIRY (R188). An OFFERT limit passes, the offer is withdrawn and resolves TIMEOUT unless committed. -/
  | offertExpiry (slot : Nat)
  /-- HANDLER_ENTRY (R190). The standing-offer handler is entered at the slot's next issue opportunity. -/
  | handlerEntry (slot : Nat)
  /-- SETTLE_COMPLETE (R269). A settle's roll-up completes and the remote agent offers its event. -/
  | settleComplete (slot i : Nat)
  /-- ROLLUP (R266). The roll-up engine adds one bump to a node of the accounting set, bottom-up. -/
  | rollup (vi : Nat)
  /-- BATCH_SUMMARY (R166). When every node's summary has arrived the device writes the summary word and offers the close event. -/
  | batchSummary (slot tag : Nat) (answers : List Nat)
  /-- CLOSE_REQUEST (R166). A node answers a close request once every member of the batch addressed to it is performed or has failed. -/
  | closeRequest (vi i : Nat)
  /-- APPEND_STATUS (R168). An append status returns and the device writes the status word and offers the event. -/
  | appendStatus (slot i st pos : Nat)
  /-- ATOMIC_REPLY (R161). A remote atomic's reply arrives with the old value and flags. -/
  | atomicReply (slot st old flags : Nat)
  /-- INGRESS_DEQUEUE (R346). A target network interface dequeues a request of one VI and class, translates it and performs it. -/
  | ingressDequeue (vi cls : Nat)
  /-- REMOTE_APPEND (R348). A remote append is matched against the registration table and accepted under R150 or refused. -/
  | remoteAppend (vi : Nat)
  /-- PUB_PUBLISH (R150). PUB advances with release once every earlier reservation of the ring is written. -/
  | pubPublish (ring : Nat)
  /-- ARRIVAL_RECORD (R336). A published TYPE 1 record on a bound ring creates an ARRIVAL task. -/
  | arrivalRecord (ring : Nat)
  /-- RING_LAUNCH_RECORD (R336). A published TYPE 2 record on a bound ring is presented as a launch record. -/
  | ringLaunchRecord (ring : Nat)
  /-- ARRIVAL_RING_RELEASE (R150). The interface advances CONS past records whose tasks retired and whose predecessors are released. -/
  | arrivalRingRelease (ring : Nat)
  /-- HOST_LAUNCH (R322). The device reads a LAUNCH command from a VI queue and checks its launch record. -/
  | hostLaunch (vi : Nat)
  /-- HOST_CANCEL (R339). The device reads a CANCEL command and stops further dispatch of the named launch. -/
  | hostCancel (vi : Nat)
  /-- COMPLETION_ENTRY_POST (R323). A completion entry is written and CQTAIL advanced once the completion queue has room. -/
  | completionEntryPost (vi : Nat)
  /-- LAUNCH_COMPLETION (R326). When every task has retired, the launch writes its completion word and offers its event or posts its entry. -/
  | launchCompletion (vi id : Nat)
  /-- TENCFG_WRITE (R330). A write of a tenant's configuration, ignored or partly applied as its state requires. -/
  | tencfgWrite (vi x : Nat)
  /-- REGISTRATION_WRITE (R347). A write of a ring registration entry, ignored while enabled except one that clears EN. -/
  | registrationWrite (ring j x : Nat)
  /-- MSCR_WRITE (R141). Resizes the Mere scratch part, writing back lines taken from the cache. -/
  | mscrWrite (die x : Nat)
  /-- ATOMFLAGS_CLEAR (R296). A one written to ATOMFLAGS clears that flag at every home agent of the die. -/
  | atomflagsClear (die vi x : Nat)
  /-- SMDATA_WRITE (R354). Writes the selected Sumac register as that core's CSRW would. -/
  | smdataWrite (x : Nat)
  /-- SMDATA_READ (R354). Reads the selected Sumac register as that core's CSRR would. -/
  | smdataRead
  /-- INVALIDATE_RANGE (R311). Invalidates a range of one address space in every TLB, tag and translator. -/
  | invalidateRange
  /-- INVALIDATE_SPACE (R311). Invalidates a whole address space. -/
  | invalidateSpace
  /-- INVALIDATE_ALL (R311). Invalidates every address space. -/
  | invalidateAll
  /-- INVALIDATION_ACK (R311). Once covered accesses and requests have drained, the command is acknowledged and INVACK advances. -/
  | invalidationAck
  /-- ATTESTATION_REPORT (R368). GO makes the device write a signed 512-byte report and signal vector 2. -/
  | attestationReport (vi : Nat)
  /-- PSTATE_REQUEST (R365). Applies a requested P-state to a die within 20 µs. -/
  | pstateRequest (die : Nat)
  /-- CSTATE_C0 (R365). Returns a cluster to C0 within 100 µs with its resolver pointer reset. -/
  | cstateC0 (cl : Nat)
  /-- CSTATE_C1 (R365). Stops a cluster's clock, holding its slots' events. -/
  | cstateC1 (cl : Nat)
  /-- CSTATE_C2 (R365). Powers a cluster down, keeping TCM, or refuses. -/
  | cstateC2 (cl : Nat)
  /-- DIE_C3 (R365). Turns a die off after writing back the Mere cache, or refuses. -/
  | dieC3 (die : Nat)
  /-- DIE_C0 (R365). Returns a die from C3. -/
  | dieC0 (die : Nat)
  /-- THERMAL_TRIP (R366). A die reaching TEMPC enters TRIPP, sets DIES and TRIPPED and signals vector 1. -/
  | thermalTrip (die t : Nat)
  /-- THERMAL_SHUTDOWN (R366). At TEMPC plus 15 °C the management controller removes package power. -/
  | thermalShutdown (die t : Nat)
  /-- PMIN_APPLY (R344). A new MIN takes effect once the shared pool has fewer buffers in use than its new size. -/
  | pminApply (port : Nat)
  /-- FLIT_RECEIVE (R343). A receiver accepts a flit, or discards it and requests a replay on a CRC error or gap. -/
  | flitReceive (port : Nat) (flit : Flit)
  /-- LINK_REPLAY (R343). A transmitter resends from the first missing flit on a replay request. -/
  | linkReplay (port failed : Nat)
  /-- PORT_TRAINED (R340). A port comes up when all eight of its lanes have trained. -/
  | portTrained (port : Nat)
  /-- NODE_LOSS (R312). A node resets or loses its route; in-flight accesses complete with PEER_LOST and events with a party there break. -/
  | nodeLoss (node : Nat)
  /-- FUNCTION_LEVEL_RESET (R355). Destroys a VI: queues disabled, tasks killed, persistent events freed, registrations cleared. -/
  | functionLevelReset (vi : Nat)
  /-- PACKAGE_RESET (R367). A cold reset verifies the firmware chain and resets the package. -/
  | packageReset (verified : Nat)
  /-- SC_ANNOUNCEMENT (R282). SC operations of a 64-tick window are delivered to every agent of the package 96 ticks after the window starts. -/
  | scAnnouncement (w : Nat)
  /-- UE_SEND (R362). The Ultra Ethernet engine takes a SEND work request. -/
  | ueSend (q : Nat)
  /-- UE_WRITE (R361). The engine takes a WRITE work request to a peer memory region. -/
  | ueWrite (q : Nat)
  /-- UE_READ (R361). The engine takes a READ work request from a peer memory region. -/
  | ueRead (q : Nat)
  /-- UE_COMPLETION (R363). A work request completes, adds to its counter and optionally appends a completion record. -/
  | ueCompletion (q i st : Nat) (data : List Nat)
  /-- UE_SEND_ARRIVAL (R362). A SEND arriving from a peer is published as a TYPE 1 record in the endpoint's ring, with retry. -/
  | ueSendArrival (ep : Nat) (data : List Nat)
  /-- REGISTER_WRITE (R6). A write to a register with no behaviour of its own, applied by its access code. -/
  | registerWrite (off x : Nat)
  /-- STORE_BUFFER_DRAIN (R45). A local store or non-returning atomic is performed at its home and its store-buffer entry frees, ending a store-buffer interlock. -/
  | storeBufferDrain (slot i : Nat)
  /-- TREE_OPERATION_RESULT (R273). The result of a CCENROL, CCDROP, CCMOVE, CCREAD or CCCMP returns from the tree and the slot's interlock ends. -/
  | treeOperationResult (slot : Nat)
  /-- UNCORRECTABLE_ERROR (R154). Memory detects an uncorrectable error and marks the 64-byte granule poisoned. -/
  | uncorrectableError (granule : Nat)
  /-- LANE_TRAINING_LOST (R340). A SerDes lane loses its training, so its port has fewer than eight trained lanes and goes down. -/
  | laneTrainingLost (die lane : Nat)
  /-- HOST_MEMORY_WRITE (R265). A host write transaction-layer packet over PCIe is performed in device memory through the Mere and bumps enrolled tiles. -/
  | hostMemoryWrite (addr : Nat) (data : List Nat)
  /-- UE_WRITE_ARRIVAL (R361). A WRITE from an Ultra Ethernet peer arrives and is written into the local memory region that its RKEY names. -/
  | ueWriteArrival (rkey off : Nat) (data : List Nat)
  /-- UE_READ_ARRIVAL (R361). A READ request from an Ultra Ethernet peer arrives and the engine returns the bytes of the named local memory region. -/
  | ueReadArrival (rkey off len : Nat)
  /-- UE_RETRANSMISSION (R358). The Ultra Ethernet engine retransmits unacknowledged packets after selective acknowledgement or a timeout. -/
  | ueRetransmission (q i : Nat)
  deriving DecidableEq, Repr

end Sys2Proof
end

