-- ==== Sys2Proof/WellFormed.lean ====
section
/-!
DEFINITION. Well-formed instructions: every field of a word fits its place in the encoding (04 R60), and every step of
another agent names agents that the package has (01 R8, R13; 18 R282; 22 R321; 24 R353). What a field's VALUE may be
(an odd register of a pair, an unaccepted format code) is no question of form: such a word decodes, and its meaning
raises ILLEGAL.
-/

namespace Sys2Proof

/-- Every field fits, and every named agent exists. -/
def wellFormed (i : Instr) : Bool :=
  match i with
  | .nop => true
  | .trap d a b => decide (d < 64 ∧ a < 64 ∧ b < 64)
  | .eret => true
  | .icinv d a b => decide (d < 64 ∧ a < 64 ∧ b < 64)
  | .brk => true
  | .csrr d b => decide (d < 64 ∧ b < 64)
  | .csrw d a b => decide (d < 64 ∧ a < 64 ∧ b < 64)
  | .csrs d a b => decide (d < 64 ∧ a < 64 ∧ b < 64)
  | .csrc d a b => decide (d < 64 ∧ a < 64 ∧ b < 64)
  | .ctxsave b => decide (b < 64)
  | .ctxrest => true
  | .svcreply d a b => decide (d < 64 ∧ a < 64 ∧ b < 64)
  | .gstopPartition a => decide (a < 64)
  | .gstopPackage a => decide (a < 64)
  | .gstopResume a => decide (a < 64)
  | .add d a b => decide (d < 64 ∧ a < 64 ∧ b < 64)
  | .sub d a b => decide (d < 64 ∧ a < 64 ∧ b < 64)
  | .mul d a b => decide (d < 64 ∧ a < 64 ∧ b < 64)
  | .mulh d a b => decide (d < 64 ∧ a < 64 ∧ b < 64)
  | .mulhn d a b => decide (d < 64 ∧ a < 64 ∧ b < 64)
  | .div d a b => decide (d < 64 ∧ a < 64 ∧ b < 64)
  | .divn d a b => decide (d < 64 ∧ a < 64 ∧ b < 64)
  | .rem d a b => decide (d < 64 ∧ a < 64 ∧ b < 64)
  | .remn d a b => decide (d < 64 ∧ a < 64 ∧ b < 64)
  | .and d a b => decide (d < 64 ∧ a < 64 ∧ b < 64)
  | .or d a b => decide (d < 64 ∧ a < 64 ∧ b < 64)
  | .xor d a b => decide (d < 64 ∧ a < 64 ∧ b < 64)
  | .andn d a b => decide (d < 64 ∧ a < 64 ∧ b < 64)
  | .shl d a b => decide (d < 64 ∧ a < 64 ∧ b < 64)
  | .shr d a b => decide (d < 64 ∧ a < 64 ∧ b < 64)
  | .sar d a b => decide (d < 64 ∧ a < 64 ∧ b < 64)
  | .rotl d a b => decide (d < 64 ∧ a < 64 ∧ b < 64)
  | .min d a b => decide (d < 64 ∧ a < 64 ∧ b < 64)
  | .max d a b => decide (d < 64 ∧ a < 64 ∧ b < 64)
  | .minn d a b => decide (d < 64 ∧ a < 64 ∧ b < 64)
  | .maxn d a b => decide (d < 64 ∧ a < 64 ∧ b < 64)
  | .seq d a b => decide (d < 64 ∧ a < 64 ∧ b < 64)
  | .sne d a b => decide (d < 64 ∧ a < 64 ∧ b < 64)
  | .slt d a b => decide (d < 64 ∧ a < 64 ∧ b < 64)
  | .sltn d a b => decide (d < 64 ∧ a < 64 ∧ b < 64)
  | .sle d a b => decide (d < 64 ∧ a < 64 ∧ b < 64)
  | .slen d a b => decide (d < 64 ∧ a < 64 ∧ b < 64)
  | .sel d a b => decide (d < 64 ∧ a < 64 ∧ b < 64)
  | .clz d a => decide (d < 64 ∧ a < 64)
  | .ctz d a => decide (d < 64 ∧ a < 64)
  | .popc d a => decide (d < 64 ∧ a < 64)
  | .sext d a b => decide (d < 64 ∧ a < 64 ∧ b < 64)
  | .ext d a b => decide (d < 64 ∧ a < 64 ∧ b < 64)
  | .ins d a b => decide (d < 64 ∧ a < 64 ∧ b < 64)
  | .addi d a i => decide (d < 64 ∧ a < 64 ∧ i < 16384)
  | .andi d a i => decide (d < 64 ∧ a < 64 ∧ i < 16384)
  | .ori d a i => decide (d < 64 ∧ a < 64 ∧ i < 16384)
  | .xori d a i => decide (d < 64 ∧ a < 64 ∧ i < 16384)
  | .shli d a n => decide (d < 64 ∧ a < 64 ∧ n < 64)
  | .shri d a n => decide (d < 64 ∧ a < 64 ∧ n < 64)
  | .sari d a n => decide (d < 64 ∧ a < 64 ∧ n < 64)
  | .rotli d a n => decide (d < 64 ∧ a < 64 ∧ n < 64)
  | .slti d a i => decide (d < 64 ∧ a < 64 ∧ i < 16384)
  | .sltin d a i => decide (d < 64 ∧ a < 64 ∧ i < 16384)
  | .lui d i => decide (d < 64 ∧ i < 1048576)
  | .addpc d i => decide (d < 64 ∧ i < 1048576)
  | .bz a p => decide (a < 64 ∧ p < 131072)
  | .bnz a p => decide (a < 64 ∧ p < 131072)
  | .bltz a p => decide (a < 64 ∧ p < 131072)
  | .bgez a p => decide (a < 64 ∧ p < 131072)
  | .bgtz a p => decide (a < 64 ∧ p < 131072)
  | .blez a p => decide (a < 64 ∧ p < 131072)
  | .j p => decide (p < 67108864)
  | .jl p => decide (p < 67108864)
  | .jx a b => decide (a < 64 ∧ b < 64)
  | .callx a b => decide (a < 64 ∧ b < 64)
  | .ret => true
  | .jt d a b => decide (d < 64 ∧ a < 64 ∧ b < 64)
  | .pad l => decide (l < 1048576)
  | .rpt l c x y z => decide (l < 16 ∧ c < 64 ∧ x < 8 ∧ y < 8 ∧ z < 8)
  | .tid d => decide (d < 64)
  | .tgrp d => decide (d < 64)
  | .texit a => decide (a < 64)
  | .launch d a x e => decide (d < 64 ∧ a < 64 ∧ x < 2 ∧ e < 32)
  | .lb d b o f => decide (d < 64 ∧ b < 64 ∧ o < 4 ∧ f < 512)
  | .lbn d b o f => decide (d < 64 ∧ b < 64 ∧ o < 4 ∧ f < 512)
  | .lh d b o f => decide (d < 64 ∧ b < 64 ∧ o < 4 ∧ f < 512)
  | .lhn d b o f => decide (d < 64 ∧ b < 64 ∧ o < 4 ∧ f < 512)
  | .lw d b o f => decide (d < 64 ∧ b < 64 ∧ o < 4 ∧ f < 512)
  | .lwn d b o f => decide (d < 64 ∧ b < 64 ∧ o < 4 ∧ f < 512)
  | .ld d b o f => decide (d < 64 ∧ b < 64 ∧ o < 4 ∧ f < 512)
  | .ldp d b o f => decide (d < 64 ∧ b < 64 ∧ o < 4 ∧ f < 512)
  | .stb d b o f => decide (d < 64 ∧ b < 64 ∧ o < 4 ∧ f < 512)
  | .sth d b o f => decide (d < 64 ∧ b < 64 ∧ o < 4 ∧ f < 512)
  | .stw d b o f => decide (d < 64 ∧ b < 64 ∧ o < 4 ∧ f < 512)
  | .std d b o f => decide (d < 64 ∧ b < 64 ∧ o < 4 ∧ f < 512)
  | .stp d b o f => decide (d < 64 ∧ b < 64 ∧ o < 4 ∧ f < 512)
  | .ldx d a b o s w => decide (d < 64 ∧ a < 64 ∧ b < 64 ∧ o < 4 ∧ s < 2 ∧ w < 8)
  | .stx d a b o s w => decide (d < 64 ∧ a < 64 ∧ b < 64 ∧ o < 4 ∧ s < 2 ∧ w < 8)
  | .fence s => decide (s < 8)
  | .fenceAcq s => decide (s < 8)
  | .fenceRel s => decide (s < 8)
  | .fenceSs s => decide (s < 8)
  | .aadd d a b o w => decide (d < 64 ∧ a < 64 ∧ b < 64 ∧ o < 4 ∧ w < 2)
  | .aand d a b o w => decide (d < 64 ∧ a < 64 ∧ b < 64 ∧ o < 4 ∧ w < 2)
  | .aor d a b o w => decide (d < 64 ∧ a < 64 ∧ b < 64 ∧ o < 4 ∧ w < 2)
  | .axor d a b o w => decide (d < 64 ∧ a < 64 ∧ b < 64 ∧ o < 4 ∧ w < 2)
  | .amin d a b o w => decide (d < 64 ∧ a < 64 ∧ b < 64 ∧ o < 4 ∧ w < 2)
  | .amax d a b o w => decide (d < 64 ∧ a < 64 ∧ b < 64 ∧ o < 4 ∧ w < 2)
  | .aminn d a b o w => decide (d < 64 ∧ a < 64 ∧ b < 64 ∧ o < 4 ∧ w < 2)
  | .amaxn d a b o w => decide (d < 64 ∧ a < 64 ∧ b < 64 ∧ o < 4 ∧ w < 2)
  | .aswp d a b o w => decide (d < 64 ∧ a < 64 ∧ b < 64 ∧ o < 4 ∧ w < 2)
  | .acas d a b o w => decide (d < 64 ∧ a < 64 ∧ b < 64 ∧ o < 4 ∧ w < 2)
  | .afadd d a b o w => decide (d < 64 ∧ a < 64 ∧ b < 64 ∧ o < 4 ∧ w < 2)
  | .afmin d a b o w => decide (d < 64 ∧ a < 64 ∧ b < 64 ∧ o < 4 ∧ w < 2)
  | .afmax d a b o w => decide (d < 64 ∧ a < 64 ∧ b < 64 ∧ o < 4 ∧ w < 2)
  | .acas2 d a b o => decide (d < 64 ∧ a < 64 ∧ b < 64 ∧ o < 4)
  | .btag b => decide (b < 64)
  | .bclose e a b => decide (e < 32 ∧ a < 64 ∧ b < 64)
  | .rappend e a b => decide (e < 32 ∧ a < 64 ∧ b < 64)
  | .vadd d a b k w => decide (d < 32 ∧ a < 32 ∧ b < 32 ∧ k < 8 ∧ w < 4)
  | .vsub d a b k w => decide (d < 32 ∧ a < 32 ∧ b < 32 ∧ k < 8 ∧ w < 4)
  | .vmul d a b k w => decide (d < 32 ∧ a < 32 ∧ b < 32 ∧ k < 8 ∧ w < 4)
  | .vmulh d a b k w => decide (d < 32 ∧ a < 32 ∧ b < 32 ∧ k < 8 ∧ w < 4)
  | .vmin d a b k w => decide (d < 32 ∧ a < 32 ∧ b < 32 ∧ k < 8 ∧ w < 4)
  | .vmax d a b k w => decide (d < 32 ∧ a < 32 ∧ b < 32 ∧ k < 8 ∧ w < 4)
  | .vminn d a b k w => decide (d < 32 ∧ a < 32 ∧ b < 32 ∧ k < 8 ∧ w < 4)
  | .vmaxn d a b k w => decide (d < 32 ∧ a < 32 ∧ b < 32 ∧ k < 8 ∧ w < 4)
  | .vand d a b k w => decide (d < 32 ∧ a < 32 ∧ b < 32 ∧ k < 8 ∧ w < 4)
  | .vor d a b k w => decide (d < 32 ∧ a < 32 ∧ b < 32 ∧ k < 8 ∧ w < 4)
  | .vxor d a b k w => decide (d < 32 ∧ a < 32 ∧ b < 32 ∧ k < 8 ∧ w < 4)
  | .vandn d a b k w => decide (d < 32 ∧ a < 32 ∧ b < 32 ∧ k < 8 ∧ w < 4)
  | .vshl d a b k w => decide (d < 32 ∧ a < 32 ∧ b < 32 ∧ k < 8 ∧ w < 4)
  | .vshr d a b k w => decide (d < 32 ∧ a < 32 ∧ b < 32 ∧ k < 8 ∧ w < 4)
  | .vsar d a b k w => decide (d < 32 ∧ a < 32 ∧ b < 32 ∧ k < 8 ∧ w < 4)
  | .vabs d a k w => decide (d < 32 ∧ a < 32 ∧ k < 8 ∧ w < 4)
  | .vneg d a k w => decide (d < 32 ∧ a < 32 ∧ k < 8 ∧ w < 4)
  | .vpopc d a k w => decide (d < 32 ∧ a < 32 ∧ k < 8 ∧ w < 4)
  | .vfadd d a b k => decide (d < 32 ∧ a < 32 ∧ b < 32 ∧ k < 8)
  | .vfsub d a b k => decide (d < 32 ∧ a < 32 ∧ b < 32 ∧ k < 8)
  | .vfmul d a b k => decide (d < 32 ∧ a < 32 ∧ b < 32 ∧ k < 8)
  | .vfmin d a b k => decide (d < 32 ∧ a < 32 ∧ b < 32 ∧ k < 8)
  | .vfmax d a b k => decide (d < 32 ∧ a < 32 ∧ b < 32 ∧ k < 8)
  | .vfabs d a k => decide (d < 32 ∧ a < 32 ∧ k < 8)
  | .vfneg d a k => decide (d < 32 ∧ a < 32 ∧ k < 8)
  | .vfma d a b c k => decide (d < 32 ∧ a < 32 ∧ b < 32 ∧ c < 32 ∧ k < 8)
  | .vfms d a b c k => decide (d < 32 ∧ a < 32 ∧ b < 32 ∧ c < 32 ∧ k < 8)
  | .vfnma d a b c k => decide (d < 32 ∧ a < 32 ∧ b < 32 ∧ c < 32 ∧ k < 8)
  | .vfnms d a b c k => decide (d < 32 ∧ a < 32 ∧ b < 32 ∧ c < 32 ∧ k < 8)
  | .vmadd d a b c k => decide (d < 32 ∧ a < 32 ∧ b < 32 ∧ c < 32 ∧ k < 8)
  | .vmsub d a b c k => decide (d < 32 ∧ a < 32 ∧ b < 32 ∧ c < 32 ∧ k < 8)
  | .vcmpi d a b k w n => decide (d < 8 ∧ a < 32 ∧ b < 32 ∧ k < 8 ∧ w < 4 ∧ n < 8)
  | .vcmpf d a b k n => decide (d < 8 ∧ a < 32 ∧ b < 32 ∧ k < 8 ∧ n < 8)
  | .vsel d a b k w => decide (d < 32 ∧ a < 32 ∧ b < 32 ∧ k < 8 ∧ w < 4)
  | .vred d a b k w o => decide (d < 32 ∧ a < 32 ∧ b < 32 ∧ k < 8 ∧ w < 4 ∧ o < 8)
  | .vscan d a b k w o => decide (d < 32 ∧ a < 32 ∧ b < 32 ∧ k < 8 ∧ w < 4 ∧ o < 8)
  | .vperm d a b k w => decide (d < 32 ∧ a < 32 ∧ b < 32 ∧ k < 8 ∧ w < 4)
  | .vbcast d a k w h => decide (d < 32 ∧ a < 32 ∧ k < 8 ∧ w < 4 ∧ h < 2)
  | .vgetl d a l w h => decide (d < 32 ∧ a < 32 ∧ l < 32 ∧ w < 4 ∧ h < 2)
  | .vsetl d a l w h => decide (d < 32 ∧ a < 32 ∧ l < 32 ∧ w < 4 ∧ h < 2)
  | .vslideDn d a n k w => decide (d < 32 ∧ a < 32 ∧ n < 32 ∧ k < 8 ∧ w < 4)
  | .vslideUp d a n k w => decide (d < 32 ∧ a < 32 ∧ n < 32 ∧ k < 8 ∧ w < 4)
  | .viota d k w => decide (d < 32 ∧ k < 8 ∧ w < 4)
  | .viotaCnt d k w => decide (d < 32 ∧ k < 8 ∧ w < 4)
  | .vcvt d a k p => decide (d < 32 ∧ a < 32 ∧ k < 8 ∧ p < 8)
  | .vquant d a p => decide (d < 32 ∧ a < 32 ∧ p < 8)
  | .vdeq d a k p => decide (d < 32 ∧ a < 32 ∧ k < 8 ∧ p < 8)
  | .vdec d a k p => decide (d < 32 ∧ a < 32 ∧ k < 8 ∧ p < 8)
  | .venc d a k p => decide (d < 32 ∧ a < 32 ∧ k < 8 ∧ p < 8)
  | .vbadd d a b => decide (d < 32 ∧ a < 32 ∧ b < 32)
  | .tblld s t a b h => decide (s < 16 ∧ t < 2 ∧ a < 32 ∧ b < 32 ∧ h < 2)
  | .vrcp d a k => decide (d < 32 ∧ a < 32 ∧ k < 8)
  | .vrsq d a k => decide (d < 32 ∧ a < 32 ∧ k < 8)
  | .vexp2 d a k => decide (d < 32 ∧ a < 32 ∧ k < 8)
  | .vlog2 d a k => decide (d < 32 ∧ a < 32 ∧ k < 8)
  | .vsqrt d a k => decide (d < 32 ∧ a < 32 ∧ k < 8)
  | .vdiv d a b k => decide (d < 32 ∧ a < 32 ∧ b < 32 ∧ k < 8)
  | .kand d a b => decide (d < 8 ∧ a < 8 ∧ b < 8)
  | .kor d a b => decide (d < 8 ∧ a < 8 ∧ b < 8)
  | .kxor d a b => decide (d < 8 ∧ a < 8 ∧ b < 8)
  | .knot d a => decide (d < 8 ∧ a < 8)
  | .kmov d a => decide (d < 8 ∧ a < 8)
  | .kpopc d a w h => decide (d < 32 ∧ a < 8 ∧ w < 4 ∧ h < 2)
  | .kfirst d a w h => decide (d < 32 ∧ a < 8 ∧ w < 4 ∧ h < 2)
  | .vld v b x k o w => decide (v < 32 ∧ b < 64 ∧ x < 64 ∧ k < 8 ∧ o < 4 ∧ w < 4)
  | .vlds v b x k o w => decide (v < 32 ∧ b < 64 ∧ x < 64 ∧ k < 8 ∧ o < 4 ∧ w < 4)
  | .vldx v b x k o w => decide (v < 32 ∧ b < 64 ∧ x < 32 ∧ k < 8 ∧ o < 4 ∧ w < 4)
  | .vldb v b x k o w => decide (v < 32 ∧ b < 64 ∧ x < 64 ∧ k < 8 ∧ o < 4 ∧ w < 4)
  | .vst v b x k o w => decide (v < 32 ∧ b < 64 ∧ x < 64 ∧ k < 8 ∧ o < 4 ∧ w < 4)
  | .vsts v b x k o w => decide (v < 32 ∧ b < 64 ∧ x < 64 ∧ k < 8 ∧ o < 4 ∧ w < 4)
  | .vstx v b x k o w => decide (v < 32 ∧ b < 64 ∧ x < 32 ∧ k < 8 ∧ o < 4 ∧ w < 4)
  | .mlease e => decide (e < 32)
  | .mfree => true
  | .mring a n => decide (a < 64 ∧ n < 16)
  | .mrpub d a n => decide (d < 64 ∧ a < 64 ∧ n < 16)
  | .mrpop d a n => decide (d < 64 ∧ a < 64 ∧ n < 16)
  | .mma x e r c s => decide (x < 2 ∧ e < 32 ∧ r < 16 ∧ c < 4 ∧ s < 16)
  | .mmah x e r c s => decide (x < 2 ∧ e < 32 ∧ r < 16 ∧ c < 4 ∧ s < 16)
  | .mzero x e c => decide (x < 2 ∧ e < 32 ∧ c < 4)
  | .mlda x e c b => decide (x < 2 ∧ e < 32 ∧ c < 4 ∧ b < 64)
  | .msta x e c b => decide (x < 2 ∧ e < 32 ∧ c < 4 ∧ b < 64)
  | .mscale x e a => decide (x < 2 ∧ e < 32 ∧ a < 64)
  | .msplit x e a b => decide (x < 2 ∧ e < 32 ∧ a < 64 ∧ b < 64)
  | .msmm x e a b => decide (x < 2 ∧ e < 32 ∧ a < 64 ∧ b < 64)
  | .msfin x e a b => decide (x < 2 ∧ e < 32 ∧ a < 64 ∧ b < 64)
  | .sbind x e a r => decide (x < 2 ∧ e < 32 ∧ a < 64 ∧ r < 8)
  | .sfree r => decide (r < 8)
  | .sstat d r => decide (d < 64 ∧ r < 8)
  | .srd v r => decide (v < 32 ∧ r < 8)
  | .swr v r => decide (v < 32 ∧ r < 8)
  | .cpy x e a q => decide (x < 2 ∧ e < 32 ∧ a < 64 ∧ q < 4)
  | .cpys x e a q => decide (x < 2 ∧ e < 32 ∧ a < 64 ∧ q < 4)
  | .cpyg x e a q => decide (x < 2 ∧ e < 32 ∧ a < 64 ∧ q < 4)
  | .cpym x e a q => decide (x < 2 ∧ e < 32 ∧ a < 64 ∧ q < 4)
  | .evnew d a => decide (d < 64 ∧ a < 64)
  | .evfree a => decide (a < 64)
  | .evbind e a => decide (e < 32 ∧ a < 64)
  | .evdrop e => decide (e < 32)
  | .evbreak e => decide (e < 32)
  | .evstat d e => decide (d < 64 ∧ e < 32)
  | .offer d a b => decide (d < 64 ∧ a < 64 ∧ b < 64)
  | .offert d a b => decide (d < 64 ∧ a < 64 ∧ b < 64)
  | .offers d a b => decide (d < 64 ∧ a < 64 ∧ b < 64)
  | .ofcan d => decide (d < 64)
  | .ofcanRet => true
  | .get d e => decide (d < 64 ∧ e < 32)
  | .put d e => decide (d < 64 ∧ e < 32)
  | .sync d => decide (d < 64)
  | .eqp => true
  | .chfold d => decide (d < 64)
  | .chspread d => decide (d < 64)
  | .chstat d => decide (d < 64)
  | .ccenrol d a b => decide (d < 64 ∧ a < 64 ∧ b < 64)
  | .ccdrop d a => decide (d < 64 ∧ a < 64)
  | .ccmove d a b => decide (d < 64 ∧ a < 64 ∧ b < 64)
  | .ccsettle x e a => decide (x < 2 ∧ e < 32 ∧ a < 64)
  | .ccread d a => decide (d < 64 ∧ a < 64)
  | .ccreadT d a => decide (d < 64 ∧ a < 64)
  | .cccmp d a b => decide (d < 64 ∧ a < 64 ∧ b < 64)
  | .fmtp a b r m s => decide (a < 16 ∧ b < 16 ∧ r < 16 ∧ m < 4 ∧ s < 16)
  | .taskRetirement slot => decide (slot < 8384)
  | .loadDataReturn slot st _ => decide (slot < 8384 ∧ st < 256)
  | .fenceDrainEnd slot => decide (slot < 8384)
  | .icinvDone slot => decide (slot < 8384)
  | .heldRecordPost die _ => decide (die < 4)
  | .preempt slot => decide (slot < 8384)
  | .taskDispatch _ => true
  | .taskRedispatch _ => true
  | .chainSwitch vi id => decide (vi < 64 ∧ id < 4294967296)
  | .leaseGrantOffer cl => decide (cl < 128)
  | .leaseOfferTimeout cl => decide (cl < 128)
  | .leaseExpiry cl => decide (cl < 128)
  | .mxeCommandExecute cl => decide (cl < 128)
  | .msmmPass cl => decide (cl < 128)
  | .msmmBlockReserve cl => decide (cl < 128)
  | .copyExecute cl q _ => decide (cl < 128 ∧ q < 4)
  | .ringPush cl q => decide (cl < 128 ∧ q < 1028)
  | .copyComplete cl q => decide (cl < 128 ∧ q < 4)
  | .streamBeat slot r => decide (slot < 8384 ∧ r < 6)
  | .streamComplete slot r => decide (slot < 8384 ∧ r < 6)
  | .offerRegistration _ => true
  | .resolverWindow home => decide (home < 133)
  | .claim _ => true
  | .claimAnswer _ => true
  | .claimRevoke _ => true
  | .claimRelease _ => true
  | .commitNotify _ => true
  | .freeAnnounce _ => true
  | .offertExpiry slot => decide (slot < 8384)
  | .handlerEntry slot => decide (slot < 8384)
  | .settleComplete slot _ => decide (slot < 8384)
  | .rollup vi => decide (vi < 64)
  | .batchSummary slot tag _ => decide (slot < 8384 ∧ tag < 4)
  | .closeRequest vi _ => decide (vi < 64)
  | .appendStatus slot _ st _ => decide (slot < 8384 ∧ st < 256)
  | .atomicReply slot st _ flags => decide (slot < 8384 ∧ st < 256 ∧ flags < 32)
  | .ingressDequeue vi cls => decide (vi < 64 ∧ cls < 6)
  | .remoteAppend vi => decide (vi < 64)
  | .pubPublish ring => decide (ring < 8192)
  | .arrivalRecord ring => decide (ring < 8192)
  | .ringLaunchRecord ring => decide (ring < 8192)
  | .arrivalRingRelease ring => decide (ring < 8192)
  | .hostLaunch vi => decide (vi < 64)
  | .hostCancel vi => decide (vi < 64)
  | .completionEntryPost vi => decide (vi < 64)
  | .launchCompletion vi id => decide (vi < 64 ∧ id < 4294967296)
  | .tencfgWrite vi x => decide (vi < 64 ∧ x < 18446744073709551616)
  | .registrationWrite ring j x => decide (ring < 8192 ∧ j < 4 ∧ x < 18446744073709551616)
  | .mscrWrite die x => decide (die < 4 ∧ x < 18446744073709551616)
  | .atomflagsClear die vi x => decide (die < 4 ∧ vi < 64 ∧ x < 18446744073709551616)
  | .smdataWrite x => decide (x < 18446744073709551616)
  | .smdataRead => true
  | .invalidateRange => true
  | .invalidateSpace => true
  | .invalidateAll => true
  | .invalidationAck => true
  | .attestationReport vi => decide (vi < 64)
  | .pstateRequest die => decide (die < 4)
  | .cstateC0 cl => decide (cl < 128)
  | .cstateC1 cl => decide (cl < 128)
  | .cstateC2 cl => decide (cl < 128)
  | .dieC3 die => decide (die < 4)
  | .dieC0 die => decide (die < 4)
  | .thermalTrip die t => decide (die < 4 ∧ t < 256)
  | .thermalShutdown die t => decide (die < 4 ∧ t < 256)
  | .pminApply port => decide (port < 18)
  | .flitReceive port _ => decide (port < 18)
  | .linkReplay port _ => decide (port < 18)
  | .portTrained port => decide (port < 18)
  | .nodeLoss node => decide (node < 4096)
  | .functionLevelReset vi => decide (vi < 64)
  | .packageReset verified => decide (verified < 2)
  | .scAnnouncement _ => true
  | .ueSend q => decide (q < 1024)
  | .ueWrite q => decide (q < 1024)
  | .ueRead q => decide (q < 1024)
  | .ueCompletion q _ st _ => decide (q < 1024 ∧ st < 256)
  | .ueSendArrival ep _ => decide (ep < 4096)
  | .registerWrite off x => decide (off < 2097152 ∧ x < 18446744073709551616)
  | .storeBufferDrain slot _ => decide (slot < 8384)
  | .treeOperationResult slot => decide (slot < 8384)
  | .uncorrectableError _ => true
  | .laneTrainingLost die lane => decide (die < 4 ∧ lane < 36)
  | .hostMemoryWrite _ _ => true
  | .ueWriteArrival _ _ _ => true
  | .ueReadArrival _ _ _ => true
  | .ueRetransmission q _ => decide (q < 1024)

end Sys2Proof
end

