-- ==== Sys2Proof/Decode.lean ====
section
/-!
DEFINITION. The decoder of an instruction word, total on every word and every list of bytes, and the encoder after it
(04 R56, R60 to R64; the majors of R63, the layouts of the families' entries). A word that no entry allocates is
rejected by name, and the machine then raises ILLEGAL (R64).

Readings and choices of the model (log): DESIGN CHOICE 143, 150.
-/

namespace Sys2Proof

/-- Why a word is no instruction: its major is marked ILLEGAL (R63), its func, cond, shift kind or width code is
unallocated, or a field that its entry shows as zero is not zero (R64, R5). -/
inductive Reject where
  | major
  | func
  | field
  deriving DecidableEq, Repr

/-- Words of major 0x00. -/
def decSys (w : Nat) : Except Reject Instr :=
  match bits w 7 0 with
  | 1 => if bits w 25 8 = 0 then .ok (.nop) else .error .field
  | 2 => .ok (.trap (bits w 25 20) (bits w 19 14) (bits w 13 8))
  | 3 => if bits w 25 8 = 0 then .ok (.eret) else .error .field
  | 4 => .ok (.icinv (bits w 25 20) (bits w 19 14) (bits w 13 8))
  | 5 => if bits w 25 8 = 0 then .ok (.brk) else .error .field
  | 6 => if bits w 19 14 = 0 then .ok (.csrr (bits w 25 20) (bits w 13 8)) else .error .field
  | 7 => .ok (.csrw (bits w 25 20) (bits w 19 14) (bits w 13 8))
  | 8 => .ok (.csrs (bits w 25 20) (bits w 19 14) (bits w 13 8))
  | 9 => .ok (.csrc (bits w 25 20) (bits w 19 14) (bits w 13 8))
  | 10 => if bits w 25 14 = 0 then .ok (.ctxsave (bits w 13 8)) else .error .field
  | 11 => if bits w 25 8 = 0 then .ok (.ctxrest) else .error .field
  | 12 => .ok (.svcreply (bits w 25 20) (bits w 19 14) (bits w 13 8))
  | 13 => if bits w 25 20 = 0 ∧ bits w 13 8 = 0 then .ok (.gstopPartition (bits w 19 14)) else if bits w 25 20 = 0 ∧ bits w 13 8 = 1 then .ok (.gstopPackage (bits w 19 14)) else if bits w 25 20 = 0 ∧ bits w 13 8 = 2 then .ok (.gstopResume (bits w 19 14)) else .error .field
  | _ => .error .func

/-- Words of major 0x01. -/
def decAlu (w : Nat) : Except Reject Instr :=
  match bits w 7 0 with
  | 0 => .ok (.add (bits w 25 20) (bits w 19 14) (bits w 13 8))
  | 1 => .ok (.sub (bits w 25 20) (bits w 19 14) (bits w 13 8))
  | 2 => .ok (.mul (bits w 25 20) (bits w 19 14) (bits w 13 8))
  | 3 => .ok (.mulh (bits w 25 20) (bits w 19 14) (bits w 13 8))
  | 4 => .ok (.mulhn (bits w 25 20) (bits w 19 14) (bits w 13 8))
  | 5 => .ok (.div (bits w 25 20) (bits w 19 14) (bits w 13 8))
  | 6 => .ok (.divn (bits w 25 20) (bits w 19 14) (bits w 13 8))
  | 7 => .ok (.rem (bits w 25 20) (bits w 19 14) (bits w 13 8))
  | 8 => .ok (.remn (bits w 25 20) (bits w 19 14) (bits w 13 8))
  | 9 => .ok (.and (bits w 25 20) (bits w 19 14) (bits w 13 8))
  | 10 => .ok (.or (bits w 25 20) (bits w 19 14) (bits w 13 8))
  | 11 => .ok (.xor (bits w 25 20) (bits w 19 14) (bits w 13 8))
  | 12 => .ok (.andn (bits w 25 20) (bits w 19 14) (bits w 13 8))
  | 13 => .ok (.shl (bits w 25 20) (bits w 19 14) (bits w 13 8))
  | 14 => .ok (.shr (bits w 25 20) (bits w 19 14) (bits w 13 8))
  | 15 => .ok (.sar (bits w 25 20) (bits w 19 14) (bits w 13 8))
  | 16 => .ok (.rotl (bits w 25 20) (bits w 19 14) (bits w 13 8))
  | 17 => .ok (.min (bits w 25 20) (bits w 19 14) (bits w 13 8))
  | 18 => .ok (.max (bits w 25 20) (bits w 19 14) (bits w 13 8))
  | 19 => .ok (.minn (bits w 25 20) (bits w 19 14) (bits w 13 8))
  | 20 => .ok (.maxn (bits w 25 20) (bits w 19 14) (bits w 13 8))
  | 21 => .ok (.seq (bits w 25 20) (bits w 19 14) (bits w 13 8))
  | 22 => .ok (.sne (bits w 25 20) (bits w 19 14) (bits w 13 8))
  | 23 => .ok (.slt (bits w 25 20) (bits w 19 14) (bits w 13 8))
  | 24 => .ok (.sltn (bits w 25 20) (bits w 19 14) (bits w 13 8))
  | 25 => .ok (.sle (bits w 25 20) (bits w 19 14) (bits w 13 8))
  | 26 => .ok (.slen (bits w 25 20) (bits w 19 14) (bits w 13 8))
  | 27 => .ok (.sel (bits w 25 20) (bits w 19 14) (bits w 13 8))
  | 28 => if bits w 13 8 = 0 then .ok (.clz (bits w 25 20) (bits w 19 14)) else .error .field
  | 29 => if bits w 13 8 = 0 then .ok (.ctz (bits w 25 20) (bits w 19 14)) else .error .field
  | 30 => if bits w 13 8 = 0 then .ok (.popc (bits w 25 20) (bits w 19 14)) else .error .field
  | 31 => .ok (.sext (bits w 25 20) (bits w 19 14) (bits w 13 8))
  | 32 => .ok (.ext (bits w 25 20) (bits w 19 14) (bits w 13 8))
  | 33 => .ok (.ins (bits w 25 20) (bits w 19 14) (bits w 13 8))
  | _ => .error .func

/-- Words of major 0x06. -/
def decShiftImm (w : Nat) : Except Reject Instr :=
  match bits w 13 12 with
  | 0 => if bits w 11 6 = 0 then .ok (.shli (bits w 25 20) (bits w 19 14) (bits w 5 0)) else .error .field
  | 1 => if bits w 11 6 = 0 then .ok (.shri (bits w 25 20) (bits w 19 14) (bits w 5 0)) else .error .field
  | 2 => if bits w 11 6 = 0 then .ok (.sari (bits w 25 20) (bits w 19 14) (bits w 5 0)) else .error .field
  | 3 => if bits w 11 6 = 0 then .ok (.rotli (bits w 25 20) (bits w 19 14) (bits w 5 0)) else .error .field
  | _ => .error .func

/-- Words of major 0x0B. -/
def decBranch (w : Nat) : Except Reject Instr :=
  match bits w 25 23 with
  | 0 => .ok (.bz (bits w 22 17) (bits w 16 0))
  | 1 => .ok (.bnz (bits w 22 17) (bits w 16 0))
  | 2 => .ok (.bltz (bits w 22 17) (bits w 16 0))
  | 3 => .ok (.bgez (bits w 22 17) (bits w 16 0))
  | 4 => .ok (.bgtz (bits w 22 17) (bits w 16 0))
  | 5 => .ok (.blez (bits w 22 17) (bits w 16 0))
  | _ => .error .func

/-- Words of major 0x0E. -/
def decTransfer (w : Nat) : Except Reject Instr :=
  match bits w 7 0 with
  | 0 => if bits w 25 20 = 0 then .ok (.jx (bits w 19 14) (bits w 13 8)) else .error .field
  | 1 => if bits w 25 20 = 0 then .ok (.callx (bits w 19 14) (bits w 13 8)) else .error .field
  | 2 => if bits w 25 8 = 0 then .ok (.ret) else .error .field
  | 3 => .ok (.jt (bits w 25 20) (bits w 19 14) (bits w 13 8))
  | _ => .error .func

/-- Words of major 0x11. -/
def decTask (w : Nat) : Except Reject Instr :=
  match bits w 7 0 with
  | 0 => if bits w 19 8 = 0 then .ok (.tid (bits w 25 20)) else .error .field
  | 1 => if bits w 19 8 = 0 then .ok (.tgrp (bits w 25 20)) else .error .field
  | 2 => if bits w 25 20 = 0 ∧ bits w 13 8 = 0 then .ok (.texit (bits w 19 14)) else .error .field
  | 3 => .ok (.launch (bits w 25 20) (bits w 19 14) (bits w 13 13) (bits w 12 8))
  | _ => .error .func

/-- Words of major 0x12. -/
def decLoad (w : Nat) : Except Reject Instr :=
  match bits w 11 9 with
  | 0 => .ok (.lb (bits w 25 20) (bits w 19 14) (bits w 13 12) (bits w 8 0))
  | 1 => .ok (.lbn (bits w 25 20) (bits w 19 14) (bits w 13 12) (bits w 8 0))
  | 2 => .ok (.lh (bits w 25 20) (bits w 19 14) (bits w 13 12) (bits w 8 0))
  | 3 => .ok (.lhn (bits w 25 20) (bits w 19 14) (bits w 13 12) (bits w 8 0))
  | 4 => .ok (.lw (bits w 25 20) (bits w 19 14) (bits w 13 12) (bits w 8 0))
  | 5 => .ok (.lwn (bits w 25 20) (bits w 19 14) (bits w 13 12) (bits w 8 0))
  | 6 => .ok (.ld (bits w 25 20) (bits w 19 14) (bits w 13 12) (bits w 8 0))
  | 7 => .ok (.ldp (bits w 25 20) (bits w 19 14) (bits w 13 12) (bits w 8 0))
  | _ => .error .func

/-- Words of major 0x13. -/
def decStore (w : Nat) : Except Reject Instr :=
  match bits w 11 9 with
  | 0 => .ok (.stb (bits w 25 20) (bits w 19 14) (bits w 13 12) (bits w 8 0))
  | 2 => .ok (.sth (bits w 25 20) (bits w 19 14) (bits w 13 12) (bits w 8 0))
  | 4 => .ok (.stw (bits w 25 20) (bits w 19 14) (bits w 13 12) (bits w 8 0))
  | 6 => .ok (.std (bits w 25 20) (bits w 19 14) (bits w 13 12) (bits w 8 0))
  | 7 => .ok (.stp (bits w 25 20) (bits w 19 14) (bits w 13 12) (bits w 8 0))
  | _ => .error .func

/-- Words of major 0x16. -/
def decFence (w : Nat) : Except Reject Instr :=
  match bits w 5 3 with
  | 0 => if bits w 25 6 = 0 then .ok (.fence (bits w 2 0)) else .error .field
  | 1 => if bits w 25 6 = 0 then .ok (.fenceAcq (bits w 2 0)) else .error .field
  | 2 => if bits w 25 6 = 0 then .ok (.fenceRel (bits w 2 0)) else .error .field
  | 3 => if bits w 25 6 = 0 then .ok (.fenceSs (bits w 2 0)) else .error .field
  | _ => .error .func

/-- Words of major 0x17. -/
def decAtom (w : Nat) : Except Reject Instr :=
  match bits w 3 0 with
  | 0 => if bits w 7 7 = 0 then .ok (.aadd (bits w 25 20) (bits w 19 14) (bits w 13 8) (bits w 6 5) (bits w 4 4)) else .error .field
  | 1 => if bits w 7 7 = 0 then .ok (.aand (bits w 25 20) (bits w 19 14) (bits w 13 8) (bits w 6 5) (bits w 4 4)) else .error .field
  | 2 => if bits w 7 7 = 0 then .ok (.aor (bits w 25 20) (bits w 19 14) (bits w 13 8) (bits w 6 5) (bits w 4 4)) else .error .field
  | 3 => if bits w 7 7 = 0 then .ok (.axor (bits w 25 20) (bits w 19 14) (bits w 13 8) (bits w 6 5) (bits w 4 4)) else .error .field
  | 4 => if bits w 7 7 = 0 then .ok (.amin (bits w 25 20) (bits w 19 14) (bits w 13 8) (bits w 6 5) (bits w 4 4)) else .error .field
  | 5 => if bits w 7 7 = 0 then .ok (.amax (bits w 25 20) (bits w 19 14) (bits w 13 8) (bits w 6 5) (bits w 4 4)) else .error .field
  | 6 => if bits w 7 7 = 0 then .ok (.aminn (bits w 25 20) (bits w 19 14) (bits w 13 8) (bits w 6 5) (bits w 4 4)) else .error .field
  | 7 => if bits w 7 7 = 0 then .ok (.amaxn (bits w 25 20) (bits w 19 14) (bits w 13 8) (bits w 6 5) (bits w 4 4)) else .error .field
  | 8 => if bits w 7 7 = 0 then .ok (.aswp (bits w 25 20) (bits w 19 14) (bits w 13 8) (bits w 6 5) (bits w 4 4)) else .error .field
  | 9 => if bits w 7 7 = 0 then .ok (.acas (bits w 25 20) (bits w 19 14) (bits w 13 8) (bits w 6 5) (bits w 4 4)) else .error .field
  | 10 => if bits w 7 7 = 0 then .ok (.afadd (bits w 25 20) (bits w 19 14) (bits w 13 8) (bits w 6 5) (bits w 4 4)) else .error .field
  | 11 => if bits w 7 7 = 0 then .ok (.afmin (bits w 25 20) (bits w 19 14) (bits w 13 8) (bits w 6 5) (bits w 4 4)) else .error .field
  | 12 => if bits w 7 7 = 0 then .ok (.afmax (bits w 25 20) (bits w 19 14) (bits w 13 8) (bits w 6 5) (bits w 4 4)) else .error .field
  | _ => .error .func

/-- Words of major 0x19. -/
def decRemote (w : Nat) : Except Reject Instr :=
  match bits w 7 0 with
  | 0 => if bits w 25 14 = 0 then .ok (.btag (bits w 13 8)) else .error .field
  | 1 => if bits w 25 25 = 0 then .ok (.bclose (bits w 24 20) (bits w 19 14) (bits w 13 8)) else .error .field
  | 2 => if bits w 25 25 = 0 then .ok (.rappend (bits w 24 20) (bits w 19 14) (bits w 13 8)) else .error .field
  | _ => .error .func

/-- Words of major 0x20. -/
def decVInt (w : Nat) : Except Reject Instr :=
  match bits w 5 0 with
  | 0 => .ok (.vadd (bits w 25 21) (bits w 20 16) (bits w 15 11) (bits w 10 8) (bits w 7 6))
  | 1 => .ok (.vsub (bits w 25 21) (bits w 20 16) (bits w 15 11) (bits w 10 8) (bits w 7 6))
  | 2 => .ok (.vmul (bits w 25 21) (bits w 20 16) (bits w 15 11) (bits w 10 8) (bits w 7 6))
  | 3 => .ok (.vmulh (bits w 25 21) (bits w 20 16) (bits w 15 11) (bits w 10 8) (bits w 7 6))
  | 4 => .ok (.vmin (bits w 25 21) (bits w 20 16) (bits w 15 11) (bits w 10 8) (bits w 7 6))
  | 5 => .ok (.vmax (bits w 25 21) (bits w 20 16) (bits w 15 11) (bits w 10 8) (bits w 7 6))
  | 6 => .ok (.vminn (bits w 25 21) (bits w 20 16) (bits w 15 11) (bits w 10 8) (bits w 7 6))
  | 7 => .ok (.vmaxn (bits w 25 21) (bits w 20 16) (bits w 15 11) (bits w 10 8) (bits w 7 6))
  | 8 => .ok (.vand (bits w 25 21) (bits w 20 16) (bits w 15 11) (bits w 10 8) (bits w 7 6))
  | 9 => .ok (.vor (bits w 25 21) (bits w 20 16) (bits w 15 11) (bits w 10 8) (bits w 7 6))
  | 10 => .ok (.vxor (bits w 25 21) (bits w 20 16) (bits w 15 11) (bits w 10 8) (bits w 7 6))
  | 11 => .ok (.vandn (bits w 25 21) (bits w 20 16) (bits w 15 11) (bits w 10 8) (bits w 7 6))
  | 12 => .ok (.vshl (bits w 25 21) (bits w 20 16) (bits w 15 11) (bits w 10 8) (bits w 7 6))
  | 13 => .ok (.vshr (bits w 25 21) (bits w 20 16) (bits w 15 11) (bits w 10 8) (bits w 7 6))
  | 14 => .ok (.vsar (bits w 25 21) (bits w 20 16) (bits w 15 11) (bits w 10 8) (bits w 7 6))
  | 15 => if bits w 15 11 = 0 then .ok (.vabs (bits w 25 21) (bits w 20 16) (bits w 10 8) (bits w 7 6)) else .error .field
  | 16 => if bits w 15 11 = 0 then .ok (.vneg (bits w 25 21) (bits w 20 16) (bits w 10 8) (bits w 7 6)) else .error .field
  | 17 => if bits w 15 11 = 0 then .ok (.vpopc (bits w 25 21) (bits w 20 16) (bits w 10 8) (bits w 7 6)) else .error .field
  | _ => .error .func

/-- Words of major 0x21. -/
def decVFlt (w : Nat) : Except Reject Instr :=
  match bits w 7 0 with
  | 0 => .ok (.vfadd (bits w 25 21) (bits w 20 16) (bits w 15 11) (bits w 10 8))
  | 1 => .ok (.vfsub (bits w 25 21) (bits w 20 16) (bits w 15 11) (bits w 10 8))
  | 2 => .ok (.vfmul (bits w 25 21) (bits w 20 16) (bits w 15 11) (bits w 10 8))
  | 3 => .ok (.vfmin (bits w 25 21) (bits w 20 16) (bits w 15 11) (bits w 10 8))
  | 4 => .ok (.vfmax (bits w 25 21) (bits w 20 16) (bits w 15 11) (bits w 10 8))
  | 5 => if bits w 15 11 = 0 then .ok (.vfabs (bits w 25 21) (bits w 20 16) (bits w 10 8)) else .error .field
  | 6 => if bits w 15 11 = 0 then .ok (.vfneg (bits w 25 21) (bits w 20 16) (bits w 10 8)) else .error .field
  | _ => .error .func

/-- Words of major 0x22. -/
def decVFma (w : Nat) : Except Reject Instr :=
  match bits w 2 0 with
  | 0 => .ok (.vfma (bits w 25 21) (bits w 20 16) (bits w 15 11) (bits w 10 6) (bits w 5 3))
  | 1 => .ok (.vfms (bits w 25 21) (bits w 20 16) (bits w 15 11) (bits w 10 6) (bits w 5 3))
  | 2 => .ok (.vfnma (bits w 25 21) (bits w 20 16) (bits w 15 11) (bits w 10 6) (bits w 5 3))
  | 3 => .ok (.vfnms (bits w 25 21) (bits w 20 16) (bits w 15 11) (bits w 10 6) (bits w 5 3))
  | 4 => .ok (.vmadd (bits w 25 21) (bits w 20 16) (bits w 15 11) (bits w 10 6) (bits w 5 3))
  | 5 => .ok (.vmsub (bits w 25 21) (bits w 20 16) (bits w 15 11) (bits w 10 6) (bits w 5 3))
  | _ => .error .func

/-- Words of major 0x23. -/
def decVCmp (w : Nat) : Except Reject Instr :=
  match bits w 1 0 with
  | 0 => if bits w 25 24 = 0 ∧ bits w 5 5 = 0 then .ok (.vcmpi (bits w 23 21) (bits w 20 16) (bits w 15 11) (bits w 10 8) (bits w 7 6) (bits w 4 2)) else .error .field
  | 1 => if bits w 25 24 = 0 ∧ bits w 7 5 = 0 then .ok (.vcmpf (bits w 23 21) (bits w 20 16) (bits w 15 11) (bits w 10 8) (bits w 4 2)) else .error .field
  | 2 => if bits w 5 2 = 0 then .ok (.vsel (bits w 25 21) (bits w 20 16) (bits w 15 11) (bits w 10 8) (bits w 7 6)) else .error .field
  | _ => .error .func

/-- Words of major 0x24. The vb field of VRED and VSCAN, which their forms do not name, is ignored (DESIGN CHOICE, log 150). -/
def decVLane (w : Nat) : Except Reject Instr :=
  match bits w 5 3 with
  | 0 => .ok (.vred (bits w 25 21) (bits w 20 16) (bits w 15 11) (bits w 10 8) (bits w 7 6) (bits w 2 0))
  | 1 => .ok (.vscan (bits w 25 21) (bits w 20 16) (bits w 15 11) (bits w 10 8) (bits w 7 6) (bits w 2 0))
  | 2 => if bits w 2 0 = 0 then .ok (.vperm (bits w 25 21) (bits w 20 16) (bits w 15 11) (bits w 10 8) (bits w 7 6)) else .error .field
  | 3 => if bits w 15 11 = 0 ∧ bits w 2 1 = 0 then .ok (.vbcast (bits w 25 21) (bits w 20 16) (bits w 10 8) (bits w 7 6) (bits w 0 0)) else .error .field
  | 4 => if bits w 10 8 = 0 ∧ bits w 2 1 = 0 then .ok (.vgetl (bits w 25 21) (bits w 20 16) (bits w 15 11) (bits w 7 6) (bits w 0 0)) else .error .field
  | 5 => if bits w 10 8 = 0 ∧ bits w 2 1 = 0 then .ok (.vsetl (bits w 25 21) (bits w 20 16) (bits w 15 11) (bits w 7 6) (bits w 0 0)) else .error .field
  | 6 => if bits w 2 0 = 0 then .ok (.vslideDn (bits w 25 21) (bits w 20 16) (bits w 15 11) (bits w 10 8) (bits w 7 6)) else if bits w 2 0 = 1 then .ok (.vslideUp (bits w 25 21) (bits w 20 16) (bits w 15 11) (bits w 10 8) (bits w 7 6)) else .error .field
  | 7 => if bits w 20 11 = 0 ∧ bits w 2 0 = 0 then .ok (.viota (bits w 25 21) (bits w 10 8) (bits w 7 6)) else if bits w 20 11 = 0 ∧ bits w 2 0 = 1 then .ok (.viotaCnt (bits w 25 21) (bits w 10 8) (bits w 7 6)) else .error .field
  | _ => .error .func

/-- Words of major 0x25. -/
def decVConv (w : Nat) : Except Reject Instr :=
  match bits w 2 0 with
  | 0 => if bits w 15 11 = 0 ∧ bits w 7 6 = 0 then .ok (.vcvt (bits w 25 21) (bits w 20 16) (bits w 10 8) (bits w 5 3)) else .error .field
  | 1 => if bits w 15 6 = 0 then .ok (.vquant (bits w 25 21) (bits w 20 16) (bits w 5 3)) else .error .field
  | 2 => if bits w 15 11 = 0 ∧ bits w 7 6 = 0 then .ok (.vdeq (bits w 25 21) (bits w 20 16) (bits w 10 8) (bits w 5 3)) else .error .field
  | 3 => if bits w 15 11 = 0 ∧ bits w 7 6 = 0 then .ok (.vdec (bits w 25 21) (bits w 20 16) (bits w 10 8) (bits w 5 3)) else .error .field
  | 4 => if bits w 15 11 = 0 ∧ bits w 7 6 = 0 then .ok (.venc (bits w 25 21) (bits w 20 16) (bits w 10 8) (bits w 5 3)) else .error .field
  | 5 => if bits w 10 3 = 0 then .ok (.vbadd (bits w 25 21) (bits w 20 16) (bits w 15 11)) else .error .field
  | 6 => if bits w 10 4 = 0 then .ok (.tblld (bits w 25 22) (bits w 21 21) (bits w 20 16) (bits w 15 11) (bits w 3 3)) else .error .field
  | _ => .error .func

/-- Words of major 0x26. -/
def decVSpec (w : Nat) : Except Reject Instr :=
  match bits w 7 0 with
  | 0 => if bits w 15 11 = 0 then .ok (.vrcp (bits w 25 21) (bits w 20 16) (bits w 10 8)) else .error .field
  | 1 => if bits w 15 11 = 0 then .ok (.vrsq (bits w 25 21) (bits w 20 16) (bits w 10 8)) else .error .field
  | 2 => if bits w 15 11 = 0 then .ok (.vexp2 (bits w 25 21) (bits w 20 16) (bits w 10 8)) else .error .field
  | 3 => if bits w 15 11 = 0 then .ok (.vlog2 (bits w 25 21) (bits w 20 16) (bits w 10 8)) else .error .field
  | 4 => if bits w 15 11 = 0 then .ok (.vsqrt (bits w 25 21) (bits w 20 16) (bits w 10 8)) else .error .field
  | 5 => .ok (.vdiv (bits w 25 21) (bits w 20 16) (bits w 15 11) (bits w 10 8))
  | _ => .error .func

/-- Words of major 0x27. -/
def decKOps (w : Nat) : Except Reject Instr :=
  match bits w 2 0 with
  | 0 => if bits w 25 24 = 0 ∧ bits w 20 19 = 0 ∧ bits w 15 14 = 0 ∧ bits w 10 3 = 0 then .ok (.kand (bits w 23 21) (bits w 18 16) (bits w 13 11)) else .error .field
  | 1 => if bits w 25 24 = 0 ∧ bits w 20 19 = 0 ∧ bits w 15 14 = 0 ∧ bits w 10 3 = 0 then .ok (.kor (bits w 23 21) (bits w 18 16) (bits w 13 11)) else .error .field
  | 2 => if bits w 25 24 = 0 ∧ bits w 20 19 = 0 ∧ bits w 15 14 = 0 ∧ bits w 10 3 = 0 then .ok (.kxor (bits w 23 21) (bits w 18 16) (bits w 13 11)) else .error .field
  | 3 => if bits w 25 24 = 0 ∧ bits w 20 19 = 0 ∧ bits w 15 3 = 0 then .ok (.knot (bits w 23 21) (bits w 18 16)) else .error .field
  | 4 => if bits w 25 24 = 0 ∧ bits w 20 19 = 0 ∧ bits w 15 3 = 0 then .ok (.kmov (bits w 23 21) (bits w 18 16)) else .error .field
  | 5 => if bits w 20 19 = 0 ∧ bits w 15 8 = 0 ∧ bits w 5 4 = 0 then .ok (.kpopc (bits w 25 21) (bits w 18 16) (bits w 7 6) (bits w 3 3)) else .error .field
  | 6 => if bits w 20 19 = 0 ∧ bits w 15 8 = 0 ∧ bits w 5 4 = 0 then .ok (.kfirst (bits w 25 21) (bits w 18 16) (bits w 7 6) (bits w 3 3)) else .error .field
  | _ => .error .func

/-- Words of major 0x28. -/
def decVLoad (w : Nat) : Except Reject Instr :=
  match bits w 1 0 with
  | 0 => .ok (.vld (bits w 25 21) (bits w 20 15) (bits w 14 9) (bits w 8 6) (bits w 5 4) (bits w 3 2))
  | 1 => .ok (.vlds (bits w 25 21) (bits w 20 15) (bits w 14 9) (bits w 8 6) (bits w 5 4) (bits w 3 2))
  | 2 => if bits w 14 14 = 0 then .ok (.vldx (bits w 25 21) (bits w 20 15) (bits w 13 9) (bits w 8 6) (bits w 5 4) (bits w 3 2)) else .error .field
  | 3 => .ok (.vldb (bits w 25 21) (bits w 20 15) (bits w 14 9) (bits w 8 6) (bits w 5 4) (bits w 3 2))
  | _ => .error .func

/-- Words of major 0x29. -/
def decVStore (w : Nat) : Except Reject Instr :=
  match bits w 1 0 with
  | 0 => .ok (.vst (bits w 25 21) (bits w 20 15) (bits w 14 9) (bits w 8 6) (bits w 5 4) (bits w 3 2))
  | 1 => .ok (.vsts (bits w 25 21) (bits w 20 15) (bits w 14 9) (bits w 8 6) (bits w 5 4) (bits w 3 2))
  | 2 => if bits w 14 14 = 0 then .ok (.vstx (bits w 25 21) (bits w 20 15) (bits w 13 9) (bits w 8 6) (bits w 5 4) (bits w 3 2)) else .error .field
  | _ => .error .func

/-- Words of major 0x30. -/
def decMxe (w : Nat) : Except Reject Instr :=
  match bits w 7 0 with
  | 0 => if bits w 25 25 = 1 ∧ bits w 19 8 = 0 then .ok (.mlease (bits w 24 20)) else .error .field
  | 1 => if bits w 25 8 = 0 then .ok (.mfree) else .error .field
  | 2 => if bits w 25 20 = 0 ∧ bits w 13 12 = 0 then .ok (.mring (bits w 19 14) (bits w 11 8)) else .error .field
  | 3 => if bits w 13 12 = 0 then .ok (.mrpub (bits w 25 20) (bits w 19 14) (bits w 11 8)) else .error .field
  | 4 => if bits w 13 12 = 0 then .ok (.mrpop (bits w 25 20) (bits w 19 14) (bits w 11 8)) else .error .field
  | 5 => if bits w 9 8 = 0 then .ok (.mma (bits w 25 25) (bits w 24 20) (bits w 19 16) (bits w 15 14) (bits w 13 10)) else .error .field
  | 6 => if bits w 9 8 = 0 then .ok (.mmah (bits w 25 25) (bits w 24 20) (bits w 19 16) (bits w 15 14) (bits w 13 10)) else .error .field
  | 7 => if bits w 19 16 = 0 ∧ bits w 13 8 = 0 then .ok (.mzero (bits w 25 25) (bits w 24 20) (bits w 15 14)) else .error .field
  | 8 => if bits w 19 16 = 0 then .ok (.mlda (bits w 25 25) (bits w 24 20) (bits w 15 14) (bits w 13 8)) else .error .field
  | 9 => if bits w 19 16 = 0 then .ok (.msta (bits w 25 25) (bits w 24 20) (bits w 15 14) (bits w 13 8)) else .error .field
  | _ => .error .func

/-- Words of major 0x31. -/
def decSlice (w : Nat) : Except Reject Instr :=
  match bits w 7 0 with
  | 0 => if bits w 13 8 = 0 then .ok (.mscale (bits w 25 25) (bits w 24 20) (bits w 19 14)) else .error .field
  | 1 => .ok (.msplit (bits w 25 25) (bits w 24 20) (bits w 19 14) (bits w 13 8))
  | 2 => .ok (.msmm (bits w 25 25) (bits w 24 20) (bits w 19 14) (bits w 13 8))
  | 3 => .ok (.msfin (bits w 25 25) (bits w 24 20) (bits w 19 14) (bits w 13 8))
  | _ => .error .func

/-- Words of major 0x32. -/
def decStream (w : Nat) : Except Reject Instr :=
  match bits w 7 0 with
  | 0 => if bits w 10 8 = 0 then .ok (.sbind (bits w 25 25) (bits w 24 20) (bits w 19 14) (bits w 13 11)) else .error .field
  | 1 => if bits w 25 14 = 0 ∧ bits w 10 8 = 0 then .ok (.sfree (bits w 13 11)) else .error .field
  | 2 => if bits w 19 14 = 0 ∧ bits w 10 8 = 0 then .ok (.sstat (bits w 25 20) (bits w 13 11)) else .error .field
  | 3 => if bits w 25 25 = 0 ∧ bits w 19 14 = 0 ∧ bits w 10 8 = 0 then .ok (.srd (bits w 24 20) (bits w 13 11)) else .error .field
  | 4 => if bits w 25 19 = 0 ∧ bits w 10 8 = 0 then .ok (.swr (bits w 18 14) (bits w 13 11)) else .error .field
  | _ => .error .func

/-- Words of major 0x33. -/
def decCopy (w : Nat) : Except Reject Instr :=
  match bits w 7 0 with
  | 0 => if bits w 13 10 = 0 then .ok (.cpy (bits w 25 25) (bits w 24 20) (bits w 19 14) (bits w 9 8)) else .error .field
  | 1 => if bits w 13 10 = 0 then .ok (.cpys (bits w 25 25) (bits w 24 20) (bits w 19 14) (bits w 9 8)) else .error .field
  | 2 => if bits w 13 10 = 0 then .ok (.cpyg (bits w 25 25) (bits w 24 20) (bits w 19 14) (bits w 9 8)) else .error .field
  | 3 => if bits w 13 10 = 0 then .ok (.cpym (bits w 25 25) (bits w 24 20) (bits w 19 14) (bits w 9 8)) else .error .field
  | _ => .error .func

/-- Words of major 0x34. -/
def decEvent (w : Nat) : Except Reject Instr :=
  match bits w 7 0 with
  | 0 => if bits w 13 8 = 0 then .ok (.evnew (bits w 25 20) (bits w 19 14)) else .error .field
  | 1 => if bits w 25 20 = 0 ∧ bits w 13 8 = 0 then .ok (.evfree (bits w 19 14)) else .error .field
  | 2 => if bits w 25 25 = 0 ∧ bits w 13 8 = 0 then .ok (.evbind (bits w 24 20) (bits w 19 14)) else .error .field
  | 3 => if bits w 25 25 = 0 ∧ bits w 19 8 = 0 then .ok (.evdrop (bits w 24 20)) else .error .field
  | 4 => if bits w 25 25 = 0 ∧ bits w 19 8 = 0 then .ok (.evbreak (bits w 24 20)) else .error .field
  | 5 => if bits w 19 19 = 0 ∧ bits w 13 8 = 0 then .ok (.evstat (bits w 25 20) (bits w 18 14)) else .error .field
  | _ => .error .func

/-- Words of major 0x35. -/
def decOffer (w : Nat) : Except Reject Instr :=
  match bits w 7 0 with
  | 0 => .ok (.offer (bits w 25 20) (bits w 19 14) (bits w 13 8))
  | 1 => .ok (.offert (bits w 25 20) (bits w 19 14) (bits w 13 8))
  | 2 => .ok (.offers (bits w 25 20) (bits w 19 14) (bits w 13 8))
  | 3 => if bits w 19 8 = 0 then .ok (.ofcan (bits w 25 20)) else if bits w 25 8 = 1 then .ok (.ofcanRet) else .error .field
  | 4 => if bits w 19 19 = 0 ∧ bits w 13 8 = 0 then .ok (.get (bits w 25 20) (bits w 18 14)) else .error .field
  | 5 => if bits w 19 19 = 0 ∧ bits w 13 8 = 0 then .ok (.put (bits w 25 20) (bits w 18 14)) else .error .field
  | 6 => if bits w 19 8 = 0 then .ok (.sync (bits w 25 20)) else .error .field
  | _ => .error .func

/-- Words of major 0x36. -/
def decChain (w : Nat) : Except Reject Instr :=
  match bits w 7 0 with
  | 0 => if bits w 25 8 = 0 then .ok (.eqp) else .error .field
  | 1 => if bits w 19 8 = 0 then .ok (.chfold (bits w 25 20)) else .error .field
  | 2 => if bits w 19 8 = 0 then .ok (.chspread (bits w 25 20)) else .error .field
  | 3 => if bits w 19 8 = 0 then .ok (.chstat (bits w 25 20)) else .error .field
  | _ => .error .func

/-- Words of major 0x37. -/
def decCct (w : Nat) : Except Reject Instr :=
  match bits w 7 0 with
  | 0 => .ok (.ccenrol (bits w 25 20) (bits w 19 14) (bits w 13 8))
  | 1 => if bits w 13 8 = 0 then .ok (.ccdrop (bits w 25 20) (bits w 19 14)) else .error .field
  | 2 => .ok (.ccmove (bits w 25 20) (bits w 19 14) (bits w 13 8))
  | 3 => if bits w 13 8 = 0 then .ok (.ccsettle (bits w 25 25) (bits w 24 20) (bits w 19 14)) else .error .field
  | 4 => if bits w 13 8 = 0 then .ok (.ccread (bits w 25 20) (bits w 19 14)) else if bits w 13 8 = 1 then .ok (.ccreadT (bits w 25 20) (bits w 19 14)) else .error .field
  | 5 => .ok (.cccmp (bits w 25 20) (bits w 19 14) (bits w 13 8))
  | _ => .error .func

/-- The instruction that a 32-bit word stands for, or why it stands for none (R63, R64). -/
def decode (w : Nat) : Except Reject Instr :=
  match bits w 31 26 with
  | 0 => decSys w
  | 1 => decAlu w
  | 2 => .ok (.addi (bits w 25 20) (bits w 19 14) (bits w 13 0))
  | 3 => .ok (.andi (bits w 25 20) (bits w 19 14) (bits w 13 0))
  | 4 => .ok (.ori (bits w 25 20) (bits w 19 14) (bits w 13 0))
  | 5 => .ok (.xori (bits w 25 20) (bits w 19 14) (bits w 13 0))
  | 6 => decShiftImm w
  | 7 => .ok (.slti (bits w 25 20) (bits w 19 14) (bits w 13 0))
  | 8 => .ok (.sltin (bits w 25 20) (bits w 19 14) (bits w 13 0))
  | 9 => .ok (.lui (bits w 25 20) (bits w 19 0))
  | 10 => .ok (.addpc (bits w 25 20) (bits w 19 0))
  | 11 => decBranch w
  | 12 => .ok (.j (bits w 25 0))
  | 13 => .ok (.jl (bits w 25 0))
  | 14 => decTransfer w
  | 15 => if bits w 25 20 = 0 then .ok (.pad (bits w 19 0)) else .error .field
  | 16 => if bits w 6 0 = 0 then .ok (.rpt (bits w 25 22) (bits w 21 16) (bits w 15 13) (bits w 12 10) (bits w 9 7)) else .error .field
  | 17 => decTask w
  | 18 => decLoad w
  | 19 => decStore w
  | 20 => if bits w 5 4 = 0 then .ok (.ldx (bits w 25 20) (bits w 19 14) (bits w 13 8) (bits w 7 6) (bits w 3 3) (bits w 2 0)) else .error .field
  | 21 => if bits w 5 4 = 0 then .ok (.stx (bits w 25 20) (bits w 19 14) (bits w 13 8) (bits w 7 6) (bits w 3 3) (bits w 2 0)) else .error .field
  | 22 => decFence w
  | 23 => decAtom w
  | 24 => if bits w 7 2 = 0 then .ok (.acas2 (bits w 25 20) (bits w 19 14) (bits w 13 8) (bits w 1 0)) else .error .field
  | 25 => decRemote w
  | 32 => decVInt w
  | 33 => decVFlt w
  | 34 => decVFma w
  | 35 => decVCmp w
  | 36 => decVLane w
  | 37 => decVConv w
  | 38 => decVSpec w
  | 39 => decKOps w
  | 40 => decVLoad w
  | 41 => decVStore w
  | 48 => decMxe w
  | 49 => decSlice w
  | 50 => decStream w
  | 51 => decCopy w
  | 52 => decEvent w
  | 53 => decOffer w
  | 54 => decChain w
  | 55 => decCct w
  | 63 => if bits w 7 0 = 0 then .ok (.fmtp (bits w 25 22) (bits w 21 18) (bits w 17 14) (bits w 13 12) (bits w 11 8)) else .error .field
  | _ => .error .major

/-- The four bytes of a word, little-endian (R56). -/
def wordBytes (w : Nat) : List (BitVec 8) :=
  [BitVec.ofNat 8 w, BitVec.ofNat 8 (w / 2 ^ 8), BitVec.ofNat 8 (w / 2 ^ 16), BitVec.ofNat 8 (w / 2 ^ 24)]

/-- The word that four bytes hold, the first at the lowest address (R56). -/
def bytesWord (b0 b1 b2 b3 : BitVec 8) : Nat :=
  b0.toNat + b1.toNat * 2 ^ 8 + b2.toNat * 2 ^ 16 + b3.toNat * 2 ^ 24

/-- The first instruction of a list of bytes, with the bytes after it; `none` when fewer than four bytes are left or
the word is rejected. -/
def decodeBytes : List (BitVec 8) → Option (Instr × List (BitVec 8))
  | b0 :: b1 :: b2 :: b3 :: rest =>
    match decode (bytesWord b0 b1 b2 b3) with
    | .ok i => some (i, rest)
    | .error _ => none
  | _ => none

/-- The instruction that the decoder reads from a row's word of `nbits` bits, every later bit zero. -/
def decodeTableWord (nbits w : Nat) : Option Instr := (decodeBytes (wordBytes (w % 2 ^ nbits))).map Prod.fst

/-- A word from its fixed bits and its fields, each with the place of its lowest bit (R60). -/
def layWord (fixed : Nat) : List (Nat × Nat) → Nat
  | [] => fixed
  | (x, p) :: t => layWord (fixed + x * 2 ^ p) t

/-- The word of an instruction, from the same encodings; `none` for a step of another agent, which has no word. -/
def encode (i : Instr) : Option Nat :=
  match i with
  | .nop => some (layWord 0x00000001 [])
  | .trap d a b => some (layWord 0x00000002 [(d, 20), (a, 14), (b, 8)])
  | .eret => some (layWord 0x00000003 [])
  | .icinv d a b => some (layWord 0x00000004 [(d, 20), (a, 14), (b, 8)])
  | .brk => some (layWord 0x00000005 [])
  | .csrr d b => some (layWord 0x00000006 [(d, 20), (b, 8)])
  | .csrw d a b => some (layWord 0x00000007 [(d, 20), (a, 14), (b, 8)])
  | .csrs d a b => some (layWord 0x00000008 [(d, 20), (a, 14), (b, 8)])
  | .csrc d a b => some (layWord 0x00000009 [(d, 20), (a, 14), (b, 8)])
  | .ctxsave b => some (layWord 0x0000000A [(b, 8)])
  | .ctxrest => some (layWord 0x0000000B [])
  | .svcreply d a b => some (layWord 0x0000000C [(d, 20), (a, 14), (b, 8)])
  | .gstopPartition a => some (layWord 0x0000000D [(a, 14)])
  | .gstopPackage a => some (layWord 0x0000010D [(a, 14)])
  | .gstopResume a => some (layWord 0x0000020D [(a, 14)])
  | .add d a b => some (layWord 0x04000000 [(d, 20), (a, 14), (b, 8)])
  | .sub d a b => some (layWord 0x04000001 [(d, 20), (a, 14), (b, 8)])
  | .mul d a b => some (layWord 0x04000002 [(d, 20), (a, 14), (b, 8)])
  | .mulh d a b => some (layWord 0x04000003 [(d, 20), (a, 14), (b, 8)])
  | .mulhn d a b => some (layWord 0x04000004 [(d, 20), (a, 14), (b, 8)])
  | .div d a b => some (layWord 0x04000005 [(d, 20), (a, 14), (b, 8)])
  | .divn d a b => some (layWord 0x04000006 [(d, 20), (a, 14), (b, 8)])
  | .rem d a b => some (layWord 0x04000007 [(d, 20), (a, 14), (b, 8)])
  | .remn d a b => some (layWord 0x04000008 [(d, 20), (a, 14), (b, 8)])
  | .and d a b => some (layWord 0x04000009 [(d, 20), (a, 14), (b, 8)])
  | .or d a b => some (layWord 0x0400000A [(d, 20), (a, 14), (b, 8)])
  | .xor d a b => some (layWord 0x0400000B [(d, 20), (a, 14), (b, 8)])
  | .andn d a b => some (layWord 0x0400000C [(d, 20), (a, 14), (b, 8)])
  | .shl d a b => some (layWord 0x0400000D [(d, 20), (a, 14), (b, 8)])
  | .shr d a b => some (layWord 0x0400000E [(d, 20), (a, 14), (b, 8)])
  | .sar d a b => some (layWord 0x0400000F [(d, 20), (a, 14), (b, 8)])
  | .rotl d a b => some (layWord 0x04000010 [(d, 20), (a, 14), (b, 8)])
  | .min d a b => some (layWord 0x04000011 [(d, 20), (a, 14), (b, 8)])
  | .max d a b => some (layWord 0x04000012 [(d, 20), (a, 14), (b, 8)])
  | .minn d a b => some (layWord 0x04000013 [(d, 20), (a, 14), (b, 8)])
  | .maxn d a b => some (layWord 0x04000014 [(d, 20), (a, 14), (b, 8)])
  | .seq d a b => some (layWord 0x04000015 [(d, 20), (a, 14), (b, 8)])
  | .sne d a b => some (layWord 0x04000016 [(d, 20), (a, 14), (b, 8)])
  | .slt d a b => some (layWord 0x04000017 [(d, 20), (a, 14), (b, 8)])
  | .sltn d a b => some (layWord 0x04000018 [(d, 20), (a, 14), (b, 8)])
  | .sle d a b => some (layWord 0x04000019 [(d, 20), (a, 14), (b, 8)])
  | .slen d a b => some (layWord 0x0400001A [(d, 20), (a, 14), (b, 8)])
  | .sel d a b => some (layWord 0x0400001B [(d, 20), (a, 14), (b, 8)])
  | .clz d a => some (layWord 0x0400001C [(d, 20), (a, 14)])
  | .ctz d a => some (layWord 0x0400001D [(d, 20), (a, 14)])
  | .popc d a => some (layWord 0x0400001E [(d, 20), (a, 14)])
  | .sext d a b => some (layWord 0x0400001F [(d, 20), (a, 14), (b, 8)])
  | .ext d a b => some (layWord 0x04000020 [(d, 20), (a, 14), (b, 8)])
  | .ins d a b => some (layWord 0x04000021 [(d, 20), (a, 14), (b, 8)])
  | .addi d a i => some (layWord 0x08000000 [(d, 20), (a, 14), (i, 0)])
  | .andi d a i => some (layWord 0x0C000000 [(d, 20), (a, 14), (i, 0)])
  | .ori d a i => some (layWord 0x10000000 [(d, 20), (a, 14), (i, 0)])
  | .xori d a i => some (layWord 0x14000000 [(d, 20), (a, 14), (i, 0)])
  | .shli d a n => some (layWord 0x18000000 [(d, 20), (a, 14), (n, 0)])
  | .shri d a n => some (layWord 0x18001000 [(d, 20), (a, 14), (n, 0)])
  | .sari d a n => some (layWord 0x18002000 [(d, 20), (a, 14), (n, 0)])
  | .rotli d a n => some (layWord 0x18003000 [(d, 20), (a, 14), (n, 0)])
  | .slti d a i => some (layWord 0x1C000000 [(d, 20), (a, 14), (i, 0)])
  | .sltin d a i => some (layWord 0x20000000 [(d, 20), (a, 14), (i, 0)])
  | .lui d i => some (layWord 0x24000000 [(d, 20), (i, 0)])
  | .addpc d i => some (layWord 0x28000000 [(d, 20), (i, 0)])
  | .bz a p => some (layWord 0x2C000000 [(a, 17), (p, 0)])
  | .bnz a p => some (layWord 0x2C800000 [(a, 17), (p, 0)])
  | .bltz a p => some (layWord 0x2D000000 [(a, 17), (p, 0)])
  | .bgez a p => some (layWord 0x2D800000 [(a, 17), (p, 0)])
  | .bgtz a p => some (layWord 0x2E000000 [(a, 17), (p, 0)])
  | .blez a p => some (layWord 0x2E800000 [(a, 17), (p, 0)])
  | .j p => some (layWord 0x30000000 [(p, 0)])
  | .jl p => some (layWord 0x34000000 [(p, 0)])
  | .jx a b => some (layWord 0x38000000 [(a, 14), (b, 8)])
  | .callx a b => some (layWord 0x38000001 [(a, 14), (b, 8)])
  | .ret => some (layWord 0x38000002 [])
  | .jt d a b => some (layWord 0x38000003 [(d, 20), (a, 14), (b, 8)])
  | .pad l => some (layWord 0x3C000000 [(l, 0)])
  | .rpt l c x y z => some (layWord 0x40000000 [(l, 22), (c, 16), (x, 13), (y, 10), (z, 7)])
  | .tid d => some (layWord 0x44000000 [(d, 20)])
  | .tgrp d => some (layWord 0x44000001 [(d, 20)])
  | .texit a => some (layWord 0x44000002 [(a, 14)])
  | .launch d a x e => some (layWord 0x44000003 [(d, 20), (a, 14), (x, 13), (e, 8)])
  | .lb d b o f => some (layWord 0x48000000 [(d, 20), (b, 14), (o, 12), (f, 0)])
  | .lbn d b o f => some (layWord 0x48000200 [(d, 20), (b, 14), (o, 12), (f, 0)])
  | .lh d b o f => some (layWord 0x48000400 [(d, 20), (b, 14), (o, 12), (f, 0)])
  | .lhn d b o f => some (layWord 0x48000600 [(d, 20), (b, 14), (o, 12), (f, 0)])
  | .lw d b o f => some (layWord 0x48000800 [(d, 20), (b, 14), (o, 12), (f, 0)])
  | .lwn d b o f => some (layWord 0x48000A00 [(d, 20), (b, 14), (o, 12), (f, 0)])
  | .ld d b o f => some (layWord 0x48000C00 [(d, 20), (b, 14), (o, 12), (f, 0)])
  | .ldp d b o f => some (layWord 0x48000E00 [(d, 20), (b, 14), (o, 12), (f, 0)])
  | .stb d b o f => some (layWord 0x4C000000 [(d, 20), (b, 14), (o, 12), (f, 0)])
  | .sth d b o f => some (layWord 0x4C000400 [(d, 20), (b, 14), (o, 12), (f, 0)])
  | .stw d b o f => some (layWord 0x4C000800 [(d, 20), (b, 14), (o, 12), (f, 0)])
  | .std d b o f => some (layWord 0x4C000C00 [(d, 20), (b, 14), (o, 12), (f, 0)])
  | .stp d b o f => some (layWord 0x4C000E00 [(d, 20), (b, 14), (o, 12), (f, 0)])
  | .ldx d a b o s w => some (layWord 0x50000000 [(d, 20), (a, 14), (b, 8), (o, 6), (s, 3), (w, 0)])
  | .stx d a b o s w => some (layWord 0x54000000 [(d, 20), (a, 14), (b, 8), (o, 6), (s, 3), (w, 0)])
  | .fence s => some (layWord 0x58000000 [(s, 0)])
  | .fenceAcq s => some (layWord 0x58000008 [(s, 0)])
  | .fenceRel s => some (layWord 0x58000010 [(s, 0)])
  | .fenceSs s => some (layWord 0x58000018 [(s, 0)])
  | .aadd d a b o w => some (layWord 0x5C000000 [(d, 20), (a, 14), (b, 8), (o, 5), (w, 4)])
  | .aand d a b o w => some (layWord 0x5C000001 [(d, 20), (a, 14), (b, 8), (o, 5), (w, 4)])
  | .aor d a b o w => some (layWord 0x5C000002 [(d, 20), (a, 14), (b, 8), (o, 5), (w, 4)])
  | .axor d a b o w => some (layWord 0x5C000003 [(d, 20), (a, 14), (b, 8), (o, 5), (w, 4)])
  | .amin d a b o w => some (layWord 0x5C000004 [(d, 20), (a, 14), (b, 8), (o, 5), (w, 4)])
  | .amax d a b o w => some (layWord 0x5C000005 [(d, 20), (a, 14), (b, 8), (o, 5), (w, 4)])
  | .aminn d a b o w => some (layWord 0x5C000006 [(d, 20), (a, 14), (b, 8), (o, 5), (w, 4)])
  | .amaxn d a b o w => some (layWord 0x5C000007 [(d, 20), (a, 14), (b, 8), (o, 5), (w, 4)])
  | .aswp d a b o w => some (layWord 0x5C000008 [(d, 20), (a, 14), (b, 8), (o, 5), (w, 4)])
  | .acas d a b o w => some (layWord 0x5C000009 [(d, 20), (a, 14), (b, 8), (o, 5), (w, 4)])
  | .afadd d a b o w => some (layWord 0x5C00000A [(d, 20), (a, 14), (b, 8), (o, 5), (w, 4)])
  | .afmin d a b o w => some (layWord 0x5C00000B [(d, 20), (a, 14), (b, 8), (o, 5), (w, 4)])
  | .afmax d a b o w => some (layWord 0x5C00000C [(d, 20), (a, 14), (b, 8), (o, 5), (w, 4)])
  | .acas2 d a b o => some (layWord 0x60000000 [(d, 20), (a, 14), (b, 8), (o, 0)])
  | .btag b => some (layWord 0x64000000 [(b, 8)])
  | .bclose e a b => some (layWord 0x64000001 [(e, 20), (a, 14), (b, 8)])
  | .rappend e a b => some (layWord 0x64000002 [(e, 20), (a, 14), (b, 8)])
  | .vadd d a b k w => some (layWord 0x80000000 [(d, 21), (a, 16), (b, 11), (k, 8), (w, 6)])
  | .vsub d a b k w => some (layWord 0x80000001 [(d, 21), (a, 16), (b, 11), (k, 8), (w, 6)])
  | .vmul d a b k w => some (layWord 0x80000002 [(d, 21), (a, 16), (b, 11), (k, 8), (w, 6)])
  | .vmulh d a b k w => some (layWord 0x80000003 [(d, 21), (a, 16), (b, 11), (k, 8), (w, 6)])
  | .vmin d a b k w => some (layWord 0x80000004 [(d, 21), (a, 16), (b, 11), (k, 8), (w, 6)])
  | .vmax d a b k w => some (layWord 0x80000005 [(d, 21), (a, 16), (b, 11), (k, 8), (w, 6)])
  | .vminn d a b k w => some (layWord 0x80000006 [(d, 21), (a, 16), (b, 11), (k, 8), (w, 6)])
  | .vmaxn d a b k w => some (layWord 0x80000007 [(d, 21), (a, 16), (b, 11), (k, 8), (w, 6)])
  | .vand d a b k w => some (layWord 0x80000008 [(d, 21), (a, 16), (b, 11), (k, 8), (w, 6)])
  | .vor d a b k w => some (layWord 0x80000009 [(d, 21), (a, 16), (b, 11), (k, 8), (w, 6)])
  | .vxor d a b k w => some (layWord 0x8000000A [(d, 21), (a, 16), (b, 11), (k, 8), (w, 6)])
  | .vandn d a b k w => some (layWord 0x8000000B [(d, 21), (a, 16), (b, 11), (k, 8), (w, 6)])
  | .vshl d a b k w => some (layWord 0x8000000C [(d, 21), (a, 16), (b, 11), (k, 8), (w, 6)])
  | .vshr d a b k w => some (layWord 0x8000000D [(d, 21), (a, 16), (b, 11), (k, 8), (w, 6)])
  | .vsar d a b k w => some (layWord 0x8000000E [(d, 21), (a, 16), (b, 11), (k, 8), (w, 6)])
  | .vabs d a k w => some (layWord 0x8000000F [(d, 21), (a, 16), (k, 8), (w, 6)])
  | .vneg d a k w => some (layWord 0x80000010 [(d, 21), (a, 16), (k, 8), (w, 6)])
  | .vpopc d a k w => some (layWord 0x80000011 [(d, 21), (a, 16), (k, 8), (w, 6)])
  | .vfadd d a b k => some (layWord 0x84000000 [(d, 21), (a, 16), (b, 11), (k, 8)])
  | .vfsub d a b k => some (layWord 0x84000001 [(d, 21), (a, 16), (b, 11), (k, 8)])
  | .vfmul d a b k => some (layWord 0x84000002 [(d, 21), (a, 16), (b, 11), (k, 8)])
  | .vfmin d a b k => some (layWord 0x84000003 [(d, 21), (a, 16), (b, 11), (k, 8)])
  | .vfmax d a b k => some (layWord 0x84000004 [(d, 21), (a, 16), (b, 11), (k, 8)])
  | .vfabs d a k => some (layWord 0x84000005 [(d, 21), (a, 16), (k, 8)])
  | .vfneg d a k => some (layWord 0x84000006 [(d, 21), (a, 16), (k, 8)])
  | .vfma d a b c k => some (layWord 0x88000000 [(d, 21), (a, 16), (b, 11), (c, 6), (k, 3)])
  | .vfms d a b c k => some (layWord 0x88000001 [(d, 21), (a, 16), (b, 11), (c, 6), (k, 3)])
  | .vfnma d a b c k => some (layWord 0x88000002 [(d, 21), (a, 16), (b, 11), (c, 6), (k, 3)])
  | .vfnms d a b c k => some (layWord 0x88000003 [(d, 21), (a, 16), (b, 11), (c, 6), (k, 3)])
  | .vmadd d a b c k => some (layWord 0x88000004 [(d, 21), (a, 16), (b, 11), (c, 6), (k, 3)])
  | .vmsub d a b c k => some (layWord 0x88000005 [(d, 21), (a, 16), (b, 11), (c, 6), (k, 3)])
  | .vcmpi d a b k w n => some (layWord 0x8C000000 [(d, 21), (a, 16), (b, 11), (k, 8), (w, 6), (n, 2)])
  | .vcmpf d a b k n => some (layWord 0x8C000001 [(d, 21), (a, 16), (b, 11), (k, 8), (n, 2)])
  | .vsel d a b k w => some (layWord 0x8C000002 [(d, 21), (a, 16), (b, 11), (k, 8), (w, 6)])
  | .vred d a b k w o => some (layWord 0x90000000 [(d, 21), (a, 16), (b, 11), (k, 8), (w, 6), (o, 0)])
  | .vscan d a b k w o => some (layWord 0x90000008 [(d, 21), (a, 16), (b, 11), (k, 8), (w, 6), (o, 0)])
  | .vperm d a b k w => some (layWord 0x90000010 [(d, 21), (a, 16), (b, 11), (k, 8), (w, 6)])
  | .vbcast d a k w h => some (layWord 0x90000018 [(d, 21), (a, 16), (k, 8), (w, 6), (h, 0)])
  | .vgetl d a l w h => some (layWord 0x90000020 [(d, 21), (a, 16), (l, 11), (w, 6), (h, 0)])
  | .vsetl d a l w h => some (layWord 0x90000028 [(d, 21), (a, 16), (l, 11), (w, 6), (h, 0)])
  | .vslideDn d a n k w => some (layWord 0x90000030 [(d, 21), (a, 16), (n, 11), (k, 8), (w, 6)])
  | .vslideUp d a n k w => some (layWord 0x90000031 [(d, 21), (a, 16), (n, 11), (k, 8), (w, 6)])
  | .viota d k w => some (layWord 0x90000038 [(d, 21), (k, 8), (w, 6)])
  | .viotaCnt d k w => some (layWord 0x90000039 [(d, 21), (k, 8), (w, 6)])
  | .vcvt d a k p => some (layWord 0x94000000 [(d, 21), (a, 16), (k, 8), (p, 3)])
  | .vquant d a p => some (layWord 0x94000001 [(d, 21), (a, 16), (p, 3)])
  | .vdeq d a k p => some (layWord 0x94000002 [(d, 21), (a, 16), (k, 8), (p, 3)])
  | .vdec d a k p => some (layWord 0x94000003 [(d, 21), (a, 16), (k, 8), (p, 3)])
  | .venc d a k p => some (layWord 0x94000004 [(d, 21), (a, 16), (k, 8), (p, 3)])
  | .vbadd d a b => some (layWord 0x94000005 [(d, 21), (a, 16), (b, 11)])
  | .tblld s t a b h => some (layWord 0x94000006 [(s, 22), (t, 21), (a, 16), (b, 11), (h, 3)])
  | .vrcp d a k => some (layWord 0x98000000 [(d, 21), (a, 16), (k, 8)])
  | .vrsq d a k => some (layWord 0x98000001 [(d, 21), (a, 16), (k, 8)])
  | .vexp2 d a k => some (layWord 0x98000002 [(d, 21), (a, 16), (k, 8)])
  | .vlog2 d a k => some (layWord 0x98000003 [(d, 21), (a, 16), (k, 8)])
  | .vsqrt d a k => some (layWord 0x98000004 [(d, 21), (a, 16), (k, 8)])
  | .vdiv d a b k => some (layWord 0x98000005 [(d, 21), (a, 16), (b, 11), (k, 8)])
  | .kand d a b => some (layWord 0x9C000000 [(d, 21), (a, 16), (b, 11)])
  | .kor d a b => some (layWord 0x9C000001 [(d, 21), (a, 16), (b, 11)])
  | .kxor d a b => some (layWord 0x9C000002 [(d, 21), (a, 16), (b, 11)])
  | .knot d a => some (layWord 0x9C000003 [(d, 21), (a, 16)])
  | .kmov d a => some (layWord 0x9C000004 [(d, 21), (a, 16)])
  | .kpopc d a w h => some (layWord 0x9C000005 [(d, 21), (a, 16), (w, 6), (h, 3)])
  | .kfirst d a w h => some (layWord 0x9C000006 [(d, 21), (a, 16), (w, 6), (h, 3)])
  | .vld v b x k o w => some (layWord 0xA0000000 [(v, 21), (b, 15), (x, 9), (k, 6), (o, 4), (w, 2)])
  | .vlds v b x k o w => some (layWord 0xA0000001 [(v, 21), (b, 15), (x, 9), (k, 6), (o, 4), (w, 2)])
  | .vldx v b x k o w => some (layWord 0xA0000002 [(v, 21), (b, 15), (x, 9), (k, 6), (o, 4), (w, 2)])
  | .vldb v b x k o w => some (layWord 0xA0000003 [(v, 21), (b, 15), (x, 9), (k, 6), (o, 4), (w, 2)])
  | .vst v b x k o w => some (layWord 0xA4000000 [(v, 21), (b, 15), (x, 9), (k, 6), (o, 4), (w, 2)])
  | .vsts v b x k o w => some (layWord 0xA4000001 [(v, 21), (b, 15), (x, 9), (k, 6), (o, 4), (w, 2)])
  | .vstx v b x k o w => some (layWord 0xA4000002 [(v, 21), (b, 15), (x, 9), (k, 6), (o, 4), (w, 2)])
  | .mlease e => some (layWord 0xC2000000 [(e, 20)])
  | .mfree => some (layWord 0xC0000001 [])
  | .mring a n => some (layWord 0xC0000002 [(a, 14), (n, 8)])
  | .mrpub d a n => some (layWord 0xC0000003 [(d, 20), (a, 14), (n, 8)])
  | .mrpop d a n => some (layWord 0xC0000004 [(d, 20), (a, 14), (n, 8)])
  | .mma x e r c s => some (layWord 0xC0000005 [(x, 25), (e, 20), (r, 16), (c, 14), (s, 10)])
  | .mmah x e r c s => some (layWord 0xC0000006 [(x, 25), (e, 20), (r, 16), (c, 14), (s, 10)])
  | .mzero x e c => some (layWord 0xC0000007 [(x, 25), (e, 20), (c, 14)])
  | .mlda x e c b => some (layWord 0xC0000008 [(x, 25), (e, 20), (c, 14), (b, 8)])
  | .msta x e c b => some (layWord 0xC0000009 [(x, 25), (e, 20), (c, 14), (b, 8)])
  | .mscale x e a => some (layWord 0xC4000000 [(x, 25), (e, 20), (a, 14)])
  | .msplit x e a b => some (layWord 0xC4000001 [(x, 25), (e, 20), (a, 14), (b, 8)])
  | .msmm x e a b => some (layWord 0xC4000002 [(x, 25), (e, 20), (a, 14), (b, 8)])
  | .msfin x e a b => some (layWord 0xC4000003 [(x, 25), (e, 20), (a, 14), (b, 8)])
  | .sbind x e a r => some (layWord 0xC8000000 [(x, 25), (e, 20), (a, 14), (r, 11)])
  | .sfree r => some (layWord 0xC8000001 [(r, 11)])
  | .sstat d r => some (layWord 0xC8000002 [(d, 20), (r, 11)])
  | .srd v r => some (layWord 0xC8000003 [(v, 20), (r, 11)])
  | .swr v r => some (layWord 0xC8000004 [(v, 14), (r, 11)])
  | .cpy x e a q => some (layWord 0xCC000000 [(x, 25), (e, 20), (a, 14), (q, 8)])
  | .cpys x e a q => some (layWord 0xCC000001 [(x, 25), (e, 20), (a, 14), (q, 8)])
  | .cpyg x e a q => some (layWord 0xCC000002 [(x, 25), (e, 20), (a, 14), (q, 8)])
  | .cpym x e a q => some (layWord 0xCC000003 [(x, 25), (e, 20), (a, 14), (q, 8)])
  | .evnew d a => some (layWord 0xD0000000 [(d, 20), (a, 14)])
  | .evfree a => some (layWord 0xD0000001 [(a, 14)])
  | .evbind e a => some (layWord 0xD0000002 [(e, 20), (a, 14)])
  | .evdrop e => some (layWord 0xD0000003 [(e, 20)])
  | .evbreak e => some (layWord 0xD0000004 [(e, 20)])
  | .evstat d e => some (layWord 0xD0000005 [(d, 20), (e, 14)])
  | .offer d a b => some (layWord 0xD4000000 [(d, 20), (a, 14), (b, 8)])
  | .offert d a b => some (layWord 0xD4000001 [(d, 20), (a, 14), (b, 8)])
  | .offers d a b => some (layWord 0xD4000002 [(d, 20), (a, 14), (b, 8)])
  | .ofcan d => some (layWord 0xD4000003 [(d, 20)])
  | .ofcanRet => some (layWord 0xD4000103 [])
  | .get d e => some (layWord 0xD4000004 [(d, 20), (e, 14)])
  | .put d e => some (layWord 0xD4000005 [(d, 20), (e, 14)])
  | .sync d => some (layWord 0xD4000006 [(d, 20)])
  | .eqp => some (layWord 0xD8000000 [])
  | .chfold d => some (layWord 0xD8000001 [(d, 20)])
  | .chspread d => some (layWord 0xD8000002 [(d, 20)])
  | .chstat d => some (layWord 0xD8000003 [(d, 20)])
  | .ccenrol d a b => some (layWord 0xDC000000 [(d, 20), (a, 14), (b, 8)])
  | .ccdrop d a => some (layWord 0xDC000001 [(d, 20), (a, 14)])
  | .ccmove d a b => some (layWord 0xDC000002 [(d, 20), (a, 14), (b, 8)])
  | .ccsettle x e a => some (layWord 0xDC000003 [(x, 25), (e, 20), (a, 14)])
  | .ccread d a => some (layWord 0xDC000004 [(d, 20), (a, 14)])
  | .ccreadT d a => some (layWord 0xDC000104 [(d, 20), (a, 14)])
  | .cccmp d a b => some (layWord 0xDC000005 [(d, 20), (a, 14), (b, 8)])
  | .fmtp a b r m s => some (layWord 0xFC000000 [(a, 22), (b, 18), (r, 14), (m, 12), (s, 8)])
  | .taskRetirement _ => none
  | .loadDataReturn _ _ _ => none
  | .fenceDrainEnd _ => none
  | .icinvDone _ => none
  | .heldRecordPost _ _ => none
  | .preempt _ => none
  | .taskDispatch _ => none
  | .taskRedispatch _ => none
  | .chainSwitch _ _ => none
  | .leaseGrantOffer _ => none
  | .leaseOfferTimeout _ => none
  | .leaseExpiry _ => none
  | .mxeCommandExecute _ => none
  | .msmmPass _ => none
  | .msmmBlockReserve _ => none
  | .copyExecute _ _ _ => none
  | .ringPush _ _ => none
  | .copyComplete _ _ => none
  | .streamBeat _ _ => none
  | .streamComplete _ _ => none
  | .offerRegistration _ => none
  | .resolverWindow _ => none
  | .claim _ => none
  | .claimAnswer _ => none
  | .claimRevoke _ => none
  | .claimRelease _ => none
  | .commitNotify _ => none
  | .freeAnnounce _ => none
  | .offertExpiry _ => none
  | .handlerEntry _ => none
  | .settleComplete _ _ => none
  | .rollup _ => none
  | .batchSummary _ _ _ => none
  | .closeRequest _ _ => none
  | .appendStatus _ _ _ _ => none
  | .atomicReply _ _ _ _ => none
  | .ingressDequeue _ _ => none
  | .remoteAppend _ => none
  | .pubPublish _ => none
  | .arrivalRecord _ => none
  | .ringLaunchRecord _ => none
  | .arrivalRingRelease _ => none
  | .hostLaunch _ => none
  | .hostCancel _ => none
  | .completionEntryPost _ => none
  | .launchCompletion _ _ => none
  | .tencfgWrite _ _ => none
  | .registrationWrite _ _ _ => none
  | .mscrWrite _ _ => none
  | .atomflagsClear _ _ _ => none
  | .smdataWrite _ => none
  | .smdataRead => none
  | .invalidateRange => none
  | .invalidateSpace => none
  | .invalidateAll => none
  | .invalidationAck => none
  | .attestationReport _ => none
  | .pstateRequest _ => none
  | .cstateC0 _ => none
  | .cstateC1 _ => none
  | .cstateC2 _ => none
  | .dieC3 _ => none
  | .dieC0 _ => none
  | .thermalTrip _ _ => none
  | .thermalShutdown _ _ => none
  | .pminApply _ => none
  | .flitReceive _ _ => none
  | .linkReplay _ _ => none
  | .portTrained _ => none
  | .nodeLoss _ => none
  | .functionLevelReset _ => none
  | .packageReset _ => none
  | .scAnnouncement _ => none
  | .ueSend _ => none
  | .ueWrite _ => none
  | .ueRead _ => none
  | .ueCompletion _ _ _ _ => none
  | .ueSendArrival _ _ => none
  | .registerWrite _ _ => none
  | .storeBufferDrain _ _ => none
  | .treeOperationResult _ => none
  | .uncorrectableError _ => none
  | .laneTrainingLost _ _ => none
  | .hostMemoryWrite _ _ => none
  | .ueWriteArrival _ _ _ => none
  | .ueReadArrival _ _ _ => none
  | .ueRetransmission _ _ => none

/-- The instructions that take formats (04 R77: from FMT or from a prefix). -/
def Instr.takesFormat (i : Instr) : Bool :=
  match i with
  | .vfadd .. | .vfsub .. | .vfmul .. | .vfmin .. | .vfmax .. | .vfabs .. | .vfneg .. | .vfma .. | .vfms .. | .vfnma ..
  | .vfnms .. | .vcmpf .. | .vred .. | .vscan .. | .vcvt .. | .vquant .. | .vdeq .. | .vdec .. | .venc .. | .vbadd ..
  | .vrcp .. | .vrsq .. | .vexp2 .. | .vlog2 .. | .vsqrt .. | .vdiv .. | .mma .. | .mmah .. | .msta .. | .mscale ..
  | .msplit .. | .msfin .. => true
  | _ => false

end Sys2Proof
end

