-- ==== Sys2Proof/Machine/Sparse.lean ====
section
/-!
DEFINITION. Sparse tables: a list of numbered entries in ascending order, every number that is not listed holding a
default that the reader names. They hold the register files and the units of the package.
-/

namespace Sys2Proof.Machine

/-- A table of values by number; an entry that is not listed holds the reader's default. -/
abbrev SMap (V : Type) := List (Nat × V)

/-- The entry at `k`, `d` when it is not listed. -/
def SMap.get {V : Type} (m : SMap V) (k : Nat) (d : V) : V :=
  match m with
  | [] => d
  | (j, v) :: t => if j = k then v else SMap.get t k d

/-- The table with `v` at `k`. -/
def SMap.set {V : Type} (m : SMap V) (k : Nat) (v : V) : SMap V :=
  match m with
  | [] => [(k, v)]
  | (j, u) :: t => if k < j then (k, v) :: (j, u) :: t else if j = k then (k, v) :: t else (j, u) :: SMap.set t k v

/-- The table without an entry at `k`. -/
def SMap.del {V : Type} (m : SMap V) (k : Nat) : SMap V := m.filter (fun e => e.1 != k)

end Sys2Proof.Machine
end

