-- ==== Sys2Proof/Machine/State.lean ====
section
/-!
DEFINITION. The state of one package, as plain data: everything that the spec gives the machine (INVENTORY.md lists
each piece with its rule), and the state after reset.

Numbers of units: worker core c of cluster k of die d is core 512d + 16k + c, Mace core m of die d is 2048 + 8d + m,
Sumac core m of die d is 2080 + 4d + m (18 R282); slot Tt of core c is slot 4c + t. Resolver homes: cluster p is home p,
die d is home 128 + d, the package is home 132 (10 R171).

Readings and choices of the model (log): DESIGN CHOICE 1, 3, 4, 5, 6, 7, 8, 9, 10, 12, 63, 110, 138; DEDUCED 26, 30, 33,
34, 38, 56, 60, 62, 64, 71, 75, 80, 88, 100, 101, 103, 105, 126, 130, 133, 137, 151, 152, 156, 159, 160, 161, 162, 163,
166, 167, 168, 169.
-/

namespace Sys2Proof.Machine

open Sys2Proof

/-- Why the machine has no next step. -/
inductive Fault where
  /-- Raised by `step` when the management controller has removed the package's power (24 R366): no step exists.
  Safe: the spec gives a package without power no behaviour. -/
  | poweredOff
  deriving DecidableEq, Repr

/-- Why an instruction has no meaning in the model. -/
inductive Refusal where
  /-- Raised by an arm of the dispatch that is not modelled. Safe: nothing is claimed of such an instruction. -/
  | notModelled (mnemonic : String)
  deriving DecidableEq, Repr

/-- A fault as an instruction or an engine raises it (20 R299, R301): its code and the fields of its record. `size` is
log2 of the access size; `kind` 8 says that no access is concerned; `pc` is the PC of the record where it is that of the instruction
that issued an engine command. -/
structure Trap where
  code   : Nat
  addr   : Nat := 0
  kind   : Nat := 8
  order  : Nat := 0
  size   : Nat := 0
  data0  : Nat := 0
  data1  : Nat := 0
  info   : Nat := 0
  remote : Bool := false
  engine : Bool := false
  pc     : Option Nat := none
  deriving DecidableEq, Repr

/-- A fault record that is held in its core until the trap queue has room (20 R302). -/
structure FaultRec where
  slot : Nat
  vi   : Nat
  pc   : Nat
  word : Nat
  trap : Trap
  deriving DecidableEq, Repr

/-- A record that awaits its reply: its trap queue, its SEQ (none while it is held), its code (20 R304); of a PEER_LOST the epoch in which
its node stood when it was posted (25 R369). -/
structure Posted where
  die   : Nat
  seq   : Option Nat
  trap  : Trap
  epoch : Nat := 0
  deriving DecidableEq, Repr

/-- An event entry of a resolver: its home, its index and the generation that was meant (10 R170, R171). -/
structure EvRef where
  home : Nat
  idx  : Nat
  gen  : Nat
  deriving DecidableEq, Repr

/-- A remote request whose answer a slot waits for: its sequence number, its node, the address of its access. -/
structure Ask where
  seq  : Nat
  node : Nat
  addr : Nat
  deriving DecidableEq, Repr

/-- What an interlocked slot waits for (02 R45). -/
inductive Wait where
  /-- The answer of an instruction that the slot has issued: the instruction is kept with the wait. -/
  | answer (i : Instr)
  /-- The answers to the requests of a remote load, atomic or ACAS2: one request, or one for each remote element of a vector load. -/
  | remote (i : Instr) (asks : List Ask)
  /-- A tree operation performed, its result on the way back (16 R273): the register and the value. -/
  | tree (d : Nat) (x : Word)
  /-- A fence's drain: its kind and its scope (08 R157). -/
  | fence (kind scope : Nat)
  /-- TEXIT with engine commands outstanding, and its retain operand (02 R49). -/
  | texit (retain : Nat)
  /-- Instruction-cache lines of a range on their way out: scope, address space, start, length (20 R317). -/
  | icinv (scope vi a n : Nat)
  /-- A resource that must free before the instruction can be accepted; it is tried again at each turn. -/
  | busy
  deriving DecidableEq, Repr

/-- The state of a slot (02 R25). Halted is the core's flag; Pre-empted is the state of a task off the core, and `leaving` that of a team or
a stage that has come to its CTXSAVE and leaves its core with the rest of its unit (02 R39; 14 R255). -/
inductive SlotSt where
  | free
  | reserved (vi id x y z : Nat)
  | running
  | interlocked (w : Wait)
  | offering
  | faulted
  | lingering
  | leaving
  deriving DecidableEq, Repr

/-- A repeat frame (04 R87 to R90): the captured words, the count, the staggers, the next position and iteration, and
the address of the RPT. -/
structure Frame where
  words : List Nat
  count : Nat
  dd    : Nat
  da    : Nat
  db    : Nat
  rpos  : Nat
  ridx  : Nat
  base  : Nat
  deriving DecidableEq, Repr

/-- One position of an offer (10 R180, R196): the event slot (32 for a barrier), the event, the side of a channel
(0 none, 1 get, 2 put), and the descriptor's role and buffer (R176); of a SYNC the buffer holds the DOMAIN value (R201). -/
structure OPos where
  pos  : Nat
  es   : Nat
  name : Nat
  ev   : EvRef
  side : Nat
  role : Nat
  buf  : Nat
  deriving DecidableEq, Repr

/-- A claim that an offer unit has granted or keeps waiting (10 R184): the event, its side for a channel, its name, its enable
stamp. -/
structure Claim where
  ev    : EvRef
  side  : Nat
  name  : Nat
  stamp : Nat
  deriving DecidableEq, Repr

/-- An offer of a slot as its offer unit holds it (10 R180, R184, R188, R190). `cause`: 0 OFFER, 1 OFFERT, 2 OFFERS,
3 GET, 4 PUT, 5 SYNC. `left` is what remains of an OFFERT limit, in cycles. `since` is the timestamp from which the offer has not been
suspended; `wdr` counts the homes that have still to take its withdrawal, where it has been issued (R183, R188, R189). -/
structure Offer where
  id        : Nat
  cause     : Nat
  d         : Nat
  pos       : List OPos
  left      : Option Nat
  from_     : Nat
  handler   : Nat
  claim     : Option Claim
  next      : Option Claim
  waiters   : List Claim
  since     : Nat := 0
  wdr       : Option Nat := none
  deriving DecidableEq, Repr

/-- A member of a batch that has been sent: its node, the agent that sent it, its sequence number. -/
structure Member where
  node : Nat
  src  : Nat
  seq  : Nat
  deriving DecidableEq, Repr

/-- A batch of remote stores (08 R165): its tag, the nodes it touched, each with the error bits known of it, and its members. -/
structure Batch where
  tag     : Nat
  nodes   : List (Nat × Nat)
  members : List Member := []
  deriving DecidableEq, Repr

/-- A remote store, or a remote atomic without a result, whose acknowledgement is not back (08 R157): its sequence number, its node, its
class (0 a store, 3 an atomic), the tag of its batch, and whether that batch is closed. -/
structure Sent where
  seq    : Nat
  node   : Nat
  cls    : Nat
  tag    : Nat
  closed : Bool := false
  deriving DecidableEq, Repr

/-- A close under way (08 R166): the batch as it stood, the cell of the summary word, the event to offer, the address of the word, and the
sequence number before which the slot's remote stores precede it. -/
structure Close where
  batch  : Batch
  cell   : Nat
  ev     : Option EvRef
  addr   : Nat
  before : Nat
  deriving DecidableEq, Repr

/-- A remote append under way (08 R168): the cell of its status word, its event, its target node, its source agent and its packet
number; the status once it is known; the address of the word; the packet while it is held back until the slot's remote stores before
`before` are acknowledged (18 R289). -/
structure Append where
  cell   : Nat
  ev     : Option EvRef
  node   : Nat
  src    : Nat
  seq    : Nat
  status : Option Nat
  addr   : Nat
  pkt    : Option Packet
  before : Nat
  deriving DecidableEq, Repr

/-- A local store, or a local atomic without a result, that waits in the store buffer (02 R45): the cells it writes with
their bytes, and for an atomic its operation, operand and compare value;
`parts` holds the addresses of the elements of a vector store (06 R133). -/
structure SbEntry where
  addr  : Nat
  cells : List Nat
  data  : Nat
  op    : Option (Nat × Nat)
  order : Nat
  cmp   : Nat
  parts : List Nat
  deriving DecidableEq, Repr

/-- A settle under way (16 R269): the node and the event to offer. -/
structure Settle where
  node : Nat
  ev   : Option EvRef
  deriving DecidableEq, Repr

/-- A bound stream register (12 R233 to R236). `moved` counts beats that the unit has moved, `used` those that the
slot has read or given, `buf` holds those between. `st`: 1 running, 2 complete, 3 failed, 4 waits to push a panel,
5 waits for the reply of a posted record. `given` holds the slot's INSTRET at the last beat of each panel that it has given. -/
structure Stream where
  kind    : Nat
  dir     : Nat
  total   : Nat
  base    : Nat
  ring    : Nat
  peerq   : Nat
  join    : Nat
  strides : List Int
  counts  : List Nat
  ev      : Option EvRef
  pc      : Nat
  moved   : Nat
  used    : Nat
  buf     : List Nat
  panel   : List Nat
  st      : Nat
  fault   : Option Nat
  offered : Bool
  posted  : Option Posted
  born    : Nat
  given   : List Nat := []
  deriving DecidableEq, Repr

/-- A decode table of a core (06 R106 to R108): its entries, its descriptor, the launch that owns it. -/
structure Table where
  entries : SMap Nat := []
  desc    : Nat := 0
  owner   : Option (Nat × Nat) := none
  age     : Nat := 0
  deriving DecidableEq, Repr

/-- A task placed on a slot or pre-empted (02 R27 to R30; 12 R207; 22 R327). `wide` holds s of wide mode (12 R227) as the accepted
commands leave it, `wideNow` as those that have begun leave it;
`part` is the team, the stage or zero; `inst` the instance of a co-launch. -/
structure Task where
  vi     : Nat
  id     : Nat
  kind   : Nat
  x      : Nat
  y      : Nat
  z      : Nat
  group  : Nat
  part   : Nat
  inst   : Nat
  frame  : Nat
  tcm    : Nat
  bank   : Nat
  tiles  : List Nat
  wide   : Option Nat
  wideNow : Option Nat
  from_  : Nat
  used   : Nat
  order  : Nat
  park   : Nat
  recAt  : Nat
  deriving DecidableEq, Repr

/-- What an accepted matrix or slice command does (12 R221 to R232). `acc` is the physical tile of the cluster, `tiles`
the four tiles of a wide tile. -/
inductive MxOp where
  | mrpub (n m : Nat)
  | mrpop (n m : Nat)
  | mma (keep : Bool) (acc ra rb fa fb fr bsm : Nat)
  | mzero (acc : Nat)
  | mlda (acc off : Nat)
  | msta (acc off fr rnd : Nat)
  | mscale (sdb fa : Nat)
  | msplit (sdb fa n s : Nat)
  | msmm (par save kb pass : Nat) (began : Bool)
  | msfin (outOff aOff bOff fr rnd s : Nat)
  deriving DecidableEq, Repr

/-- An accepted matrix command (12 R213): the issuing slot, its tiles, the address of its instruction, its event, and
the decode tables as they stood (R222). `born` is the slot's INSTRET then. -/
structure MxCmd where
  op    : MxOp
  slot  : Nat
  tiles : List Nat
  pc    : Nat
  ev    : Option EvRef
  born  : Nat
  tabA  : Table := {}
  tabB  : Table := {}
  deriving DecidableEq, Repr

/-- A channel of a cluster whose event is homed on another node (10 R171, R175): its tenant, the launch that made it, whether it
persists, its name, its channel number. -/
structure FarChan where
  vi      : Nat
  launch  : Nat
  persist : Bool
  name    : Nat
  chan    : Nat
  deriving DecidableEq, Repr

/-- What the task of a slot leaves dormant while the resident handler runs there (04 R78, R90; 20 R304, R305): a pending prefix, a
repeat frame, a word to be executed again, its INSTRET, and the PC at entry. -/
structure Dormant where
  pfx     : Option Nat
  frame   : Option Frame
  again   : Option Nat
  instret : Nat
  entry   : Nat
  deriving DecidableEq, Repr

/-- A slot (02 R24). `newChan` is the channel, as yet without a name, of an EVNEW whose answer is not back (10 R175). `dorm`, `limit`, `cut`,
`held`, `want`, `accDue`, `keptA` and `keptB` are what a taken PREEMPT request puts by for the task: what lies dormant, what remains of
an OFFERT limit with the PC of the OFFERT, the blocking offer that was withdrawn (20 R306), held matrix commands (12 R215),
whether it held a lease or wanted one (R206), whether its tiles have still to be saved (R208), the decode tables of its launch
(06 R107). -/
structure Slot where
  st       : SlotSt := .free
  pc       : Nat := 0
  s        : SMap Word := []
  v        : SMap Vec := []
  k        : SMap Pred := []
  shadow   : SMap Word := []
  fmt      : Word := 0
  flags    : Word := 0
  rmode    : Word := 0
  domain   : Word := 0
  pfx      : Option Nat := none
  frame    : Option Frame := none
  soh      : Bool := false
  instret  : Nat := 0
  last     : Nat := 0
  lstat    : Nat := 0
  offer    : Option Offer := none
  susp     : Option Offer := none
  stand    : Option Offer := none
  armNext  : Option Offer := none
  ready    : Option Nat := none
  readyPc  : Nat := 0
  mode     : Bool := false
  pmode    : Bool := false
  inh      : Bool := false
  epc      : Word := 0
  ecause   : Nat := 0
  vbase    : Word := 0
  saveptr  : Word := 0
  pscratch : Word := 0
  evb      : SMap Nat := []
  tag      : Nat := 0
  batches  : List Batch := []
  closes   : List Close := []
  appends  : List Append := []
  sent     : List Sent := []
  seq      : Nat := 0
  sb       : List SbEntry := []
  report   : Option Trap := none
  reports  : Nat := 0
  mflags   : Nat := 0
  settles  : List Settle := []
  streams  : SMap Stream := []
  again    : Option Nat := none
  iw       : Nat := 0
  posted   : Option Posted := none
  preReq   : Bool := false
  blockDue : Option Nat := none
  retain   : Nat := 0
  task     : Option Task := none
  vi       : Nat := 0
  held     : List MxCmd := []
  want     : Bool := false
  dorm     : Option Dormant := none
  limit    : Option (Nat × Nat) := none
  cut      : Option Offer := none
  newChan  : Option FarChan := none
  accDue   : Bool := false
  keptA    : Option Table := none
  keptB    : Option Table := none
  deriving DecidableEq, Repr

/-- A core (01 R8, R12): its protection unit (08 R139), its decode tables (06 R106), its slots in the order of their turns (01 R9), and
what a stop fixes (20 R313, R314). `visel` is Sumac's (20 R296); `brkAt` is the die cycle of a breakpoint, `freed` the timestamp at
which a halt last ended (10 R184, R187), `haltAt` the cycle of its slots at which the halt began (22 R333). -/
structure Core where
  trgn     : SMap Word := []
  tabA     : Table := {}
  tabB     : Table := {}
  rot      : List Nat := [0, 1, 2, 3]
  halted   : Bool := false
  brk      : Bool := false
  retired  : Nat := 0
  msgSent  : Nat := 0
  msgRecv  : Nat := 0
  haltInst : Nat := 0
  haltMsg  : Word := 0
  cause    : Word := 0
  visel    : Nat := 0
  brkAt    : Nat := 0
  freed    : Nat := 0
  haltAt   : Nat := 0
  deriving DecidableEq, Repr

/-- A matrix ring (12 R209 to R211): kind 0 released, 1 A, 2 B; `depth` is D; counts P, C, P′, C′. -/
structure Ring where
  kind  : Nat := 0
  depth : Nat := 0
  base  : Nat := 0
  owner : Option (Nat × Nat) := none
  p     : Nat := 0
  c     : Nat := 0
  pr    : Nat := 0
  cr    : Nat := 0
  deriving DecidableEq, Repr

/-- An accepted copy command (12 R237 to R242). `st`: 0 waits for its queue, 1 runs, 2 waits to push, 3 waits for the
reply of a posted record, 4 has moved everything. `done` counts bytes moved, `fill` bytes gathered for the next
entry of a ring. -/
structure CpCmd where
  op      : Nat
  slot    : Nat
  pc      : Nat
  ev      : Option EvRef
  src     : Nat
  dst     : Nat
  nrow    : Nat
  len     : Nat
  dstride : Int
  sstride : Int
  idx     : Nat
  ibound  : Nat
  dkind   : Nat
  ring    : Nat
  mask    : Nat
  evs     : List (Nat × Option EvRef)
  team    : Nat
  st      : Nat
  done    : Nat
  fill    : List Nat
  rowIdx  : Nat
  posted  : Option Posted
  born    : Nat
  deriving DecidableEq, Repr

/-- The lease arbiter of a cluster (12 R203 to R205). -/
structure Lease where
  ptr     : Nat := 63
  holder  : Option Nat := none
  count   : Nat := 0
  from_   : Nat := 0
  reqs    : List (Nat × EvRef) := []
  offered : Option (Nat × Nat) := none
  deriving DecidableEq, Repr

/-- A cluster: power (24 R364), lease, matrix engine, copy engine, rings, channel numbers in use (10 R173). `lost` counts cycles in
which its clock stood still, `woke` is the timestamp at which it last came to C0. -/
structure Cluster where
  cur    : Nat := 0
  req    : Nat := 0
  err    : Bool := false
  refused : Bool := false
  lost   : Nat := 0
  lease  : Lease := {}
  mx     : List MxCmd := []
  rings  : SMap Ring := []
  copies : SMap (List CpCmd) := []
  chans  : List Nat := []
  mrb    : SMap (List (Nat × Nat)) := []
  woke   : Nat := 0
  far    : List FarChan := []
  deriving DecidableEq, Repr

/-- An entry of a resolver (10 R170 to R175). `parties` are party entries with physical places; `plan` and `efmt` as in
R174; `mrb` is the Tarn offset and `cl` the cluster of a channel; `barrier` the key of a domain barrier (R201): a launch
or an instance, and the DOMAIN value. -/
structure Ev where
  gen     : Nat := 0
  live    : Bool := false
  broken  : Bool := false
  persist : Bool := false
  plan    : Nat := 0
  efmt    : Nat := 0
  parties : List Nat := []
  rooted  : Bool := false
  root    : Nat := 0
  len     : Nat := 0
  depth   : Nat := 0
  mrb     : Nat := 0
  cl      : Nat := 0
  chan    : Option Nat := none
  occ     : Nat := 0
  vi      : Nat := 0
  launch  : Nat := 0
  barrier : Option (Nat × Nat × Nat) := none
  deriving DecidableEq, Repr

/-- A registered offer at its home (10 R183): the party, the event, the side of a channel, the cycle and the
timestamp of its arrival, the offer it belongs to (0 for an engine offer), whether every event of the offer has this home, its role and its
buffer. -/
structure Reg where
  party  : Nat
  idx    : Nat
  gen    : Nat
  side   : Nat
  arr    : Nat
  time   : Nat
  offId  : Nat
  single : Bool
  pos    : Nat
  role   : Nat
  buf    : Nat
  deriving DecidableEq, Repr

/-- A claim attempt of a home (10 R184): the event and its side, its enable stamp, the parties asked so far, those that
have granted with the cycle in which their grant came; `waits` says that it was refused and awaits an announcement. -/
structure Try where
  idx     : Nat
  side    : Nat
  stamp   : Nat
  asked   : List Nat
  granted : List (Nat × Nat)
  waits   : Bool
  deriving DecidableEq, Repr

/-- How things stood at the start of a window of a home (10 R179; 20 R303; 24 R350), with the timestamps since when: the items in each
channel's ring, since when it has not been empty and since when not full; the trap agent's offer; the Mace slots that have a block. -/
structure Snap where
  window : Nat
  cnt    : SMap (Nat × Nat × Nat)
  trap   : Option Nat
  blocks : SMap Nat
  deriving DecidableEq, Repr

/-- A resolver: rotation pointer, window to resolve next, entries, registrations, claim attempts, and the starts of windows at which
what its agents offer changed. -/
structure Resolver where
  ptr     : Nat := 0
  window  : Nat := 0
  evs     : SMap Ev := []
  regs    : List Reg := []
  tries   : List Try := []
  snaps   : List Snap := []
  deriving DecidableEq, Repr

/-- What an event message says (10 R183, R184). Slots are named by number, homes by home number. -/
inductive MsgBody where
  /-- A position of an offer reaches a home. -/
  | register (party idx gen side offId : Nat) (single : Bool) (pos role buf : Nat)
  /-- An engine offer reaches a home. -/
  | engine (party idx gen : Nat)
  /-- A domain barrier's offer (R201). -/
  | barrier (slot offId : Nat) (key : Nat × Nat × Nat) (parties : List Nat)
  /-- An offer is withdrawn from a home. -/
  | withdraw (slot offId : Nat)
  /-- A home has taken the withdrawal of an offer. -/
  | gone (slot offId : Nat)
  /-- An engine offer is withdrawn (the lease arbiter's, R204). -/
  | pull (party idx gen : Nat)
  | claim (slot offId : Nat) (c : Claim)
  | answer (idx side slot : Nat) (granted told : Bool)
  | revoke (idx side slot : Nat)
  | release (slot offId : Nat) (ev : EvRef) (side : Nat)
  | commit (slot offId pos status : Nat)
  | free (idx side : Nat)
  /-- A router has dropped a message of an offer (22 R331). -/
  | denied (slot offId : Nat)
  deriving DecidableEq, Repr

/-- An event message in transit: sender and receiver (class E keeps their order, 24 R345). -/
structure Msg where
  src  : Nat
  dst  : Nat
  body : MsgBody
  deriving DecidableEq, Repr

/-- An entry of the tile table (16 R262). -/
structure Tile where
  count : Nat := 0
  vi    : Nat := 0
  leaf  : Nat := 0
  deriving DecidableEq, Repr

/-- A block of a reduction queue, published and not yet delivered (24 R350): its Mace slot, its ring and record, what its
delivery writes. -/
structure Block where
  slot  : Nat
  ring  : Nat
  start : Nat
  lva   : Nat
  len   : Nat
  idx   : Nat
  deriving DecidableEq, Repr

/-- A compute die: its cycles in fifths (P0 to P3 run at 5, 4, 3 and 2 fifths of the reference clock, 24 R364), its power
registers, its Mere control, its trap queue (20 R296, R302), its tile table, its per-VI registers, and the blocks of its reduction queue in publication order. `temp` is TEMP.T,
0 after reset (DESIGN CHOICE, log 130). -/
structure Die where
  cyc5   : Nat := 0
  pcur   : Nat := 0
  preq   : Nat := 0
  off    : Bool := false
  offReq : Bool := false
  offErr : Bool := false
  refused : Bool := false
  temp   : Nat := 0
  mscr   : Word := 0
  tqbase : Word := 0
  tqtail : Nat := 0
  tqhead : Nat := 0
  held   : List FaultRec := []
  tiles  : SMap Tile := []
  mstw   : SMap Word := []
  atomf  : SMap Nat := []
  quota  : SMap Nat := []
  blocks : List Block := []
  deriving DecidableEq, Repr

/-- A command queue of a VI (22 R321). -/
structure Queue where
  base : Word := 0
  ctl  : Word := 0
  tail : Nat := 0
  head : Nat := 0
  deriving DecidableEq, Repr

/-- A launch (22 R324 to R326; `far` holds the nodes on which its tasks have made events, 10 R172): the fields of its record, what has been dispatched and retired, its frames in use, its
source (0 a host queue with its tag, 1 LAUNCH with the slot and the event, 2 a ring record), and the arrival binding. -/
structure Launch where
  id      : Nat
  kind    : Nat
  cls     : Nat
  tcm     : Nat
  nacc    : Nat
  gsize   : Nat
  nframe  : Nat
  entry   : Nat
  ex      : Nat
  ey      : Nat
  ez      : Nat
  argblk  : Word
  args    : List Word
  frames  : Nat
  aux     : Nat
  donew   : Nat
  src     : Nat
  queue   : Nat
  srcTag  : Word
  srcSlot : Nat
  srcEv   : Option EvRef
  group   : Nat
  doneIn  : List Nat
  out     : Nat
  retired : Nat
  inUse   : List Nat
  fault   : Bool
  cancel  : Bool
  ended   : Option Nat
  ring    : Option Nat
  seqn    : Nat
  arrived : List (Nat × Nat × Nat)
  far     : List Nat := []
  deriving DecidableEq, Repr

/-- A chain (14): the channels' words of its descriptor, form, pending target, core budget, held flags, active stage,
cluster, channel events, switch count, and the window of its cluster's resolver in which the queue agents offer although a switch is
pending (R253); of a folded chain it says that the active stage may execute its GET or PUT. -/
structure Chain where
  vi       : Nat
  id       : Nat
  nstage   : Nat
  chan     : List Nat
  fixed    : Bool
  folded   : Bool
  pend     : Option Bool
  budget   : Nat
  held     : List Nat
  active   : Nat
  cl       : Nat
  evs      : List EvRef
  switches : Nat
  openWin  : Option Nat
  live     : List Nat
  deriving DecidableEq, Repr

/-- A unit of accounting that the roll-up engine still owes (16 R266): its leaf, who wrote (a slot, or a number from 2^32 on), the nodes that
have still to gain it, lowest first, and the whole accounting set. -/
structure Bump where
  leaf : Nat
  who  : Nat
  path : List Nat
  all  : List Nat
  deriving DecidableEq, Repr

/-- A CCMOVE that a later write may be concurrent with (16 R266): the node moved, the slot that moved it, the path of the parent that it
left. -/
structure Moved where
  node : Nat
  who  : Nat
  up   : List Nat
  deriving DecidableEq, Repr

/-- A virtual interface (22 R321; 24 R357; 20 R296; 22 R330); `made` says that it has been created (16 R263). `moved` holds its moves, and
`rolled` how many units of each leaf and writer have reached every node of their sets (16 R266). `charged` holds the slot-cycles charged at
timestamp `chargeAt`, before which the deficit was `chargeBase` (22 R339); `spill` the event messages in CTXBUF, each with the order of
pre-emption of its task and its place (20 R307). -/
structure Vi where
  tencfg  : Word := 0
  deficit : Int := 0
  charged : List Int := []
  chargeAt : Nat := 0
  chargeBase : Int := 0
  spill   : List (Nat × Nat × Msg) := []
  ptbr    : Word := 0
  nodetab : Word := 0
  ctxbuf  : Word := 0
  queues  : SMap Queue := []
  rotq    : Nat := 0
  cqbase  : Word := 0
  cqctl   : Word := 0
  cqtail  : Nat := 0
  cqhead  : Nat := 0
  cqie    : Bool := false
  waiting : List (Word × Word) := []
  nextId  : Nat := 1
  place   : Nat := 0
  turn    : SMap Nat := []
  nonce   : SMap Word := []
  raddr   : Word := 0
  go      : Bool := false
  owed    : List Bump := []
  moved   : List Moved := []
  rolled  : SMap Nat := []
  made    : Bool := false
  deriving DecidableEq, Repr

/-- A context that CTXSAVE has written (20 R306): the slot as CTXSAVE kept it, the slot it ran on or runs on now, the order of
pre-emption, the bytes that the check word covers, the check word, the TCM image of a Lingering team (02 R38); `out` says that the
task is Pre-empted and off the core, `lost` that its save is lost (R308). -/
structure Pre where
  slot  : Slot
  home  : Nat
  order : Nat
  bytes : List Nat
  check : Word
  image : List Nat
  out   : Bool
  lost  : Bool := false
  deriving DecidableEq, Repr

/-- A record of a byte ring (08 R149, R150): its start, its length, its type, its USER field, the address of its header, its stage
(1 written, 2 published, 3 launched, delivered or passed), and whether its space is free; the event, the tenant and the block of its
registration when it was reserved (24 R349). -/
structure RingRec where
  start   : Nat
  len     : Nat
  typ     : Nat
  user    : Nat
  lva     : Nat
  stage   : Nat
  done    : Bool
  event   : Nat
  vi      : Nat
  brb     : Nat
  deriving DecidableEq, Repr

/-- A fabric port (24 R340, R343, R344): trained lanes, replay state, sequence numbers, replay buffer, the messages whose receive
buffers are in use, the MIN in force; the flit whose replay has failed `fails` times in a row; the messages that wait for a credit, and
those whose credits are in use. -/
structure Port where
  lanes   : List Nat := []
  down    : Bool := false
  replay  : Bool := false
  replays : Nat := 0
  peer    : Nat := 0xFFF
  pmin    : Nat := 0
  minNow  : Nat := 0
  txSeq   : Nat := 0
  rxSeq   : Nat := 0
  buf     : List Flit := []
  fails   : Nat := 0
  failSeq : Nat := 0
  wait    : List Packet := []
  out     : List Packet := []
  rx      : List Packet := []
  deriving DecidableEq, Repr

/-- A registration entry (24 R347), the records that its ring still holds, the launch that binds it, and CONS where the network
interface owns it (08 R150; 24 R351). -/
structure Regn where
  w0     : Word := 0
  w1     : Word := 0
  w2     : Word := 0
  recs   : List RingRec := []
  launch : Option Nat := none
  cons   : Option Nat := none
  deriving DecidableEq, Repr

/-- A send queue of the Ultra Ethernet engine and its requests in progress (24 R360 to R363): index, the eight words of
the request, packets unacknowledged (retransmissions counted), status when complete and the record not yet appended. -/
structure SendQ where
  base : Word := 0
  ctl  : Word := 0
  db   : Word := 0
  head : Nat := 0
  work : List (Nat × List Word × Nat) := []
  recs : List (Nat × Nat × Nat × Nat) := []
  deriving DecidableEq, Repr

/-- An endpoint (24 R360). -/
structure Endpt where
  w0 : Word := 0
  a0 : Word := 0
  a1 : Word := 0
  w3 : Word := 0
  deriving DecidableEq, Repr

/-- What the Ultra Ethernet engine has sent to a peer (24 R358, R360, R361): the OP, 4 for the answer to a READ, or 5 for the refusal of a
SEND (R366); whether it is of reliable ordered delivery, the peer's address and endpoint, the ports over which its packets are sprayed;
endpoint, offset, RKEY, bytes. -/
structure UeMsg where
  op   : Nat
  rod  : Bool
  peer : Nat
  pep  : Nat
  ports : Nat
  ep   : Nat
  off  : Nat
  rkey : Nat
  data : List Nat
  deriving DecidableEq, Repr

/-- A SEND that has arrived and that its ring has refused: it is tried again (24 R362). `rod` says that it was sent in order. -/
structure UeIn where
  ep   : Nat
  rod  : Bool
  data : List Nat
  deriving DecidableEq, Repr

/-- A leaf, or the entry of a table above one, that a TLB (by core) or the ingress translator (holder 3000) holds (20 R298): the entry
and the range that it covers. An entry whose LEAF is 0 names a table. -/
structure Leaf where
  holder : Nat
  vi     : Nat
  base   : Nat
  size   : Nat
  entry  : Nat
  deriving DecidableEq, Repr

/-- A word that a quad's instruction cache holds (04 R58): the quad, the address space (64 for untranslated), the
address, the word. -/
structure ICell where
  quad : Nat
  vi   : Nat
  addr : Nat
  word : Nat
  deriving DecidableEq, Repr

/-- An SC operation that is announced (18 R282): its window, its core number, its issue index, its slot. -/
structure ScOp where
  window : Nat
  core   : Nat
  idx    : Nat
  slot   : Nat
  deriving DecidableEq, Repr

/-- Atomics of store buffers that a router merges, each named by its slot and its place there, in the order of the merging (08 R160). -/
inductive Merge where
  | one (slot i : Nat)
  | two (a b : Merge)
  deriving DecidableEq, Repr

/-- What happens next: a core issues, another agent takes a step, or something that no program sees directly (a TLB or an
instruction cache takes or drops an entry, the host writes its own memory, answers come late or stores wait, a router merges atomics, the
acknowledgement of a remote store comes back, a peer frees receive buffers, a link finds its peer, a node resets, a SEND that was refused
is tried again, the host reads a register, a function meets an AER error). -/
inductive Act where
  | issue (core : Nat)
  | event (i : Instr)
  | tlbFill (core vi va : Nat)
  | tlbTable (core vi va size : Nat)
  | tlbDrop (n : Nat)
  | icFill (slot addr : Nat)
  | icDrop (n : Nat)
  | hostStore (addr : Nat) (bytes : List Nat)
  | mode (late hold : Bool)
  | merge (m : Merge)
  | mergeIn (vi : Nat) (ks : List Nat)
  | ack (slot seq : Nat)
  | credit (port i : Nat)
  | attach (port node : Nat)
  | nodeReset (node : Nat)
  | ueRetry (i : Nat)
  | barRead (off : Nat)
  | aer (vi : Nat)
  deriving DecidableEq, Repr

/-- One turn of the agenda: the reference ticks that pass before it, and the step. -/
structure Turn where
  dt  : Nat
  act : Act
  deriving DecidableEq, Repr

/-- The package. `kept` holds cores on which a place has been freed for a launch, with its tenant and its id (02 R52); `aims` the core or
cluster that the dispatcher clears for an urgent unit, after its tenant and launch (22 R332); `parked` the writes of the device's own agents
that wait in a router for a unit that is off, with the cells and the bytes, a packet of the host's marked (24 R365); `epochs` counts the resets of each node (25 R369); `unitVi` holds the
tenant under which an offer unit of another node last offered (24 R345). -/
structure State where
  time     : Nat
  node     : Nat
  power    : Bool
  cur      : Nat
  agenda   : List Turn
  fresh    : Nat
  late     : Bool
  hold     : Bool
  slots    : SMap Slot
  cores    : SMap Core
  clusters : SMap Cluster
  homes    : SMap Resolver
  dies     : SMap Die
  vis      : SMap Vi
  mem      : List Host.Cell
  poison   : List Nat
  tlb      : List Leaf
  icache   : List ICell
  sc       : List ScOp
  msgs     : List Msg
  nextOff  : Nat
  launches : List (Nat × Launch)
  chains   : List Chain
  pre      : List Pre
  quantum  : Nat
  turn     : SMap Nat
  kept     : List (Nat × Nat × Nat)
  aims     : List (Nat × Nat × Nat)
  parked   : List (Bool × List Nat × List Nat)
  epochs   : SMap Nat
  unitVi   : SMap Nat
  ports    : SMap Port
  routes   : SMap Word
  regns    : SMap Regn
  ingress  : SMap (List Packet)
  cache    : SMap (List (Nat × Nat × Nat))
  errs     : List (Nat × Nat × Nat × Nat)
  closing  : List Packet
  invq     : Word
  invdb    : Nat
  invack   : Nat
  inverr   : Bool
  inval    : Option (Nat × Nat × Nat × Nat)
  smsel    : Word
  hostRead : Word
  sendqs   : SMap SendQ
  endpts   : SMap Endpt
  ueOut    : List UeMsg
  ueIn     : List UeIn
  therm    : Word
  irqs     : List (Nat × Nat)
  booted   : Bool
  deriving DecidableEq, Repr

/-- Slot `n` after reset (20 R295, R303; 24 R350): a worker slot is Free; a Sumac slot runs, privileged, with e31 bound
to its trap event (index 4m + t of the die's resolver); a Mace slot runs with e30 bound to its block event (index
16 + 4m + t). DESIGN CHOICE (3, 6, 12): the two indices, and that Mace slots run from reset. -/
def Slot.reset (n : Nat) : Slot :=
  let c := n / 4
  if c < 2048 then {}
  else if c < 2080 then
    let j := c - 2048
    let nm := 2 * 2 ^ 30 + (j / 8) * 2 ^ 14 + 16 + 4 * (j % 8) + n % 4
    { st := .running, evb := [(30, nm)] }
  else
    let j := c - 2080
    let nm := 2 * 2 ^ 30 + (j / 4) * 2 ^ 14 + 4 * (j % 4) + n % 4
    { st := .running, mode := true, evb := [(31, nm)] }

/-- The resolver of home `h` after reset: a die's holds the trap events and the block events of its cores (20 R303;
24 R350), every other is empty. The agents that the party list of R173 does not name, the trap agent and the reduction
queue agent, stand as kinds 12 and 13. -/
def Resolver.reset (h : Nat) : Resolver :=
  if 128 ≤ h ∧ h < 132 then
    let d := h - 128
    { evs :=
        ((List.range 16).map fun j =>
          (j, ({ live := true, persist := true,
                 parties := [9 * 2 ^ 28 + d * 2 ^ 11 + j, 12 * 2 ^ 28 + d * 2 ^ 11] } : Ev))) ++
        ((List.range 32).map fun j =>
          (16 + j, ({ live := true, persist := true,
                      parties := [8 * 2 ^ 28 + d * 2 ^ 11 + j, 13 * 2 ^ 28 + d * 2 ^ 11] } : Ev))) }
  else {}

/-- The package right after reset. -/
def State.reset : State where
  time := 0
  node := 0
  power := true
  cur := 8320
  agenda := []
  fresh := 0
  late := false
  hold := false
  slots := []
  cores := []
  clusters := []
  homes := []
  dies := []
  vis := []
  mem := []
  poison := []
  tlb := []
  icache := []
  sc := []
  msgs := []
  nextOff := 1
  launches := []
  chains := []
  pre := []
  quantum := 0x10000
  turn := []
  kept := []
  aims := []
  parked := []
  epochs := []
  unitVi := []
  ports := []
  routes := []
  regns := []
  ingress := []
  cache := []
  errs := []
  closing := []
  invq := 0
  invdb := 0
  invack := 0
  inverr := false
  inval := none
  smsel := 0
  hostRead := 0
  sendqs := []
  endpts := []
  ueOut := []
  ueIn := []
  therm := 0x6903
  irqs := []
  booted := true

end Sys2Proof.Machine
end

