-- ==== Sys2Proof/Machine/Access.lean ====
section
/-!
DEFINITION. The accessors: every register and every unit is read and written here, and nowhere else.

Readings and choices of the model (log): DESIGN CHOICE 5, 9, 13; DEDUCED 17, 80, 118, 141.
-/

namespace Sys2Proof.Machine

open Sys2Proof

/-- Slot `n`. -/
def State.slot (s : State) (n : Nat) : Slot := s.slots.get n (Slot.reset n)

/-- The state with slot `n` replaced. -/
def State.setSlot (s : State) (n : Nat) (x : Slot) : State := { s with slots := s.slots.set n x }

/-- The state with slot `n` changed by `f`. -/
def State.modSlot (s : State) (n : Nat) (f : Slot → Slot) : State := s.setSlot n (f (s.slot n))

/-- Core `c`. -/
def State.core (s : State) (c : Nat) : Core := s.cores.get c {}

/-- The state with core `c` changed by `f`. -/
def State.modCore (s : State) (c : Nat) (f : Core → Core) : State := { s with cores := s.cores.set c (f (s.core c)) }

/-- Cluster `p`, by its physical number. -/
def State.cluster (s : State) (p : Nat) : Cluster := s.clusters.get p {}

/-- The state with cluster `p` changed by `f`. -/
def State.modCluster (s : State) (p : Nat) (f : Cluster → Cluster) : State :=
  { s with clusters := s.clusters.set p (f (s.cluster p)) }

/-- The resolver of home `h`. -/
def State.home (s : State) (h : Nat) : Resolver := s.homes.get h (Resolver.reset h)

/-- The state with the resolver of home `h` changed by `f`. -/
def State.modHome (s : State) (h : Nat) (f : Resolver → Resolver) : State :=
  { s with homes := s.homes.set h (f (s.home h)) }

/-- Die `d`. -/
def State.die (s : State) (d : Nat) : Die := s.dies.get d {}

/-- The state with die `d` changed by `f`. -/
def State.modDie (s : State) (d : Nat) (f : Die → Die) : State := { s with dies := s.dies.set d (f (s.die d)) }

/-- Virtual interface `v`. -/
def State.vif (s : State) (v : Nat) : Vi := s.vis.get v {}

/-- The state with virtual interface `v` changed by `f`. -/
def State.modVi (s : State) (v : Nat) (f : Vi → Vi) : State := { s with vis := s.vis.set v (f (s.vif v)) }

/-- Fabric port `p`. -/
def State.port (s : State) (p : Nat) : Port := s.ports.get p {}

/-- The state with port `p` changed by `f`. -/
def State.modPort (s : State) (p : Nat) (f : Port → Port) : State := { s with ports := s.ports.set p (f (s.port p)) }

/-- Registration entry `i` (24 R347). -/
def State.regn (s : State) (i : Nat) : Regn := s.regns.get i {}

/-- The state with registration entry `i` changed by `f`. -/
def State.modRegn (s : State) (i : Nat) (f : Regn → Regn) : State := { s with regns := s.regns.set i (f (s.regn i)) }

/-- Scalar register `r`; s0 reads zero (R65). -/
def Slot.rs (x : Slot) (r : Nat) : Word := if r % 64 = 0 then 0 else x.s.get (r % 64) 0

/-- Scalar register `r` written; a write of s0 is discarded (R65). -/
def Slot.ws (x : Slot) (r : Nat) (v : Word) : Slot := if r % 64 = 0 then x else { x with s := x.s.set (r % 64) v }

/-- Vector register `r` (R65). -/
def Slot.rv (x : Slot) (r : Nat) : Vec := x.v.get (r % 32) 0

/-- Vector register `r` written. -/
def Slot.wv (x : Slot) (r : Nat) (v : Vec) : Slot := { x with v := x.v.set (r % 32) v }

/-- Predicate register `r`; k0 reads all ones (R65). -/
def Slot.rk (x : Slot) (r : Nat) : Pred := if r % 8 = 0 then BitVec.allOnes 128 else x.k.get (r % 8) 0

/-- Predicate register `r` written; a write of k0 is discarded (R65). -/
def Slot.wk (x : Slot) (r : Nat) (v : Pred) : Slot := if r % 8 = 0 then x else { x with k := x.k.set (r % 8) v }

/-- The name bound to event slot `e`; 0 is unbound (R170). -/
def Slot.bound (x : Slot) (e : Nat) : Nat := x.evb.get e 0

/-- The core of a slot. -/
def coreOf (n : Nat) : Nat := n / 4

/-- The slot's place in its core, T0 to T3. -/
def slotIn (n : Nat) : Nat := n % 4

/-- A slot of a worker core (R21). -/
def isWorker (n : Nat) : Bool := n < 8192

/-- A slot of a Mace core. -/
def isMace (n : Nat) : Bool := 8192 ≤ n && n < 8320

/-- A slot of a Sumac core. -/
def isSumac (n : Nat) : Bool := 8320 ≤ n && n < 8384

/-- The physical cluster of a worker slot. -/
def clusterOf (n : Nat) : Nat := n / 64

/-- The quad, counted over the package; a Mace or Sumac core stands for itself. -/
def quadOf (n : Nat) : Nat := if isWorker n then n / 16 else 512 + (coreOf n - 2048)

/-- The die of a slot. -/
def dieOfSlot (n : Nat) : Nat :=
  if isWorker n then n / 2048 else if isMace n then (n - 8192) / 32 else (n - 8320) / 16

/-- The die of a resolver's home; the package resolver counts as die 0's clock. -/
def dieOfHome (h : Nat) : Nat := if h < 128 then h / 32 else if h < 132 then h - 128 else 0

/-- The id of a slot in the layout of R21: node, die, cluster, core, slot (Mace and Sumac: R173). -/
def agentId (s : State) (n : Nat) : Nat :=
  s.node * 2 ^ 13 +
  (if isWorker n then n
   else if isMace n then (n - 8192) / 32 * 2 ^ 11 + (n - 8192) % 32
   else (n - 8320) / 16 * 2 ^ 11 + (n - 8320) % 16)

/-- The mark of an agent (kinds 1 to 4 and 10) of a Mace or Sumac slot, in bits that a party entry of R173 holds at zero: the
layout of R21 alone would take its id for that of a worker slot. -/
def agentMark (k n : Nat) : Nat :=
  if (1 ≤ k ∧ k ≤ 4) ∨ k = 10 then (if isMace n then 2 ^ 25 else if isSumac n then 2 ^ 26 else 0) else 0

/-- A party entry of KIND `k` for slot `n` (R173). -/
def partyOf (s : State) (k n : Nat) : Nat := k * 2 ^ 28 + agentMark k n + agentId s n

/-- The KIND under which a slot is a slot party. -/
def slotKind (n : Nat) : Nat := if isWorker n then 0 else if isMace n then 8 else 9

/-- The slot party entry of slot `n`. -/
def selfParty (s : State) (n : Nat) : Nat := partyOf s (slotKind n) n

/-- The slot that a party entry of the own node names (an agent of kinds 0 to 4, 8, 9, 10), if any. -/
def slotOfParty (s : State) (p : Nat) : Option Nat :=
  let k := p / 2 ^ 28
  let id := p % 2 ^ 13
  if p / 2 ^ 13 % 2 ^ 12 ≠ s.node then none
  else if bit p 25 ∨ k = 8 then some (8192 + id / 2 ^ 11 * 32 + id % 32)
  else if bit p 26 ∨ k = 9 then some (8320 + id / 2 ^ 11 * 16 + id % 16)
  else if k ≤ 4 ∨ k = 10 then some id
  else none

/-- First physical cluster of the tenant's sub-mesh (R329). -/
def meshBase (s : State) (vi : Nat) : Nat := bits (s.vif vi).tencfg.toNat 6 0

/-- Clusters of the tenant's sub-mesh (R329). -/
def meshSize (s : State) (vi : Nat) : Nat := 2 ^ bits (s.vif vi).tencfg.toNat 10 8

/-- Whether physical cluster `p` lies in the tenant's sub-mesh. -/
def inMesh (s : State) (vi p : Nat) : Bool := meshBase s vi ≤ p && p < meshBase s vi + meshSize s vi && p < 128

/-- The first physical cluster of the view in which slot `n` sees cluster numbers: its tenant's sub-mesh for a worker
slot, the package for a Mace or Sumac slot. -/
def viewBase (s : State) (n : Nat) : Nat := if isWorker n then meshBase s (s.slot n).vi else 0

/-- How many clusters that view has. -/
def viewSize (s : State) (n : Nat) : Nat := if isWorker n then min 128 (meshSize s (s.slot n).vi) else 128

/-- Whole cycles of die `d` since it left reset (R72). -/
def dieCycles (s : State) (d : Nat) : Nat := (s.die d).cyc5 / 5

/-- Cycles of a resolver's clock; the package resolver counts reference ticks. -/
def homeCycles (s : State) (h : Nat) : Nat := if h = 132 then s.time else dieCycles s (dieOfHome h)

/-- The CYCLE of a slot (R72): the cycles of its die, less those in which its cluster stood in C1 or C2. -/
def slotCycles (s : State) (n : Nat) : Nat :=
  if isWorker n then ((s.die (dieOfSlot n)).cyc5 - (s.cluster (clusterOf n)).lost) / 5
  else dieCycles s (dieOfSlot n)

/-- The cycles of a cluster's own clock: those of its die, less those in C1 and C2. -/
def clusterCycles (s : State) (p : Nat) : Nat := ((s.die (p / 32)).cyc5 - (s.cluster p).lost) / 5

/-- The next free value, and the state that has drawn it. -/
def draw (s : State) : Word × State := (Config.freeValue s.fresh, { s with fresh := s.fresh + 1 })

/-- Every core of the package changed by `f` where `p` holds. -/
def mapCores (s : State) (p : Nat → Bool) (f : Nat → Core → Core) : State :=
  { s with cores := (List.range 2096).map fun c => (c, if p c then f c (s.core c) else s.core c) }

end Sys2Proof.Machine
end

