-- ==== Sys2Proof/Machine/Mem.lean ====
section
/-!
DEFINITION. The memories of the package and every way to reach them: the cells, the canonical form, addresses and
windows (08 R135 to R141), page tables (20 R297, R298), guard granules (08 R144), poison (08 R154), and the counting of
writes in enrolled tiles (16 R262 to R266).

Every byte of the package is a numbered cell: device memory at its physical address, host memory at 2^64 plus its bus
address, TCM at 2^65 plus 2^16 times the core, Tarn at 2^66 plus 2^22 times the cluster, Mere scratch at 2^67 plus 2^27
times the die, guard maps at 2^68 plus 2^13 times the cluster, accumulator tiles at 2^69 plus 2^18 times the cluster.

Readings and choices of the model (log): DESIGN CHOICE 2, 21, 82, 170; DEDUCED 49, 54, 65, 67, 77, 78, 79, 81, 83, 100,
101, 103, 140.
-/

namespace Sys2Proof.Machine

open Sys2Proof

/-- The byte of cell `a` (an unlisted cell holds `Config.memDefault`). -/
def Memory.get (m : List Host.Cell) (a : Nat) : BitVec 8 := SMap.get m a Config.memDefault

/-- The memory with `b` in cell `a`, in canonical form: ascending cells, none that holds what an unlisted one reads. -/
def Memory.set (m : List Host.Cell) (a : Nat) (b : BitVec 8) : List Host.Cell :=
  match m with
  | [] => if b = Config.memDefault then [] else [(a, b)]
  | (j, u) :: t =>
    if a < j then (if b = Config.memDefault then (j, u) :: t else (a, b) :: (j, u) :: t)
    else if j = a then (if b = Config.memDefault then t else (a, b) :: t)
    else (j, u) :: Memory.set t a b

/-- The canonical form: cells strictly ascending from `lo`, no byte equal to the default. -/
def Memory.wfFrom (lo : Nat) (m : List Host.Cell) : Bool :=
  match m with
  | [] => true
  | (j, u) :: t => decide (lo ≤ j) && decide (u ≠ Config.memDefault) && Memory.wfFrom (j + 1) t

/-- The canonical form of a memory. -/
def Memory.wf (m : List Host.Cell) : Bool := Memory.wfFrom 0 m

/-- First cell of host memory. -/
def hostBase : Nat := 2 ^ 64
/-- First cell of core `c`'s TCM. -/
def tcmBase (c : Nat) : Nat := 2 ^ 65 + c * 2 ^ 16
/-- First cell of cluster `p`'s Tarn. -/
def tarnBase (p : Nat) : Nat := 2 ^ 66 + p * 2 ^ 22
/-- First cell of die `d`'s Mere scratch part. -/
def mereBase (d : Nat) : Nat := 2 ^ 67 + d * 2 ^ 27
/-- First cell of cluster `p`'s guard map. -/
def gmapBase (p : Nat) : Nat := 2 ^ 68 + p * 2 ^ 13
/-- First cell of tile `t` of cluster `p`'s accumulators (R207). -/
def accBase (p t : Nat) : Nat := 2 ^ 69 + p * 2 ^ 18 + t * 2 ^ 12

/-- A cell of device memory. -/
def isDev (c : Nat) : Bool := c < 2 ^ 52
/-- A cell of host memory. -/
def isHost (c : Nat) : Bool := 2 ^ 64 ≤ c && c < 2 ^ 65
/-- A cell of a Tarn. -/
def isTarn (c : Nat) : Bool := 2 ^ 66 ≤ c && c < 2 ^ 67

/-- One byte as a natural number. -/
def State.byte (s : State) (c : Nat) : Nat := (Memory.get s.mem c).toNat

/-- One byte written. -/
def State.setByte (s : State) (c b : Nat) : State := { s with mem := Memory.set s.mem c (BitVec.ofNat 8 b) }

/-- `n` bytes from cell `c` on, as one little-endian number. -/
def State.raw (s : State) (c n : Nat) : Nat :=
  match n with
  | 0 => 0
  | n + 1 => s.byte c + 256 * State.raw s (c + 1) n

/-- `n` bytes written from cell `c` on. -/
def State.setRaw (s : State) (c n x : Nat) : State :=
  match n with
  | 0 => s
  | n + 1 => State.setRaw (s.setByte c (x % 256)) (c + 1) n (x / 256)

/-- The bytes of a number, lowest first. -/
def bytesOf (n x : Nat) : List Nat :=
  match n with
  | 0 => []
  | n + 1 => x % 256 :: bytesOf n (x / 256)

/-- The number that a list of bytes spells, lowest first. -/
def numOf (l : List Nat) : Nat :=
  match l with
  | [] => 0
  | b :: t => b + 256 * numOf t

/-- Elements without repeats, the first of each kept. -/
def distinct (l : List Nat) : List Nat := l.foldl (fun acc x => if acc.contains x then acc else acc ++ [x]) []

/-! ### Guard granules -/

/-- Whether a cell lies in a guard granule (R144). -/
def guarded (s : State) (c : Nat) : Bool :=
  isTarn c &&
    (let p := (c - 2 ^ 66) / 2 ^ 22
     let o := c % 2 ^ 22
     bit (s.byte (gmapBase p + o / 512)) (o / 64 % 8))

/-- A report recorded against a slot: the first is kept, later ones are counted (R144, R162). -/
def recordReport (s : State) (n : Nat) (t : Trap) : State :=
  s.modSlot n fun x => match x.report with
    | none => { x with report := some t }
    | some _ => { x with reports := x.reports + 1 }

/-- The GUARD report of an access of `size` bytes to the guarded Tarn cell `c`: bank, offset in the bank, kind, order (R144, R301);
`pc` is that of the instruction that issued an engine command. -/
def guardTrap (c addr kind size order : Nat) (pc : Option Nat) : Trap :=
  let o := c % 2 ^ 22
  { code := 0x06, addr := addr, kind := kind, size := Nat.log2 size, order := order, engine := kind = 4 ∨ kind = 5, pc := pc,
    info := bits o 12 7 + (bits o 21 13 * 128 + bits o 6 0) * 2 ^ 6 }

/-- After an access to `cells`: a GUARD report when one of them lies in a guard granule. -/
def noteGuard (s : State) (n addr kind order : Nat) (pc : Option Nat) (cells : List Nat) : State :=
  match cells.find? (guarded s) with
  | none => s
  | some c => recordReport s n (guardTrap c addr kind cells.length order pc)

/-- After the accesses of an instruction, each with its address: one report for each that touches a guard granule (06 R133). -/
def noteGuards (s : State) (n kind order : Nat) (as : List (Nat × List Nat)) : State :=
  as.foldl (fun t a => noteGuard t n a.1 kind order none a.2) s

/-- The bytes of `cells` as the reader gets them: a guarded byte reads as zero. -/
def readCells (s : State) (cells : List Nat) : List Nat := cells.map fun c => if guarded s c then 0 else s.byte c

/-- `n` bytes from cell `c` on as an access gets them: a guarded byte reads as zero. -/
def State.seen (s : State) (c n : Nat) : Nat := numOf (readCells s ((List.range n).map (c + ·)))

/-- Poisoned cells (R154). -/
def poisoned (s : State) (c : Nat) : Bool := s.poison.contains (c / 64)

/-- The bytes stored to `cells`, each guarded one discarded (R144). -/
def writeBytes (s : State) (cells data : List Nat) : State :=
  (cells.zip data).foldl (fun t e => if guarded s e.1 then t else t.setByte e.1 e.2) s

/-- `n` bytes written from cell `c` on as one number, each guarded one discarded. -/
def State.put (s : State) (c n x : Nat) : State := writeBytes s ((List.range n).map (c + ·)) (bytesOf n x)

/-- After a store to `cells`: a granule that was written whole loses its poison, one that was written in part keeps it (R154). -/
def clearPoison (s : State) (cells : List Nat) : State :=
  let whole := s.poison.filter fun g =>
    (List.range 64).all fun j => cells.contains (g * 64 + j) && !guarded s (g * 64 + j)
  { s with poison := s.poison.filter fun g => !whole.contains g }

/-- One store to `cells`. -/
def writeCells (s : State) (cells data : List Nat) : State := clearPoison (writeBytes s cells data) cells

/-! ### Units that are stopped or off -/

/-- Whether the agents of cluster `p` run: it is in C0 and its die is on (24 R364, R365). -/
def clusterRuns (s : State) (p : Nat) : Bool := (s.cluster p).cur == 0 && !(s.die (p / 32)).off && decide (p < 128)

/-- The die whose HBM stack holds a device cell: one for each 4 KiB tile (16 R262; log 21). -/
def dieOfCell (c : Nat) : Nat := (Config.dieOf (c / 4096)).val

/-- Whether cell `c` lies in a cluster that is not in C0 or in a die that is off: messages to it wait in a router until it returns (24
R365). -/
def cellAsleep (s : State) (c : Nat) : Bool :=
  if isDev c then (s.dies.any fun (e : Nat × Die) => e.2.off) && (s.die (dieOfCell c)).off
  else if isTarn c then !clusterRuns s ((c - 2 ^ 66) / 2 ^ 22)
  else 2 ^ 67 ≤ c && c < 2 ^ 68 && (s.die ((c - 2 ^ 67) / 2 ^ 27)).off

/-- Whether an access to `cells` has to wait for such a unit. -/
def asleep (s : State) (cells : List Nat) : Bool := cells.any (cellAsleep s)

/-! ### Enrolled tiles -/

/-- First cell of the node record `id` of a tenant (16 R263; 20 R296). -/
def nodeCell (s : State) (vi id : Nat) : Nat := bits (s.vif vi).nodetab.toNat 51 25 * 2 ^ 25 + 32 * id

/-- COUNT of a node. -/
def nodeCount (s : State) (vi id : Nat) : Nat := s.raw (nodeCell s vi id) 8
/-- The second word of a node's record: parent, depth, flags. -/
def nodeWord (s : State) (vi id : Nat) : Nat := s.raw (nodeCell s vi id + 8) 8
/-- Parent of a node. -/
def nodeParent (s : State) (vi id : Nat) : Nat := bits (nodeWord s vi id) 63 44
/-- Depth of a node. -/
def nodeDepth (s : State) (vi id : Nat) : Nat := bits (nodeWord s vi id) 43 38
/-- Whether the id is in use. -/
def nodeUsed (s : State) (vi id : Nat) : Bool := id = 0 || bit (nodeWord s vi id) 0
/-- Where counts saturate (R264). -/
def countMax : Nat := 0xFFFFFFFFFFFFFFFE

/-- The path from a node to the root, the node first (at most 64 levels, R263). -/
def nodePath (s : State) (vi id : Nat) : List Nat :=
  let rec go (fuel id : Nat) : List Nat :=
    match fuel with
    | 0 => []
    | f + 1 => if id = 0 then [0] else id :: go f (nodeParent s vi id)
  go 65 id

/-- The enrolled tile that a device cell lies in, with the die whose tile table holds it (R261, R262). -/
def tileAt (s : State) (c : Nat) : Option (Nat × Tile) :=
  if !isDev c then none
  else
    let d := dieOfCell c
    (((s.die d).tiles).find? fun e => e.1 == c / 4096).map fun e => (d, e.2)

/-- The unit of accounting of a write by `who` in a tile of a leaf: its set is the leaf's path to the root (R266). -/
def bumpOf (s : State) (vi leaf who : Nat) : Bump := ⟨leaf, who, nodePath s vi leaf, nodePath s vi leaf⟩

/-- A unit that is accounted to the path `up` of a node's other parent too: the union, every node after its child (R266). -/
def Bump.join (b : Bump) (up : List Nat) : Bump :=
  let extra := up.filter fun m => !b.all.contains m
  { b with
    path := b.path.filter (fun m => !up.contains m) ++ extra ++ b.path.filter (fun m => up.contains m)
    all := b.all ++ extra }

/-- A unit joined with the path that its leaf had before each move that its write may be concurrent with: one by another slot. Whether it
is so is a free value (R266; log 101). -/
def joinMoves (s : State) (b : Bump) (ms : List Moved) : Bump × State :=
  ms.foldl (fun a m =>
    if b.all.contains m.node && m.who != b.who then
      let (w, t) := draw a.2
      (if bit w.toNat 0 then a.1.join m.up else a.1, t)
    else a) (b, s)

/-- A write by `who` counted in the tile of a device cell: its count rises at once, and the roll-up engine owes the bump to the
accounting set of its leaf (R265, R266). -/
def bumpTile (s : State) (who c : Nat) : State :=
  match tileAt s c with
  | none => s
  | some (d, t) =>
    let (b, s1) := joinMoves s (bumpOf s t.vi t.leaf who) (s.vif t.vi).moved
    (s1.modDie d fun x => { x with tiles := x.tiles.set (c / 4096) { t with count := min countMax (t.count + 1) } }).modVi t.vi
      fun v => { v with owed := v.owed ++ [b] }

/-- One bump for each watch tile that `cells` touch (a scalar store, an atomic, a vector store, a packet: R265); a byte
whose write is discarded does not count. -/
def bumpOnce (s : State) (who : Nat) (cells : List Nat) : State :=
  (distinct ((cells.filter fun c => isDev c).map (· / 4096))).foldl (fun t g => bumpTile t who (g * 4096)) s

/-- One bump for each aligned 128-byte line that `cells` touch (copies, streams, the network interface: R265). -/
def bumpLines (s : State) (who : Nat) (cells : List Nat) : State :=
  (distinct ((cells.filter fun c => isDev c).map (· / 128))).foldl (fun t g => bumpTile t who (g * 128)) s

/-- The number under which writes by an agent that is no slot are accounted: network interfaces, the host, the device. -/
def noSlot : Nat := 2 ^ 32

/-! ### Page tables -/

/-- One level of a walk (R297): index place, index bits, the leaf's size (0: not permitted), the next table's size. -/
def walkLevels : List (Nat × Nat × Nat × Nat) :=
  [(40, 12, 0, 2 ^ 14), (29, 11, 2 ^ 29, 2 ^ 11), (21, 8, 2 ^ 21, 2 ^ 8), (16, 5, 2 ^ 16, 0)]

/-- The walk from a table: the leaf entry and the page size, `none` where an entry is invalid. -/
def walkFrom (s : State) (va : Nat) (table : Nat) (ls : List (Nat × Nat × Nat × Nat)) : Option (Nat × Nat) :=
  match ls with
  | [] => none
  | (lo, n, leafSize, nextSize) :: rest =>
    let e := s.raw (table + 8 * (va / 2 ^ lo % 2 ^ n)) 8
    let a := bits e 51 8 * 2 ^ 8
    if !bit e 63 || bits e 57 52 ≠ 0 || bits e 7 0 ≠ 0 then none
    else if bit e 62 then
      (if leafSize = 0 || a % leafSize ≠ 0 then none else some (e, leafSize))
    else if nextSize = 0 || a % nextSize ≠ 0 then none
    else walkFrom s va a rest

/-- The walk of a tenant's page tables (R297). -/
def walk (s : State) (vi va : Nat) : Option (Nat × Nat) :=
  let b := (s.vif vi).ptbr.toNat
  if !bit b 0 then none else walkFrom s va (bits b 51 15 * 2 ^ 15) walkLevels

/-- The entry of the table that covers `size` bytes around `va`, which a walk meets on its way (R297, R298). -/
def walkTable (s : State) (va size table : Nat) (ls : List (Nat × Nat × Nat × Nat)) : Option Nat :=
  match ls with
  | [] => none
  | (lo, n, _, nextSize) :: rest =>
    let e := s.raw (table + 8 * (va / 2 ^ lo % 2 ^ n)) 8
    let a := bits e 51 8 * 2 ^ 8
    if !bit e 63 || bit e 62 || bits e 57 52 ≠ 0 || bits e 7 0 ≠ 0 || nextSize = 0 || a % nextSize ≠ 0 then none
    else if size = 2 ^ lo then some e
    else walkTable s va size a rest

/-- The levels of a walk below a table that covers `size` bytes. -/
def levelsBelow (size : Nat) : List (Nat × Nat × Nat × Nat) := walkLevels.filter fun l => decide (2 ^ l.1 < size)

/-- Whether a held entry covers an address for `holder`. -/
def Leaf.covers (l : Leaf) (holder vi va : Nat) : Bool :=
  l.holder == holder && l.vi == vi && decide (l.base ≤ va) && decide (va < l.base + l.size)

/-- Translation by `holder` (a core, or 3000 the ingress translator): a leaf that it holds, a walk from a table that it holds, or a whole
walk (R298). A tenant whose PTBR is not enabled has no translation (R296). -/
def translate (s : State) (holder vi va : Nat) : Option (Nat × Nat) :=
  if !bit (s.vif vi).ptbr.toNat 0 then none
  else match s.tlb.find? fun l => l.covers holder vi va && bit l.entry 62 with
  | some l => some (l.entry, l.size)
  | none =>
    match s.tlb.find? fun l => l.covers holder vi va with
    | some l => walkFrom s va (bits l.entry 51 8 * 2 ^ 8) (levelsBelow l.size)
    | none => walk s vi va

/-- The access kinds of a fault record: 0 fetch, 1 load, 2 store, 3 read-modify-write, 4 engine read, 5 engine write. -/
def permitted (e kind : Nat) : Bool :=
  if kind = 0 then bit e 59
  else if kind = 1 ∨ kind = 4 then bit e 61
  else if kind = 2 ∨ kind = 5 then bit e 60
  else bit e 61 && bit e 60

/-- The cell of a translated address, or the fault (R138). -/
def translated (s : State) (holder vi va kind : Nat) : Except Nat Nat :=
  match translate s holder vi va with
  | none => .error 0x04
  | some (e, size) =>
    if !permitted e kind then .error 0x05
    else if bit e 58 && kind = 3 then .error 0x05
    else
      let c := bits e 51 8 * 2 ^ 8 + va % size
      .ok (if bit e 58 then hostBase + c else c)

/-! ### Windows -/

/-- Where the window space starts (R136). -/
def winBase : Nat := 0xF000000000000

/-- The region that governs own-TCM page `q` of a slot (R140): the lowest-numbered enabled one. -/
def governing (s : State) (n q : Nat) : Option Nat :=
  ((List.range 8).map fun i => ((s.core (coreOf n)).trgn.get i 0).toNat).find? fun r =>
    bit r 63 && bit r (59 + slotIn n) && bits r 15 12 ≤ bits r 11 8 && bits r 7 4 ≤ q &&
      q ≤ bits r 7 4 + bits r 11 8 - bits r 15 12

/-- The TCM cell of an access through the protection unit of slot `n`'s core (R140); `sib` asks for SIB besides. -/
def tcmCell (s : State) (n o kind : Nat) (sib : Bool) : Except Nat Nat :=
  match governing s n (o / 4096) with
  | none => .error 0x05
  | some r =>
    let rd := kind = 1 ∨ kind = 3 ∨ kind = 4
    let wr := kind = 2 ∨ kind = 3 ∨ kind = 5
    if (rd ∧ bit r 57 = false) ∨ (wr ∧ bit r 58 = false) ∨ (sib = true ∧ bit r 56 = false) then .error 0x05
    else .ok (tcmBase (coreOf n) + (bits r 15 12 + o / 4096 - bits r 7 4) * 4096 + o % 4096)

/-- The slot of team `t` of the co-launch instance of slot `n`, if it has one (R37). -/
def siblingOf (s : State) (n t : Nat) : Option Nat :=
  match (s.slot n).task with
  | some k =>
    if k.kind ≠ 1 then none
    else ((List.range 4).map fun j => clusterOf n * 64 + t * 4 + j).find? fun m =>
      match (s.slot m).task with
      | some j => j.kind == 1 && j.vi == k.vi && j.id == k.id && j.inst == k.inst && j.part == t
      | none => false
  | none => none

/-- A Mere scratch byte of die `d` at a tenant's window offset (R141). -/
def mereCell (s : State) (vi d o : Nat) : Except Nat Nat :=
  let w := ((s.die d).mstw.get vi 0).toNat
  let b := bits w 27 12 * 2 ^ 16 + o
  if bits w 43 28 * 2 ^ 16 ≤ o ∨ min 96 (bits (s.die d).mscr.toNat 6 0) * 2 ^ 20 ≤ b then .error 0x05
  else .ok (mereBase d + b)

/-- Whether the routers of cluster `p` let in a worker slot's messages (22 R331): its tenant is enabled with the cluster in its sub-mesh. The
slot's own cluster is reached without one. -/
def admits (s : State) (n p : Nat) : Bool :=
  !isWorker n || p == clusterOf n || (bit (s.vif (s.slot n).vi).tencfg.toNat 63 && inMesh s (s.slot n).vi p)

/-- Whether the agents of die `d` let them in: the tenant is enabled and its sub-mesh meets the die (22 R331); those of the slot's own die are
reached without. -/
def dieAdmits (s : State) (n d : Nat) : Bool :=
  !isWorker n || d == dieOfSlot n ||
    (bit (s.vif (s.slot n).vi).tencfg.toNat 63 && (List.range 32).any fun k => inMesh s (s.slot n).vi (32 * d + k))

/-- The cell that a window address names for slot `n` (R137); `priv` is privileged mode. -/
def windowCell (s : State) (n : Nat) (priv : Bool) (lva kind : Nat) : Except Nat Nat :=
  let o := lva - winBase
  let vi := (s.slot n).vi
  if o < 0x10000 then
    if priv || !isWorker n then .ok (tcmBase (coreOf n) + o) else tcmCell s n o kind false
  else if 0x100000 ≤ o ∧ o < 0x200000 then
    let t := bits o 19 16
    match siblingOf s n t with
    | none => .error 0x05
    | some m =>
      if m = n then (if priv then .ok (tcmBase (coreOf n) + o % 0x10000) else tcmCell s n (o % 0x10000) kind false)
      else if (s.slot m).st = .lingering ∧ kind ≠ 1 ∧ kind ≠ 4 then .error 0x0E
      else if priv then .ok (tcmBase (coreOf m) + o % 0x10000)
      else tcmCell s m (o % 0x10000) kind true
  else if 0x1000000 ≤ o ∧ o < 0x1400000 then
    if isWorker n then .ok (tarnBase (clusterOf n) + (o - 0x1000000)) else .error 0x05
  else if 0x2000000 ≤ o ∧ o < 0x2002000 then
    if priv && isWorker n then .ok (gmapBase (clusterOf n) + (o - 0x2000000)) else .error 0x05
  else if 0x100000000 ≤ o ∧ o < 0x200000000 then mereCell s vi (dieOfSlot n) (o - 0x100000000)
  else if 0x200000000 ≤ o ∧ o < 0x220000000 then
    let v := (o - 0x200000000) / 2 ^ 22
    if v < viewSize s n ∧ viewBase s n + v < 128 then
      (if admits s n (viewBase s n + v) then .ok (tarnBase (viewBase s n + v) + o % 2 ^ 22) else .error 0x0D)
    else .error 0x05
  else if 0x300000000 ≤ o ∧ o < 0x320000000 then
    let d := viewBase s n / 32 + (o - 0x300000000) / 2 ^ 27
    if 4 ≤ d then .error 0x05 else if dieAdmits s n d then mereCell s vi d (o % 2 ^ 27) else .error 0x0D
  else .error 0x05

/-- Where an access goes. -/
inductive Target where
  | cell (c : Nat)
  | remote (node lva : Nat)
  deriving DecidableEq, Repr

/-- Whether a global address names another node (R135). -/
def isRemote (s : State) (ea : Nat) : Bool :=
  ea % 2 ^ 52 < winBase && ea / 2 ^ 52 % 2 ^ 12 ≠ 0xFFF && ea / 2 ^ 52 % 2 ^ 12 ≠ s.node

/-- The target of one byte of an access of slot `n` (R135 to R141; a Sumac slot's local addresses are physical, R319), or
the fault code. -/
def targetOf (s : State) (n : Nat) (priv : Bool) (ea kind : Nat) : Except Nat Target :=
  let lva := ea % 2 ^ 52
  if winBase ≤ lva then (windowCell s n priv lva kind).map .cell
  else if isRemote s ea then .ok (.remote (ea / 2 ^ 52 % 2 ^ 12) lva)
  else if isSumac n then .ok (.cell lva)
  else (translated s (coreOf n) (s.slot n).vi lva kind).map .cell

/-- The fault of an access: its code and the fields of its record (R301). -/
def accTrap (code ea kind size order : Nat) : Trap :=
  { code := code, addr := ea, kind := kind, size := Nat.log2 size, order := order,
    engine := kind = 4 ∨ kind = 5 }

/-- The cells of the `n` bytes at `ea`, each aligned 8-byte part resolved afresh; `none` for a remote address. -/
def cellsGo (f : Nat → Except Trap Nat) (ea : Nat) (last : Option Nat) (n : Nat) : Except Trap (List Nat) :=
  match n with
  | 0 => .ok []
  | n + 1 =>
    match (if ea % 8 = 0 then none else last) with
    | some c => (cellsGo f ((ea + 1) % 2 ^ 64) (some (c + 1)) n).map ((c + 1) :: ·)
    | none =>
      match f ea with
      | .error t => .error t
      | .ok c => (cellsGo f ((ea + 1) % 2 ^ 64) (some c) n).map (c :: ·)

/-- The local cells of an access of `size` bytes at `ea`; an address of another node raises PROT. -/
def localCells (s : State) (n : Nat) (priv : Bool) (ea size kind order : Nat) : Except Trap (List Nat) :=
  cellsGo (fun a => match targetOf s n priv a kind with
    | .ok (.cell c) => .ok c
    | .ok (.remote _ _) => .error (accTrap 0x05 ea kind size order)
    | .error code => .error (accTrap code ea kind size order)) ea none size

/-- The cells of an own-TCM or own-Tarn window block of a user access; any other address raises PROT. -/
def blockCells (s : State) (n ea size kind : Nat) : Except Trap (List Nat) :=
  let lva := ea % 2 ^ 52
  let o := lva - winBase
  if winBase ≤ lva ∧ (o < 0x10000 ∨ (0x1000000 ≤ o ∧ o < 0x1400000)) then localCells s n false ea size kind 0
  else .error (accTrap 0x05 ea kind size 0)

/-- Whether an access of slot `n` waits for a unit that is stopped or off (24 R365); one that faults does not wait. -/
def sleeps (s : State) (n : Nat) (priv : Bool) (ea size kind : Nat) : Bool :=
  match localCells s n priv ea size kind 0 with
  | .ok cells => asleep s cells
  | .error _ => false

/-- The address of the granule of a poisoned cell `c` among those of an access at `ea`: the physical one of device or host memory, in a
window the granule of the access (R301; log 49). -/
def granuleOf (ea : Nat) (cells : List Nat) (c : Nat) : Nat :=
  (if c < 2 ^ 65 then c % 2 ^ 64 else (ea + cells.findIdx (· == c)) % 2 ^ 64) / 64 * 64

/-- ECC_UE of an access to `cells`, of which `c` is poisoned (R154). -/
def eccTrap (ea kind order : Nat) (cells : List Nat) (c : Nat) : Trap :=
  { accTrap 0x10 ea kind cells.length order with info := granuleOf ea cells c }

/-- Bytes read by slot `n` from local cells: a poisoned byte raises ECC_UE (R154), a guard granule is reported. -/
def loadCells (s : State) (n ea kind order : Nat) (cells : List Nat) (pc : Option Nat := none) : Except Trap (List Nat × State) :=
  match cells.find? (poisoned s) with
  | some c => .error (eccTrap ea kind order cells c)
  | none => .ok (readCells s cells, noteGuard s n ea kind order pc cells)

/-- A local read of `size` bytes at `ea` by slot `n`, as a number. -/
def readLocal (s : State) (n : Nat) (ea size kind order : Nat) : Except Trap (Nat × State) :=
  match localCells s n (s.slot n).mode ea size kind order with
  | .error t => .error t
  | .ok cells =>
    match loadCells s n ea kind order cells with
    | .error t => .error t
    | .ok (bs, s') => .ok (numOf bs, s')

end Sys2Proof.Machine
end

