-- ==== Sys2Proof/Machine/EvOps.lean ====
section
/-!
DEFINITION. Shared operations on multicast rings (08 R146, R147), stores, instruction retirement (04 R56, R72, R90),
sending across the fabric (24 R340 to R345), events, offers and event messages (10 R170 to R190).

Readings and choices of the model (log): DESIGN CHOICE 13, 20; DEDUCED 15, 16, 17, 26, 34, 39, 47, 68, 70, 78, 129, 132,
141, 152, 161, 164.
-/

namespace Sys2Proof.Machine

open Sys2Proof

/-! ### Multicast rings -/

/-- CFG of the multicast ring block at cell `b` (R146). -/
def mrbCfg (s : State) (b : Nat) : Nat := s.seen b 8
/-- Push count P. -/
def mrbProd (s : State) (b : Nat) : Nat := s.seen (b + 8) 4
/-- Pop count C. -/
def mrbFree (s : State) (b : Nat) : Nat := s.seen (b + 12) 4
/-- Depth D. -/
def mrbDepth (s : State) (b : Nat) : Nat := bits (mrbCfg s b) 31 24 + 1
/-- Bytes of a slot. -/
def mrbSlot (s : State) (b : Nat) : Nat := (bits (mrbCfg s b) 40 32 + 1) * 128
/-- Cell of entry `i` of the ring in cluster `p`. -/
def mrbEntry (s : State) (p b i : Nat) : Nat :=
  tarnBase p + bits (mrbCfg s b) 21 0 + i % mrbDepth s b * mrbSlot s b

/-- Whether the ring block at Tarn offset `off` of cluster `p` fails R146: a misplaced block, MASK zero, a reserved bit, a
misaligned BASE, slots that reach past the end of the Tarn. -/
def mrbBad (s : State) (p off : Nat) : Bool :=
  let b := tarnBase p + off
  let w := mrbCfg s b
  off % 128 != 0 || bits w 63 48 == 0 || bits w 47 41 != 0 || bits w 23 22 != 0 || bits w 6 0 != 0 || s.seen (b + 16) 48 != 0 ||
    decide (2 ^ 22 < bits w 21 0 + mrbDepth s b * mrbSlot s b)

/-- A GUARD report where slot `n`'s access to `len` bytes from cell `c` of the Tarn of cluster `p` touches a guard granule: an access to a
ring block or to an entry (R144). -/
def ringGuard (s : State) (n kind : Nat) (pc : Option Nat) (p c len : Nat) : State :=
  noteGuard s n (winBase + 0x1000000 + (c - tarnBase p)) kind 0 pc ((List.range len).map (c + ·))

/-- The counts that the device keeps for the consumers of a ring, by Tarn offset of its block (R147). -/
def keptOf (s : State) (p off : Nat) : List (Nat × Nat) := (s.cluster p).mrb.get off []

/-- The kept count of consumer `c`. -/
def keptCount (l : List (Nat × Nat)) (c : Nat) : Nat := SMap.get l c 0

/-- The device takes notice of a ring block that a command names: its kept counts start at zero (R146), and a count whose distance from
C exceeds that of P, which a block set up anew leaves behind, is none that is kept (R147). -/
def noteMrb (s : State) (p off : Nat) : State :=
  let b := tarnBase p + off
  let live := (keptOf s p off).filter fun e => decide (dist32 e.2 (mrbFree s b) ≤ dist32 (mrbProd s b) (mrbFree s b))
  s.modCluster p fun x => { x with mrb := x.mrb.set off live }

/-- FREE advances past every entry that each consumer of MASK has released (R147). -/
def mrbAdvance (s : State) (p off : Nat) : State :=
  let b := tarnBase p + off
  let c := mrbFree s b
  let k := keptOf s p off
  let mask := bits (mrbCfg s b) 63 48
  let ds := ((List.range 16).filter fun i => bit mask i).map fun i => dist32 (keptCount k i) c
  match ds with
  | [] => s
  | d :: t => s.put (b + 12) 4 ((c + t.foldl min d) % 2 ^ 32)

/-- A count stored to REL[c]: the device keeps it when it is larger than the one kept and does not pass P (R147). -/
def relCount (s : State) (p off c x : Nat) : State :=
  let b := tarnBase p + off
  let f := mrbFree s b
  let k := keptOf s p off
  let d := dist32 x f
  if d ≤ dist32 (mrbProd s b) f ∧ dist32 (keptCount k c) f < d then
    mrbAdvance (s.modCluster p fun y => { y with mrb := y.mrb.set off (SMap.set k c x) }) p off
  else s

/-- After a store to `cells`: each REL word of a known ring block of cluster `p` that the store touched takes effect; a store to PROD or
FREE sets the block up anew, and its kept counts are gone (R146). -/
def relStoresIn (s : State) (cells : List Nat) (p : Nat) : State :=
  let touches := fun (w n : Nat) => cells.any fun a => w ≤ a && a < w + n
  (s.cluster p).mrb.foldl (fun t e =>
    let b := tarnBase p + e.1
    let t1 := if touches (b + 8) 8 then t.modCluster p fun x => { x with mrb := x.mrb.set e.1 [] } else t
    (List.range 16).foldl (fun u c =>
      if touches (b + 64 + 4 * c) 4 then relCount u p e.1 c (u.seen (b + 64 + 4 * c) 4) else u) t1) s

/-- After a store to `cells`: the ring blocks of every Tarn that it touched take note. -/
def relStores (s : State) (cells : List Nat) : State :=
  (distinct ((cells.filter isTarn).map fun c => (c - 2 ^ 66) / 2 ^ 22)).foldl (fun t p => relStoresIn t cells p) s

/-- Bytes written by a network interface or another agent of the device, with one count for each 128-byte line (16 R265); where they go to a
unit that is off, they wait in a router, after those that wait there already (24 R365). -/
def agentStore (s : State) (cells data : List Nat) : State :=
  if asleep s cells then { s with parked := s.parked ++ [(false, cells, data)] }
  else relStores (bumpLines (writeCells s cells data) noSlot cells) cells

/-- A packet of the host's written to device memory, with one count for each tile (16 R265); it waits like any other (24 R365). -/
def hostPacket (s : State) (cells data : List Nat) : State :=
  if asleep s cells then { s with parked := s.parked ++ [(true, cells, data)] } else bumpOnce (writeCells s cells data) noSlot cells

/-- The writes that wait for units that are off, performed where those have returned (24 R365). -/
def unpark (s : State) : State :=
  s.parked.foldl (fun t e => if e.1 then hostPacket t e.2.1 e.2.2 else agentStore t e.2.1 e.2.2) { s with parked := [] }

/-- A store of slot `n` performed: guarded bytes discarded and reported, watch tiles counted once each, REL words of rings
taken (08 R144, R147; 16 R265). -/
def performStore (s : State) (n ea kind order : Nat) (pc : Option Nat) (cells data : List Nat) : State :=
  relStores (bumpOnce (noteGuard (writeCells s cells data) n ea kind order pc cells) n cells) cells

/-- The elements of a vector store written one after the other, each an access of its own (06 R133). -/
def performParts (s : State) (n order : Nat) (as : List (Nat × List Nat)) (data : List Nat) : State :=
  match as with
  | [] => s
  | (a, cs) :: t =>
    performParts (relStores (noteGuard (writeBytes s cs (data.take cs.length)) n a 2 order none cs) cs) n order t
      (data.drop cs.length)

/-- A vector store of slot `n` performed: each element is an access; the instruction as a whole covers a poisoned granule and counts
once in each tile (06 R133; 08 R154; 16 R265). -/
def performStores (s : State) (n order : Nat) (as : List (Nat × List Nat)) (cells data : List Nat) : State :=
  bumpOnce (clearPoison (performParts s n order as data) cells) n cells

/-! ### Retirement -/

/-- PC after an instruction that does not transfer control; inside a repeat frame, the place of the next instance and the
frame's progress (R56, R88, R90). -/
def nextPc (x : Slot) : Slot :=
  match x.frame with
  | none => { x with pc := (x.pc + 4) % 2 ^ 52 }
  | some f =>
    if f.rpos + 1 < f.words.length then
      { x with frame := some { f with rpos := f.rpos + 1 }, pc := (x.pc + 4) % 2 ^ 52 }
    else if f.ridx + 1 < f.count then
      { x with frame := some { f with rpos := 0, ridx := f.ridx + 1 }, pc := (f.base + 4) % 2 ^ 52 }
    else { x with frame := none, pc := (f.base + 4 + 4 * f.words.length) % 2 ^ 52 }

/-- The bookkeeping of a completed instruction: INSTRET counts it, a prefix that was pending before it ends (R72, R77). -/
def countInstr (x : Slot) : Slot :=
  { x with instret := (x.instret + 1) % 2 ^ 64, again := none, st := .running }

/-- The instruction of slot `n` completes and PC advances; `pfx` says that a prefix was pending before it. -/
def retire (s : State) (n : Nat) (pfx : Bool) : State :=
  let s1 := s.modSlot n fun x =>
    let y := nextPc (countInstr x)
    if pfx then { y with pfx := none } else y
  s1.modCore (coreOf n) fun c => { c with retired := c.retired + 1 }

/-- The instruction of slot `n` completes and PC moves to `pc`. -/
def retireTo (s : State) (n pc : Nat) : State :=
  let s1 := s.modSlot n fun x => { countInstr x with pc := pc % 2 ^ 52 }
  s1.modCore (coreOf n) fun c => { c with retired := c.retired + 1 }

/-! ### Event names -/

/-- The event that a name stands for in the view of `size` clusters from cluster `b` on (R170): cluster and die numbers are tenant
view. A name whose fields name no home stands for home 999, where nothing is ever live; one of another node's package for home
1000 + node; a package name never holds 0xFFF. -/
def refInView (s : State) (b size name : Nat) : EvRef :=
  let h := bits name 25 14
  let home :=
    if bits name 31 30 = 1 then (if bits h 11 7 = 0 ∧ h < size ∧ b + h < 128 then b + h else 999)
    else if bits name 31 30 = 2 then (if bits h 11 2 = 0 ∧ b / 32 + h < 4 then 128 + b / 32 + h else 999)
    else if bits name 31 30 = 3 then (if h = s.node then 132 else if h = 0xFFF then 999 else 1000 + h)
    else 999
  { home := home, idx := bits name 13 0, gen := bits name 29 26 }

/-- The event that a name stands for as slot `n` sees it. -/
def refOfName (s : State) (n name : Nat) : EvRef := refInView s (viewBase s n) (viewSize s n) name

/-- Whether the event's home lies on another node. -/
def EvRef.away (r : EvRef) : Bool := 1000 ≤ r.home

/-- The name of an event as slot `n` sees it. -/
def nameOf (s : State) (n : Nat) (r : EvRef) : Nat :=
  let b := viewBase s n
  let (lv, h) :=
    if r.home < 128 then (1, r.home - b) else if r.home < 132 then (2, r.home - 128 - b / 32) else (3, s.node)
  lv * 2 ^ 30 + r.gen * 2 ^ 26 + h * 2 ^ 14 + r.idx

/-- The live entry of an event; none when the name is stale or freed (R172). -/
def evOf (s : State) (r : EvRef) : Option Ev :=
  if r.away then none
  else
    let e := (s.home r.home).evs.get r.idx {}
    if e.live && e.gen = r.gen then some e else none

/-- What the home of another node answers about name `nm` now (log 26). -/
def farEvent (s : State) (nm : Nat) : Nat := (Config.farEvent s.fresh s.time nm).toNat

/-- Whether it answers that the event is live and lacks the asking agent as a party. -/
def farStranger (s : State) (nm : Nat) : Bool := bit (farEvent s nm) 0 && !bit (farEvent s nm) 1

/-- An entry changed. -/
def modEv (s : State) (h i : Nat) (f : Ev → Ev) : State :=
  s.modHome h fun r => { r with evs := r.evs.set i (f (r.evs.get i {})) }

/-- Entries of a resolver (R8). -/
def homeCap (h : Nat) : Nat := if h < 128 then 1024 else if h < 132 then 4096 else 16384

/-- An event breaks (R186); a stale name has no effect. -/
def breakEv (s : State) (r : EvRef) : State :=
  match evOf s r with
  | none => s
  | some _ => modEv s r.home r.idx fun e => { e with broken := true }

/-! ### The fabric -/

/-- The dies whose lanes form a port (01 R14). -/
def portDies (p : Nat) : List Nat := if p < 16 then [p / 4] else if p = 16 then [0, 1] else [2, 3]

/-- Whether a port is up (24 R340, R343): eight trained lanes, its dies on, not taken down. -/
def portUp (s : State) (p : Nat) : Bool :=
  decide ((s.port p).lanes.length = 8) && !(s.port p).down && (portDies p).all fun d => !(s.die d).off

/-- The ports that may carry a message to a node (24 R342). -/
def usablePorts (s : State) (node : Nat) : List Nat :=
  let e := (s.routes.get node 0).toNat
  if bit e 63 then (List.range 18).filter fun p => bit e p && portUp s p else []

/-- The port that a message takes (24 R342). The receiver of an event message stands in its tag; any other of class E goes to a
resolver. -/
def choosePort (s : State) (m : Packet) : Option Nat :=
  let ps := usablePorts s m.node
  let key := if m.cls = 0 then m.addr / 64 else if m.cls = 4 then m.addr else if m.cls = 5 then (if m.op = 11 then m.tag else 0) else m.seq
  ps[Config.portHash m.src m.node key % ps.length]?

/-- Flits of a message: its header takes 32 of the 240 message bytes of a flit (24 R341). -/
def flitsOf (m : Packet) : Nat := if m.op = 1 ∨ m.op = 5 ∨ m.op = 11 ∨ 32 + m.size ≤ 240 then 1 else 2

/-- The flits of a message from sequence number `q` on: the last one completes it (24 R341). -/
def flitsFrom (q : Nat) (m : Packet) : List Flit :=
  if flitsOf m = 1 then [⟨q, true, some m, none, none⟩]
  else [⟨q, true, none, none, none⟩, ⟨(q + 1) % 4096, true, some m, none, none⟩]

/-- Flit buffers that messages take. -/
def flitSum (l : List Packet) : Nat := (l.map flitsOf).foldl (· + ·) 0

/-- The tenant and the class of a message, as one number. -/
def shareOf (m : Packet) : Nat := m.vi * 8 + m.cls

/-- Flit buffers of the shared pool that messages take while each enabled tenant has a reserve of `r` in each class (24 R344). -/
def poolUse (s : State) (l : List Packet) (r : Nat) : Nat :=
  (distinct (l.map shareOf)).foldl (fun a k =>
    a + (flitSum (l.filter fun m => shareOf m == k) - if bit (s.vif (k / 8)).tencfg.toNat 63 then r else 0)) 0

/-- Flit buffers of the shared pool of a receiver when each enabled VI has `r` per class (24 R344). -/
def poolSize (s : State) (r : Nat) : Nat := 2048 - 6 * r * (s.vis.filter fun e => bit e.2.tencfg.toNat 63).length

/-- Whether a port may send message `m` now: its flits fit the replay buffer of 512 (24 R343), and it holds credits for them from the reserve
or from the pool of the receiver, whose MIN is taken to be its own (24 R344; log 152). -/
def maySend (s : State) (q : Port) (m : Packet) : Bool :=
  decide (q.buf.length + flitsOf m ≤ 512) && decide (poolUse s (q.out ++ [m]) (q.minNow + 1) ≤ poolSize s (q.minNow + 1))

/-- A message leaves a port: its flits join the replay buffer until they are acknowledged (24 R343), its credits are in use. -/
def Port.emit (q : Port) (m : Packet) : Port :=
  { q with buf := q.buf ++ flitsFrom q.txSeq m, txSeq := (q.txSeq + flitsOf m) % 4096, out := q.out ++ [m] }

/-- The messages that wait at a port, in order, each sent unless one of its tenant and class before it goes on waiting. -/
def Port.flush (s : State) (l : List Packet) (q : Port) : Port :=
  match l with
  | [] => q
  | m :: t =>
    if (q.wait.any fun k => shareOf k == shareOf m) || !maySend s q m then Port.flush s t { q with wait := q.wait ++ [m] }
    else Port.flush s t (q.emit m)

/-- The messages that wait at port `p`, tried again. -/
def flushPort (s : State) (p : Nat) : State := s.modPort p fun q => Port.flush s q.wait { q with wait := [] }

/-- A message sent over a port, at once or when it gets its credits; none when no port is usable, and the message then completes under 20
R312. -/
def transmit (s : State) (m : Packet) : Option State :=
  (choosePort s m).map fun p => s.modPort p fun q => Port.flush s (q.wait ++ [m]) { q with wait := [] }

/-- A message sent to every other node to which a route leads. -/
def broadcast (s : State) (m : Packet) : State :=
  s.routes.foldl (fun t e => if bit e.2.toNat 63 && e.1 != s.node then (transmit t { m with node := e.1 }).getD t else t) s

/-- Whether a tenant is enabled (22 R330). -/
def enabledVi (s : State) (vi : Nat) : Bool := bit (s.vif vi).tencfg.toNat 63

/-- A message of class E of the device's own. -/
def devicePacket (s : State) (op node vi : Nat) : Packet := ⟨5, op, node, s.node * 2 ^ 13, vi, 0, 0, 0, 8, 0, 0, 0⟩

/-- A packet of slot `n` to a node. -/
def packetOf (s : State) (n cls op node lva size : Nat) : Packet :=
  ⟨cls, op, node, agentId s n, (s.slot n).vi, 0, (s.slot n).tag, lva, size, 0, 0, 0⟩

/-- A message of slot `n` sent under the next sequence number of the slot (08 R161) and counted by its core (20 R313): the number, and
the state; none where its node cannot be reached. -/
def sendFrom (s : State) (n : Nat) (m : Packet) : Option (Nat × State) :=
  let q := (s.slot n).seq
  (transmit s { m with seq := q }).map fun t =>
    (q, (t.modSlot n fun x => { x with seq := q + 1 }).modCore (coreOf n) fun c => { c with msgSent := c.msgSent + 1 })

/-! ### The life of events -/

/-- The event that slot `n` means by a name breaks; its home on another node is told (R186). -/
def breakName (s : State) (n nm : Nat) : State :=
  let r := refOfName s n nm
  if r.away then ((sendFrom s n { packetOf s n 5 9 (r.home - 1000) r.idx 8 with data := nm }).map Prod.snd).getD s else breakEv s r

/-- An event is freed (R172): it breaks, its generation advances, its index and its channel number return. -/
def freeEv (s : State) (r : EvRef) : State :=
  match evOf s r with
  | none => s
  | some e =>
    let s1 := modEv s r.home r.idx fun _ => { gen := (e.gen + 1) % 16 }
    match e.chan with
    | none => s1
    | some c => s1.modCluster e.cl fun x => { x with chans := x.chans.filter (· != c) }

/-- The lowest free index of a resolver, if it has one. -/
def freeIdx (s : State) (h : Nat) : Option Nat :=
  let evs := (s.home h).evs
  (List.range (min (homeCap h) (evs.length + 1))).find? fun i => !(evs.get i {}).live

/-- A new live entry at home `h`; none when the resolver has no free index. -/
def newEv (s : State) (h : Nat) (e : Ev) : Option (EvRef × State) :=
  match freeIdx s h with
  | none => none
  | some i =>
    let g := ((s.home h).evs.get i {}).gen
    some ({ home := h, idx := i, gen := g }, modEv s h i fun _ => { e with live := true, gen := g })

/-- The lowest home that contains every cluster (below 128) and die (128 + d) of a party set of the own node (R171). -/
def homeOf (places : List Nat) : Nat :=
  let die := fun q => if q < 128 then q / 32 else q - 128
  match places with
  | [] => 132
  | q :: t =>
    if q ≥ 132 ∨ t.any (fun u => u ≥ 132) then 132
    else if t.all (fun u => u == q) then q
    else if t.all (fun u => die u == die q) then 128 + die q
    else 132

/-- The place of a party entry on its node (R173): its cluster, 128 plus its die, or the package. An agent of a Mace or Sumac slot, which has
no cluster, stands at its die (DESIGN CHOICE, log 13). -/
def placeOf (p : Nat) : Nat :=
  let k := p / 2 ^ 28
  let d := bits p 12 11
  if k = 8 ∨ k = 9 ∨ k = 12 ∨ k = 13 ∨ bits p 26 25 ≠ 0 then 128 + d
  else if k = 7 then 132
  else 32 * d + bits p 10 6

/-! ### Event messages -/

/-- A message that slot `n` sends, counted by its core (20 R313). -/
def countSent (s : State) (n : Nat) : State :=
  if n < 8384 then s.modCore (coreOf n) fun c => { c with msgSent := c.msgSent + 1 } else s

/-- A message that slot `n` receives, counted by its core (20 R313). -/
def countRecv (s : State) (n : Nat) : State :=
  if n < 8384 then s.modCore (coreOf n) fun c => { c with msgRecv := c.msgRecv + 1 } else s

/-- A message of class E sent (R183): it takes part where it arrives. -/
def send (s : State) (m : Msg) : State := countSent { s with msgs := s.msgs ++ [m] } m.src

/-- The sender number of an agent that is no slot, kept apart from slots and homes. -/
def agentSrc (party : Nat) : Nat := 100000 + party

/-- The sender number of a home. -/
def homeSrc (h : Nat) : Nat := 50000 + h

/-- Whether a message is a barrier offer. One that its home cannot take yet stands registered there (R201) and holds nothing back. -/
def Msg.isBarrier (m : Msg) : Bool := match m.body with
  | .barrier _ _ _ _ => true
  | _ => false

/-- The first message of its pair of agents may be delivered (class E keeps the order sent, 24 R345). -/
def deliverable (s : State) (i : Nat) : Option Msg :=
  match s.msgs[i]? with
  | none => none
  | some m => if (s.msgs.take i).any fun k => k.src == m.src && k.dst == m.dst && !k.isBarrier then none else some m

/-- The messages without message `i`, which its receiver takes. -/
def dropMsg (s : State) (i : Nat) : State :=
  let t := { s with msgs := s.msgs.eraseIdx i }
  match s.msgs[i]? with
  | some m => countRecv t m.dst
  | none => t

/-- An engine offer of an agent for one event, sent to its home (R180); an offer for a broken or stale event is
discarded (R172, R186). -/
def engineOffer (s : State) (party : Nat) (r : Option EvRef) : State :=
  match r with
  | none => s
  | some r =>
    if r.away then send s { src := agentSrc party, dst := homeSrc r.home, body := .engine party r.idx r.gen }
    else match evOf s r with
      | none => s
      | some e => if e.broken then s
        else send s { src := agentSrc party, dst := homeSrc r.home, body := .engine party r.idx r.gen }

/-- The homes of an offer. -/
def Offer.homes (o : Offer) : List Nat := distinct (o.pos.map fun p => p.ev.home)

/-- An offer's registration leaves for every home (R183, R198). -/
def sendOffer (s : State) (n : Nat) (o : Offer) : State :=
  let party := selfParty s n
  let single := o.homes.length ≤ 1
  o.pos.foldl (fun t p => send t ⟨n, homeSrc p.ev.home,
    .register party p.ev.idx p.ev.gen p.side o.id single p.pos p.role p.buf⟩) s

/-- The registrations of an offer taken from one home. -/
def dropRegs (s : State) (h offId : Nat) : State :=
  s.modHome h fun r => { r with regs := r.regs.filter fun g => g.offId != offId }

/-- A withdrawal of offer `o` leaves for each of its homes (R183). -/
def sendWithdraw (s : State) (n : Nat) (o : Offer) : State :=
  o.homes.foldl (fun t h => send t ⟨n, homeSrc h, .withdraw n o.id⟩) s

/-- The result word of an offer (R197). -/
def resultWord (pos status : Nat) : Nat := pos + status * 2 ^ 8

/-- The blocking offer of slot `n` completes: result word, OFR.LAST and LSTAT, and the instruction retires (R197, R198). -/
def completeBlocking (s : State) (n d pos status : Nat) : State :=
  let s1 := s.modSlot n fun x =>
    { (x.ws d (BitVec.ofNat 64 (resultWord pos status))) with offer := none, last := pos, lstat := status }
  retire s1 n false

/-- An offer of slot `n` completes with POS and STATUS (R190, R197 to R199): a blocking offer returns, a standing offer waits
for its handler. -/
def completeOffer (s : State) (n offId pos status : Nat) : State :=
  let x := s.slot n
  match x.stand.filter fun q => q.id == offId, x.offer.filter fun q => q.id == offId with
  | some o, _ => s.setSlot n
      { x with stand := none, ready := some (resultWord pos status), readyPc := o.handler, last := pos, lstat := status }
  | none, some o => completeBlocking s n o.d pos status
  | none, none => s

/-- The offer of slot `n` with this id, blocking, standing or suspended. -/
def offerById (x : Slot) (offId : Nat) : Option Offer :=
  ([x.offer, x.stand, x.susp].filterMap id).find? fun o => o.id == offId

/-- A change to the offer of slot `n` with this id. -/
def modOffer (s : State) (n offId : Nat) (f : Offer → Offer) : State :=
  let g := fun (o : Option Offer) => o.map fun q => if q.id == offId then f q else q
  s.modSlot n fun x => { x with offer := g x.offer, stand := g x.stand, susp := g x.susp }

/-! ### Claims (R184) -/

/-- The number of the offer unit of a slot party: its slot on the own node, a number of its own for another node's. -/
def unitOf (s : State) (party : Nat) : Nat :=
  match slotOfParty s party with
  | some n => n
  | none => 2 ^ 32 + party

/-- A message of home `h` to an offer unit. -/
def toUnit (s : State) (h u : Nat) (b : MsgBody) : State := send s ⟨homeSrc h, u, b⟩

/-- The id of the offer with which party `p` offers event `i` at home `h`. -/
def offIdOf (s : State) (h i p : Nat) : Nat :=
  (((s.home h).regs.find? fun g => g.party == p && g.idx == i).map (·.offId)).getD 0

/-- The claim attempt of event `i` and side `side` at home `h` ends without a commit: every claim that it holds or has asked for
is released. `wait` says that the event then waits for an announcement. -/
def failAttempt (s : State) (h i side : Nat) (wait : Bool) : State :=
  let r := s.home h
  match r.tries.find? fun y => y.idx == i && y.side == side with
  | none => s
  | some y =>
    let g := (r.evs.get i {}).gen
    let s1 := y.asked.foldl
      (fun t p => toUnit t h (unitOf s p) (.release (unitOf s p) (offIdOf s h i p) ⟨h, i, g⟩ side)) s
    s1.modHome h fun q =>
      let rest := q.tries.filter fun z => !(z.idx == i && z.side == side)
      { q with tries := if wait then rest ++ [{ y with asked := [], granted := [], waits := true }] else rest }

/-- Whether a home has sent the commit of this offer, or its BROKEN, and the message is still under way. -/
def commitSent (s : State) (n offId : Nat) : Bool :=
  s.msgs.any fun m => match m.body with
    | .commit u o _ _ => u == n && o == offId
    | _ => false

/-- An offer is withdrawn by its slot and leaves it; each of its homes counts it until the withdrawal has arrived there (R183, R199). -/
def withdrawOffer (s : State) (n : Nat) (o : Offer) : State :=
  let g := fun (q : Option Offer) => q.filter fun u => u.id != o.id
  (sendWithdraw s n o).modSlot n fun x =>
    { x with offer := g x.offer, stand := g x.stand, susp := g x.susp, armNext := g x.armNext }

/-- The block that slot `n` was given is done (24 R351). -/
def blockDone (s : State) (n : Nat) : State :=
  match (s.slot n).blockDue with
  | none => s
  | some b =>
    (s.modRegn (b / 2 ^ 64) fun g =>
      { g with recs := g.recs.map fun e => if e.start == b % 2 ^ 64 then { e with done := true } else e }).modSlot n
      fun x => { x with blockDue := none }

/-- A core that a stop or a breakpoint has halted (20 R313, R317). -/
def haltedCore (s : State) (c : Nat) : Bool := (s.core c).halted || (s.core c).brk

/-- Whether a party is an agent of a cluster of this node: a lease arbiter, a queue agent. -/
def clusterAgent (s : State) (p : Nat) : Bool := (p / 2 ^ 28 == 5 || p / 2 ^ 28 == 6) && bits p 24 13 == s.node

/-- Whether a party of an event is held (R187): its slot's core is halted, or its cluster's clock stands still. -/
def heldParty (s : State) (p : Nat) : Bool :=
  match slotOfParty s p with
  | none => clusterAgent s p && (s.cluster (32 * bits p 12 11 + bits p 10 6)).cur != 0
  | some n => haltedCore s (coreOf n) || (isWorker n && (s.cluster (clusterOf n)).cur != 0)

/-- The timestamp at which a party last ceased to be held. -/
def partyFreed (s : State) (p : Nat) : Nat :=
  match slotOfParty s p with
  | none => if clusterAgent s p then (s.cluster (32 * bits p 12 11 + bits p 10 6)).woke else 0
  | some n => max (s.core (coreOf n)).freed (if isWorker n then (s.cluster (clusterOf n)).woke else 0)

/-- The parties that take part in an event: of a channel those of the side, producer or consumer and the queue agent (R179). -/
def Ev.takers (e : Ev) (side : Nat) : List Nat :=
  if side = 1 then e.parties.drop 1 else if side = 2 then e.parties.eraseIdx 1 else e.parties

/-- Whether a position of an offer is held: a party of its event, or of the channel's side that it offers, is (R187). -/
def heldPos (s : State) (p : OPos) : Bool :=
  match evOf s p.ev with
  | none => false
  | some e => (e.takers p.side).any (heldParty s)

/-! ### Windows and time -/

/-- The cluster number that stands for the cluster of a channel whose ring lies on another node. -/
def farCluster : Nat := 999

/-- Items queued in a channel's ring: P − C (R145); of a ring on another node some number, a free value (log 26). -/
def chanCount (s : State) (e : Ev) : Nat :=
  let b := tarnBase e.cl + e.mrb
  if e.cl = farCluster then farEvent s e.chan.toList.sum % (e.depth + 1) else dist32 (mrbProd s b) (mrbFree s b)

/-- Cycles of a window (R183). -/
def windowLen (h : Nat) : Nat := if h < 128 then 4 else if h < 132 then 16 else 64

/-- The timestamp at which window `w` of home `h`, which has still to come, starts. -/
def startTime (s : State) (h w : Nat) : Nat :=
  if h = 132 then w * windowLen h
  else
    let d := s.die (dieOfHome h)
    let rate := 5 - d.pcur
    s.time + (5 * w * windowLen h - d.cyc5 + rate - 1) / rate

/-- How things stand at home `h` for the window `w` that starts now (R179; 20 R303; 24 R350); what stood so at the start `old` has done so
since the same time. -/
def snapNow (s : State) (h w : Nat) (old : Option Snap) : Snap :=
  let d := s.die (h - 128)
  let die := 128 ≤ h ∧ h < 132
  let now := startTime s h w
  { window := w
    cnt := ((s.home h).evs.filter fun (e : Nat × Ev) => e.2.live && e.2.plan == 4).map fun (e : Nat × Ev) =>
      let n := chanCount s e.2
      let u := (old.bind fun q => (q.cnt.find? fun c => c.1 == e.1).map Prod.snd).getD (0, now, now)
      (e.1, n, if u.1 = 0 then now else u.2.1, if u.1 < e.2.depth then u.2.2 else now)
    trap := if die ∧ d.tqtail ≠ d.tqhead then some ((old.bind (·.trap)).getD now) else none
    blocks := if die then (distinct (d.blocks.map (·.slot))).map fun n =>
        (n, ((old.bind fun q => (q.blocks.find? fun c => c.1 == n).map Prod.snd).getD now)) else [] }

/-- A window's start noted where what the agents of the home offer has changed; what is older than the window to be resolved next goes. -/
def noteSnap (r : Resolver) (q : Snap) : Resolver :=
  let quiet := q.cnt.isEmpty && q.trap.isNone && q.blocks.isEmpty
  if (match r.snaps.getLast? with
      | some u => u.cnt == q.cnt && u.trap == q.trap && u.blocks == q.blocks
      | none => quiet) then r
  else
    let old := r.snaps.filter fun u => decide (u.window ≤ r.window)
    { r with snaps := old.drop (old.length - 1) ++ (r.snaps.filter fun u => decide (r.window < u.window)) ++ [q] }

/-- The starts of windows that pass as the state `s` becomes `t` noted at the homes: at those that hold something, and at each die
whose trap queue or reduction queue holds something. -/
def noteWindows (s t : State) : State :=
  let dies := ((List.range 4).filter fun d => (s.die d).tqtail != (s.die d).tqhead || !(s.die d).blocks.isEmpty).map (128 + ·)
  (distinct (s.homes.map Prod.fst ++ dies)).foldl (fun u h =>
    let w := homeCycles s h / windowLen h + 1
    if homeCycles t h / windowLen h < w then u else u.modHome h fun r => noteSnap r (snapNow s h w r.snaps.getLast?)) t

/-- Time passes (01 R15, R16; 24 R364): `dt` ticks of the reference clock; each die that is on counts its cycles, a cluster in
C1 or C2 loses them, and an OFFERT limit runs down unless every event of its offer is held (R187, R188). -/
def tick (s : State) (dt : Nat) : State :=
  if dt = 0 then s
  else
    let rate := fun (x : Die) => if x.off then 0 else 5 - x.pcur
    let s1 := { s with
      time := (s.time + dt) % 2 ^ 64
      dies := (List.range 4).map fun d =>
        (d, { s.die d with cyc5 := (s.die d).cyc5 + dt * rate (s.die d) })
      clusters := s.clusters.map fun (e : Nat × Cluster) =>
        if e.2.cur = 0 then e else (e.1, { e.2 with lost := e.2.lost + dt * rate (s.die (e.1 / 32)) }) }
    let run := fun (n : Nat) (o : Offer) =>
      match o.left with
      | some l =>
        if o.pos.all (heldPos s) then o
        else { o with left := some (l - (dieCycles s1 (dieOfSlot n) - dieCycles s (dieOfSlot n))) }
      | none => o
    noteWindows s { s1 with slots := s1.slots.map fun (e : Nat × Slot) =>
        (e.1, { e.2 with offer := e.2.offer.map (run e.1), susp := e.2.susp.map (run e.1) }) }

end Sys2Proof.Machine
end

