-- ==== Sys2Proof/Machine/Stores.lean ====
section
/-!
DEFINITION. What performs the stores and the atomics of a slot: the atomic operations (08 R158 to R162), the store buffer (02 R45),
the merging of atomics on their way (08 R160), and the order of SC operations (18 R282).

Readings and choices of the model (log): DESIGN CHOICE 10, 21; DEDUCED 68, 69, 151.
-/

namespace Sys2Proof.Machine

open Sys2Proof

/-! ### Atomic operations -/

/-- The new value and the flags of an ATOM operation on `w` bits (R158, R159). -/
def atomNew (op w old x cmp : Nat) : Nat × Nat :=
  let f := if w = 32 then fp32 else fp64
  match op with
  | 0x0 => ((old + x) % 2 ^ w, 0)
  | 0x1 => (old &&& x, 0)
  | 0x2 => (old ||| x, 0)
  | 0x3 => (old ^^^ x, 0)
  | 0x4 => (if sx w old ≤ sx w x then old else x, 0)
  | 0x5 => (if sx w old ≤ sx w x then x else old, 0)
  | 0x6 => (min old x, 0)
  | 0x7 => (max old x, 0)
  | 0x8 => (x, 0)
  | 0x9 => (if old = cmp then x else old, 0)
  | 0xA => fadd f .rne old x
  | 0xB => fminmax f false old x
  | _ => fminmax f true old x

/-- The die whose home agent performs an atomic on a cell (R160, R162). -/
def homeDie (c : Nat) : Nat :=
  if isDev c then dieOfCell c
  else if 2 ^ 67 ≤ c then (c - 2 ^ 67) / 2 ^ 27
  else if 2 ^ 66 ≤ c then (c - 2 ^ 66) / 2 ^ 22 / 32
  else dieOfSlot (4 * ((c - 2 ^ 65) / 2 ^ 16))

/-- The flags of an atomic recorded for its tenant at its home (R162). -/
def noteAtomFlags (s : State) (vi c fl : Nat) : State :=
  if fl = 0 then s
  else s.modDie (homeDie c) fun d => { d with atomf := d.atomf.set vi ((d.atomf.get vi 0) ||| fl) }

/-- An atomic performed at its home as one step: old value, flags, state (R158, R160; 16 R265). An ACAS whose compare fails writes
nothing (18 R284). -/
def atomAt (s : State) (n ea order : Nat) (cells : List Nat) (op x cmp : Nat) : Nat × Nat × State :=
  let w := 8 * cells.length
  let old := numOf (readCells s cells)
  let (new, fl) := atomNew op w old (x % 2 ^ w) (cmp % 2 ^ w)
  let writes := op ≠ 9 ∨ old = cmp % 2 ^ w
  let s1 := if writes then writeCells s cells (bytesOf cells.length new) else s
  let s2 := noteAtomFlags (bumpOnce (noteGuard s1 n ea 3 order none cells) n cells) (s.slot n).vi (cells.headD 0) fl
  (old, fl, if writes then relStores s2 cells else s2)

/-- A local atomic without a result, performed: on a poisoned location it is dropped and reported as ECC_UE (R162). -/
def atomQuiet (s : State) (n ea order : Nat) (cells : List Nat) (op x cmp : Nat) : State :=
  match cells.find? (poisoned s) with
  | some c => recordReport s n (eccTrap ea 3 order cells c)
  | none => (atomAt s n ea order cells op x cmp).2.2

/-! ### The store buffer -/

/-- The accesses of an entry, each with its address. -/
def SbEntry.accesses (e : SbEntry) : List (Nat × List Nat) :=
  let k := e.cells.length / e.parts.length
  if e.parts.isEmpty then [(e.addr, e.cells)] else e.parts.zipIdx.map fun p => (p.1, (e.cells.drop (k * p.2)).take k)

/-- An entry of a store buffer performed: a store, or an atomic without a result. -/
def drainEntry (s : State) (n : Nat) (e : SbEntry) : State :=
  match e.op with
  | none => performStores s n e.order e.accesses e.cells (bytesOf e.cells.length e.data)
  | some (op, x) => atomQuiet s n e.addr e.order e.cells op x e.cmp

/-- The slot's store buffer performed, oldest first. -/
def drainStores (s : State) (n : Nat) : State :=
  match (s.slot n).sb with
  | [] => s
  | sb => sb.foldl (fun t e => drainEntry t n e) (s.modSlot n fun x => { x with sb := [] })

/-- Entries that the store buffer holds at most (log 10). -/
def storeBufferSize : Nat := 16

/-- Whether entry `i` of a store buffer may be performed next: no older entry shares a byte with it, and nothing older stands before a
release (18). -/
def mayDrain (sb : List SbEntry) (i : Nat) : Bool :=
  match sb[i]? with
  | none => false
  | some e => (i == 0 || e.order == 0) && (sb.take i).all fun o => !o.cells.any fun c => e.cells.contains c

/-- Whether an operation of an atomic is one that routers merge (R160). -/
def mergesOp (op : Nat) : Bool := op != 8 && op != 9 && decide (op < 13)

/-- Requests merged on their way to their home: the slots that issued them, the entry that stands for all, the merged operand, the flags of
the combining steps (R160). -/
structure Merged where
  slots : List Nat
  entry : SbEntry
  op    : Nat
  x     : Nat
  fl    : Nat

/-- The atomic at place `i` of slot `n`'s store buffer taken out to be merged: it is relaxed, without a result, of an operation that merges,
and no older entry holds it back. -/
def takeAtom (s : State) (n i : Nat) : Option (Merged × State) :=
  match (s.slot n).sb[i]? with
  | none => none
  | some e =>
    match e.op with
    | none => none
    | some (op, x) =>
      if mergesOp op && e.order == 0 && mayDrain (s.slot n).sb i then
        some (⟨[n], e, op, x, 0⟩, s.modSlot n fun u => { u with sb := u.sb.eraseIdx i })
      else none

/-- Two requests merged (R160): the same operation, width, address and tenant; the operand is Op(x, y), the flags those of both and of the
step. -/
def mergeTwo (s : State) (a b : Merged) : Option Merged :=
  let w := 8 * a.entry.cells.length
  let viOf := fun (m : Merged) => (s.slot (m.slots.headD 0)).vi
  if a.op == b.op && a.entry.cells == b.entry.cells && viOf a == viOf b then
    let (z, fl) := atomNew a.op w (a.x % 2 ^ w) (b.x % 2 ^ w) 0
    some ⟨a.slots ++ b.slots, a.entry, a.op, z, a.fl ||| b.fl ||| fl⟩
  else none

/-- The requests of a merge taken out of their store buffers and combined; none where the rule does not allow it. -/
def takeMerge (s : State) (m : Merge) : Option (Merged × State) :=
  match m with
  | .one n i => takeAtom s n i
  | .two a b => (takeMerge s a).bind fun p => (takeMerge p.2 b).bind fun q => (mergeTwo s p.1 q.1).map fun r => (r, q.2)

/-- Merged requests reach their home as one read-modify-write (R160): a poisoned location drops it with a report for each, a guard granule
is reported to each. -/
def performMerged (s : State) (m : Merged) : State :=
  let e := m.entry
  match e.cells.find? (poisoned s) with
  | some c => m.slots.foldl (fun t n => recordReport t n (eccTrap e.addr 3 e.order e.cells c)) s
  | none =>
    let n := m.slots.headD 0
    let s1 := (m.slots.drop 1).foldl (fun t k => noteGuard t k e.addr 3 e.order none e.cells) s
    noteAtomFlags (atomAt s1 n e.addr e.order e.cells m.op m.x 0).2.2 (s.slot n).vi (e.cells.headD 0) m.fl

/-- Routers merge atomics that are on their way and their home performs them at once (R160); nothing happens where the rule does not allow
it, or the home is stopped or off. -/
def mergeAtoms (s : State) (m : Merge) : State :=
  match takeMerge s m with
  | none => s
  | some (q, t) => if asleep s q.entry.cells then s else performMerged t q

/-! ### SC operations -/

/-- An SC operation of slot `n` announced in the window of the present tick (18 R282). -/
def announceSc (s : State) (n : Nat) : State :=
  let w := s.time / 64
  let c := coreOf n
  let k := (s.sc.filter fun e => e.window == w && e.core == c).length
  { s with sc := s.sc ++ [⟨w, c, k, n⟩] }

/-- Whether an SC operation of slot `n` may be performed now: none that its key places after it has been performed in this window (18
R282). One that may not waits for the next window. -/
def scMayAct (s : State) (n : Nat) : Bool :=
  s.sc.all fun e => e.window != s.time / 64 || decide (e.core ≤ coreOf n)

/-- The same for a fence whose drain ends: other slots of its core may have issued SC operations after it. -/
def scMayEnd (s : State) (n : Nat) : Bool :=
  s.sc.all fun e => e.window != s.time / 64 || decide (e.core < coreOf n) || e.slot == n

end Sys2Proof.Machine
end

