-- ==== Sys2Proof/Machine/Tasks.lean ====
section
/-!
DEFINITION. Shared operations on tasks: what the end of a task takes with it (02 R48 to R51, R38; 20 R300), launches and
frames (22 R326, R327), stops of a partition (20 R313, R314).

Readings and choices of the model (log): DESIGN CHOICE 27, 35, 104; DEDUCED 34, 39, 40, 42, 43, 44, 45, 52, 66, 78, 90,
116, 160.
-/

namespace Sys2Proof.Machine

open Sys2Proof

/-- Memory cells from `lo` on, `n` of them, lose what was written (they read as the default), and the poison of the granules among
them. -/
def clearRange (s : State) (lo n : Nat) : State :=
  { s with
    mem := s.mem.filter fun e => e.1 < lo || lo + n ≤ e.1
    poison := s.poison.filter fun g => g * 64 < lo || lo + n ≤ g * 64 }

/-- A launch of a tenant, by its id. -/
def launchOf (s : State) (vi id : Nat) : Option Launch :=
  (s.launches.find? fun e => e.1 == vi && e.2.id == id).map Prod.snd

/-- A launch changed. -/
def modLaunch (s : State) (vi id : Nat) (f : Launch → Launch) : State :=
  { s with launches := s.launches.map fun e => if e.1 == vi && e.2.id == id then (e.1, f e.2) else e }

/-- The chain that a task is a stage of. -/
def chainOfTask (s : State) (k : Task) : Option Chain :=
  if k.kind = 2 then s.chains.find? fun c => c.vi == k.vi && c.id == k.id else none

/-- Whether the chain of a slot's stage lets it issue: in folded form only the active stage does (14 R248). -/
def stageActive (s : State) (x : Slot) : Bool :=
  x.task.all fun k => (chainOfTask s k).all fun c => !c.folded || c.active == k.part

/-- A chain changed. -/
def modChain (s : State) (vi id : Nat) (f : Chain → Chain) : State :=
  { s with chains := s.chains.map fun c => if c.vi == vi && c.id == id then f c else c }

/-- Whether a task of launch `l` of tenant `vi` with this coordinate has still to be dispatched for the first time (R50). -/
def undispatched (s : State) (vi : Nat) (l : Launch) (x y z : Nat) : Bool :=
  if l.kind = 0 then
    let i := x + (l.ex + 1) * (y + (l.ey + 1) * z)
    x ≤ l.ex && y ≤ l.ey && z ≤ l.ez && l.group ≤ i / l.gsize && !(l.doneIn.contains i)
  else if l.kind = 1 then x < 16 && z = 0 && l.group ≤ y && y ≤ l.ex
  else if l.kind = 2 then
    y = 0 && z = 0 && l.group = 0 && s.chains.any fun c => c.vi == vi && c.id == l.id && decide (x ≤ c.nstage)
  else l.arrived.any fun e => e.1 == x + y * 2 ^ 16 && z == 0

/-- The successor that a retain operand names for a task, when the conditions of R50 hold; two slots may be
reserved for one (DEDUCED, log 40). -/
def successor (s : State) (k : Task) (retain : Nat) : Bool :=
  bit retain 63 && bits retain 62 38 = 0 && bits retain 37 32 = k.vi &&
    match launchOf s k.vi (bits retain 31 0) with
    | none => false
    | some l => !l.cancel && undispatched s k.vi l k.x k.y k.z && l.tcm = k.tcm

/-- The number that stands for a pre-empted task where a slot number is kept. -/
def awaySlot (order : Nat) : Nat := 2 ^ 20 + order

/-- The context of the task that is off its core under number `n`. -/
def awayPre (s : State) (n : Nat) : Option Pre := s.pre.find? fun e => e.out && awaySlot e.order == n

/-- The slot of a task, on its core or as it was saved. -/
def taskSlot (s : State) (n : Nat) : Slot := if n < awaySlot 0 then s.slot n else ((awayPre s n).map (·.slot)).getD {}

/-- The slot of a task changed, wherever it is. -/
def modTaskSlot (s : State) (n : Nat) (f : Slot → Slot) : State :=
  if n < awaySlot 0 then s.modSlot n f
  else { s with pre := s.pre.map fun e => if e.out && awaySlot e.order == n then { e with slot := f e.slot } else e }

/-- The agent of kind `k` of a task, on its core or off it. -/
def taskAgent (s : State) (k n : Nat) : Nat :=
  if n < awaySlot 0 then partyOf s k n
  else match awayPre s n with
    | some e => partyOf s k e.home + 2 ^ 32 * (e.order + 1)
    | none => 0

/-- The number of a free slot (02 R25): what belonged to the task is gone, the privileged registers stay. -/
def emptied (x : Slot) : Slot :=
  { vbase := x.vbase, epc := x.epc, ecause := x.ecause, saveptr := x.saveptr, pscratch := x.pscratch,
    seq := x.seq }

/-- The first TCM cell of a task's banks. -/
def bankCell (n : Nat) (k : Task) : Nat := tcmBase (coreOf n) + k.bank * 4096

/-- A slot whose task is over becomes Free, or Reserved for a successor (R48 step 5, R50): banks powered down unless they
are retained, the region of the slot disabled. -/
def releaseSlot (s : State) (n : Nat) : State :=
  let x := s.slot n
  match x.task with
  | none => s.setSlot n (emptied x)
  | some k =>
    if successor s k x.retain then
      let l := bits x.retain 31 0
      s.setSlot n { emptied x with st := .reserved k.vi l k.x k.y k.z, task := some { k with tiles := [] }, vi := k.vi }
    else
      let s1 := clearRange s (bankCell n k) (k.tcm * 4096)
      let s2 := s1.setSlot n (emptied x)
      s2.modCore (coreOf n) fun c => { c with trgn := c.trgn.set (slotIn n) 0 }

/-- The slots of the cluster of `n` that hold a team of its co-launch instance, `n` among them (R36). -/
def teamSlots (s : State) (n : Nat) : List Nat :=
  match (s.slot n).task with
  | none => []
  | some k => ((List.range 64).map fun j => clusterOf n * 64 + j).filter fun m =>
      match (s.slot m).task with
      | some j => j.kind == 1 && j.vi == k.vi && j.id == k.id && j.inst == k.inst
      | none => false

/-- Slot-cycles that a task has used, this segment included, without those in which its core stood halted (22 R333). -/
def taskCycles (s : State) (n : Nat) (k : Task) : Nat :=
  k.used + ((if haltedCore s (coreOf n) then (s.core (coreOf n)).haltAt else slotCycles s n) - k.from_)

/-- Tasks on cores that are no longer halted in `t`, and were in `s`: the cycles of the halt do not count (22 R333). -/
def haltsOver (s t : State) : State :=
  { t with slots := t.slots.map fun (e : Nat × Slot) =>
      let c := coreOf e.1
      if haltedCore s c && !haltedCore t c then
        (e.1, { e.2 with task := e.2.task.map fun k => { k with from_ := k.from_ + (slotCycles s e.1 - (s.core c).haltAt) } })
      else e }

/-- The party entry of the lease arbiter of cluster `p` (10 R173). -/
def arbiterParty (s : State) (p : Nat) : Nat := 5 * 2 ^ 28 + s.node * 2 ^ 13 + p * 2 ^ 6

/-- Whether an offer of a cluster's lease arbiter stands at a home, or is on its way there or its withdrawal is: the arbiter offers one event
at a time (12 R203). -/
def arbiterOut (s : State) (p : Nat) : Bool :=
  let a := arbiterParty s p
  (s.homes.any fun e => e.2.regs.any fun g => g.party == a) || s.msgs.any fun m => match m.body with
    | .engine q _ _ => q == a
    | .pull q _ _ => q == a
    | _ => false

/-- The arbiter forgets a slot: its lease ends, its request and its offer are withdrawn (12 R205, R219). -/
def dropLease (s : State) (n : Nat) : State :=
  if !isWorker n then s
  else
    let p := clusterOf n
    let l := (s.cluster p).lease
    let s1 := match l.offered, l.reqs.find? fun e => e.1 == n with
      | some (m, _), some (_, r) =>
        if m = n then
          let party := arbiterParty s p
          send s ⟨agentSrc party, homeSrc r.home, .pull party r.idx r.gen⟩
        else s
      | _, _ => s
    s1.modCluster p fun c =>
      { c with lease := { l with
          holder := if l.holder = some n then none else l.holder
          count := if l.holder = some n then 0 else l.count
          reqs := l.reqs.filter fun e => e.1 != n
          offered := if l.offered.any fun o => o.1 == n then none else l.offered } }

/-- The other end of a join (12 R234): a slot of the peer quad and its stream register. -/
def joinPeer (s : State) (n : Nat) (t : Stream) : Option (Nat × Nat) :=
  let q := n % 64 / 16
  ((List.range 96).map fun j => (clusterOf n * 64 + t.peerq * 16 + j / 6, j % 6)).find? fun e =>
    match (s.slot e.1).streams.find? fun u => u.1 == e.2 with
    | some (_, u) => u.kind == 2 && u.join == t.join && u.peerq == q && u.dir != t.dir
    | none => false

/-- A stream register unbound (12 R234, R236): beats not moved are discarded, and the other end of a join that has not run
to its count fails. -/
def freeStream (s : State) (n r : Nat) : State :=
  match (s.slot n).streams.find? fun e => e.1 == r with
  | none => s
  | some (_, t) =>
    let s1 := s.modSlot n fun x => { x with streams := SMap.del x.streams r }
    if t.kind = 2 ∧ t.moved < t.total then
      match joinPeer s n t with
      | none => s1
      | some (m, q) => s1.modSlot m fun x =>
          { x with streams := x.streams.map fun e => if e.1 == q then (q, { e.2 with fault := some 0x0B }) else e }
    else s1

/-- Every stream register of a slot unbound. -/
def freeStreams (s : State) (n : Nat) : State := (List.range 6).foldl (fun t r => freeStream t n r) s

/-- The engine commands of a slot that have not completed are cancelled, and its engine offers discarded (20 R300). -/
def cancelEngines (s : State) (n : Nat) : State :=
  let mine := fun (p : Nat) => [1, 2, 3, 4, 10].any fun k => p == partyOf s k n
  let s1 := freeStreams s n
  let s2 := { s1 with
    msgs := s1.msgs.filter fun m => match m.body with
      | .engine p _ _ => !mine p
      | _ => true
    homes := s1.homes.map fun (e : Nat × Resolver) =>
      (e.1, { e.2 with regs := e.2.regs.filter fun g => !mine g.party }) }
  if !isWorker n then s2
  else s2.modCluster (clusterOf n) fun c =>
    { c with
      mx := c.mx.filter fun m => m.slot != n
      copies := c.copies.map fun (e : Nat × List CpCmd) => (e.1, e.2.filter fun m => m.slot != n) }

/-- Step 1 of R48: the events bound to the slot's event slots break, and its offers are withdrawn. -/
def breakSlotEvents (s : State) (n : Nat) : State :=
  let x := s.slot n
  let s1 := x.evb.foldl (fun t e => if e.2 = 0 then t else breakName t n e.2) s
  let s2 := ([x.offer, x.stand, x.susp].filterMap id).foldl (fun t o => withdrawOffer t n o) s1
  s2.modSlot n fun y => { y with evb := [], ready := none, armNext := none }

/-- The party entries of a slot and of its agents. -/
def slotParties (s : State) (n : Nat) : List Nat := [slotKind n, 1, 2, 3, 4, 10].map (partyOf s · n)

/-- Every event that has slot `n`, or an agent of it, as a party breaks (10 R186; 20 R300); other nodes are told. -/
def breakPartyEvents (s : State) (n : Nat) : State :=
  let s1 := (List.range 4).foldl (fun t d => t.modHome (128 + d) id) s
  let told := (slotParties s n).foldr (fun p a => p % 2 ^ 32 + 2 ^ 32 * a) 0
  broadcast { s1 with homes := s1.homes.map fun (e : Nat × Resolver) =>
      (e.1, { e.2 with evs := e.2.evs.map fun v =>
        if v.2.live && v.2.parties.any (fun p => decide (slotOfParty s p = some n)) then (v.1, { v.2 with broken := true })
        else v }) } { devicePacket s 13 0 (s.slot n).vi with data := told }

/-- The slot of stage `i` of a chain. -/
def stageSlot (s : State) (c : Chain) (i : Nat) : Option Nat :=
  ((List.range 64).map fun j => c.cl * 64 + j).find? fun m =>
    match (s.slot m).task with
    | some j => j.kind == 2 && j.vi == c.vi && j.id == c.id && j.part == i && (s.slot m).st != .free
    | none => false

/-- The way in which a slot's stage is parked (14 R248, R253): 0 not parked, 1 at its first instruction, 2 at an EQP, 3 at a GET,
4 at a PUT not completed, 5 after a completed PUT. -/
def setPark (s : State) (n k : Nat) : State :=
  s.modSlot n fun x => { x with task := x.task.map fun j => { j with park := k } }

/-- Control of a folded chain passes to stage `i`, on its slot or off its core (14 R249, R255): it issues unless a switch is pending,
which keeps a parked stage parked (R253). -/
def passTo (s : State) (c : Chain) (i : Nat) : State :=
  let s1 := modChain s c.vi c.id fun d => { d with active := i }
  let mine := fun (k : Task) => k.kind == 2 && k.vi == c.vi && k.id == c.id && k.part == i
  match c.pend, stageSlot s c i with
  | some _, _ => s1
  | none, some m => setPark s1 m 0
  | none, none => { s1 with pre := s1.pre.map fun e =>
      if e.out && e.slot.task.any mine then
        { e with slot := { e.slot with task := e.slot.task.map fun k => { k with park := 0 } } }
      else e }

/-- A stage of a chain leaves it: the highest-numbered live stage is active next (14 R249). -/
def leaveChain (s : State) (k : Task) : State :=
  match chainOfTask s k with
  | none => s
  | some c =>
    let live := c.live.filter (· != k.part)
    let s1 := modChain s k.vi k.id fun d => { d with live := live }
    if c.folded && c.active = k.part && !live.isEmpty then passTo s1 { c with live := live } (live.foldl max 0) else s1

/-- A tenant charged `c` slot-cycles at timestamp `now` (22 R333), with what a replenishment of the same cycle needs (R339). -/
def chargeVi (now : Nat) (v : Vi) (c : Int) : Vi :=
  let same := v.chargeAt = now ∧ v.charged ≠ []
  { v with
    deficit := max (v.deficit - c) (-c)
    chargeBase := if same then v.chargeBase else v.deficit
    chargeAt := now
    charged := (if same then v.charged else []) ++ [c] }

/-- The accounts of a task that ends (22 R327, R333, R336): its frame returns, its tenant is charged, its launch counts it,
the record of an arrival is done. -/
def accountEnd (s : State) (n : Nat) (k : Task) (fatal : Bool) : State :=
  let c : Int := taskCycles s n k
  let s1 := modLaunch s k.vi k.id fun l =>
    { l with
      retired := l.retired + 1
      out := l.out - 1
      inUse := l.inUse.filter (· != k.frame)
      fault := l.fault || fatal }
  let s2 := s1.modVi k.vi fun v => chargeVi s.time v c
  let s3 := leaveChain s2 k
  if k.kind = 3 then
    match (launchOf s3 k.vi k.id).bind fun l => l.ring with
    | none => s3
    | some r => s3.modRegn r fun g =>
        { g with recs := g.recs.map fun e => if e.start == k.recAt then { e with done := true } else e }
  else s3

/-- A context that CTXSAVE has written for the task that still holds slot `n` is of no use when the task ends. -/
def dropContext (s : State) (n : Nat) : State := { s with pre := s.pre.filter fun e => e.out || e.home != n }

/-- The completion offers of the launches that the task of slot `n` has made, discarded (22 R328). -/
def dropLaunchOffers (s : State) (n : Nat) : State :=
  let agent := partyOf s 10 n
  { s with
    msgs := s.msgs.filter fun m => match m.body with
      | .engine p _ _ => p != agent
      | _ => true
    homes := s.homes.map fun (e : Nat × Resolver) => (e.1, { e.2 with regs := e.2.regs.filter fun g => g.party != agent }) }

/-- A task ends on slot `n` (02 R48, R38, R51; 20 R300). Its events break, its lease and its requests end, its closes, appends,
settles and launch offers are abandoned (R169, 16 R275, 22 R328), its tiles return, its slot is freed, reserved or, while a
sibling of its co-launch instance runs, lingers. `retain` is the retain operand, zero for a fatal fault. -/
def endTask (s : State) (n : Nat) (fatal : Bool) (retain : Nat) : State :=
  let s0 := dropContext (breakSlotEvents (if fatal then breakPartyEvents (blockDone s n) n else s) n) n
  let s1 := dropLease (if fatal then cancelEngines s0 n else freeStreams s0 n) n
  let s2 := { dropLaunchOffers s1 n with launches := s1.launches.map fun e =>
      if e.2.src == 1 && e.2.srcSlot == n && e.2.srcEv.isSome then (e.1, { e.2 with srcEv := none }) else e }
  match (s.slot n).task with
  | none => s2.setSlot n { emptied (s2.slot n) with mode := (s.slot n).mode, vi := (s.slot n).vi }
  | some k =>
    let s3 := accountEnd s2 n k fatal
    if k.kind = 1 then
      let s4 := s3.modSlot n fun x =>
        { emptied x with st := .lingering, task := some { k with tiles := [] }, vi := k.vi, retain := retain }
      let team := teamSlots s4 n
      if team.all fun m => decide ((s4.slot m).st = .lingering) then team.foldl releaseSlot s4 else s4
    else releaseSlot (s3.modSlot n fun x => { x with retain := retain }) n

/-- Whether `c` is a worker core of the tenant's sub-mesh. -/
def coreInMesh (s : State) (vi c : Nat) : Bool := c < 2048 && inMesh s vi (c / 16)

/-- Whether core `c` belongs to a tenant's partition: a worker core of its sub-mesh, a Mace core of a die on which it has a cluster
(20 R313). -/
def partitionCore (s : State) (vi c : Nat) : Bool :=
  coreInMesh s vi c ||
    (decide (2048 ≤ c) && decide (c < 2080) && (List.range 128).any fun p => inMesh s vi p && p / 32 == (c - 2048) / 8)

/-- The STOPCAUSE of a stop (20 R314). -/
def stopCause (fatalq : Bool) (code vi origin : Nat) : Word :=
  BitVec.ofNat 64 (2 ^ 63 + (if fatalq then 2 ^ 62 else 0) + code % 256 * 2 ^ 48 + vi % 64 * 2 ^ 32 + origin % 2 ^ 25)

/-- What a stop at cycle `now` of its slots fixes on a core (20 R313; 22 R333). -/
def haltCore (now : Nat) (c : Core) : Core :=
  { c with
    haltAt := if c.halted || c.brk then c.haltAt else now
    haltInst := c.retired
    haltMsg := BitVec.ofNat 64 (c.msgSent % 2 ^ 32 * 2 ^ 32 + c.msgRecv % 2 ^ 32) }

/-- The halt tree stops the cores where `p` holds and records the stop there and on the Sumac cores; a record that is still
valid stays (20 R313, R314). -/
def stopCores (s : State) (p : Nat → Bool) (cause : Word) : State :=
  let note := fun (c : Core) => if c.cause.toNat / 2 ^ 63 = 1 then c else { c with cause := cause }
  let s1 := mapCores s p fun i c => { (if c.halted then c else haltCore (slotCycles s (4 * i)) c) with halted := true }
  mapCores s1 (fun c => p c || 2080 ≤ c) fun _ => note

/-- A stop of the tenant's partition. -/
def stopPartition (s : State) (vi : Nat) (fatalq : Bool) (code origin : Nat) : State :=
  stopCores s (partitionCore s vi) (stopCause fatalq code vi origin)

/-- A stop of the package; a Sumac core's fatal fault stops the Sumac cores too. -/
def stopPackage (s : State) (sumac fatalq : Bool) (code vi origin : Nat) : State :=
  stopCores s (fun c => c < 2080 || sumac) (stopCause fatalq code vi origin)

end Sys2Proof.Machine
end

