-- ==== Sys2Proof/Machine/Ops.lean ====
section
/-!
DEFINITION. Taking an exception and returning from one, once for every instruction (20 R299 to R305, R317), and the frame in
which every instruction runs: what it may answer, and what its completion, its wait or its fault does to the slot.

Readings and choices of the model (log): DESIGN CHOICE 10, 11; DEDUCED 28, 32, 38, 42, 47, 48, 49, 50, 54, 57, 77, 144,
156.
-/

namespace Sys2Proof.Machine

open Sys2Proof

/-! ### Fault records -/

/-- Whether a fault is fatal (R299): every code but PAGE, PEER_LOST, SVC and BRKPT. -/
def fatalCode (c : Nat) : Bool := c != 0x04 && c != 0x0F && c != 0x20 && c != 0x21

/-- The 64 bytes of a fault record with SEQ `seq` (R301), as eight doublewords. -/
def recordWords (s : State) (r : FaultRec) (seq : Nat) : List Nat :=
  let t := r.trap
  [ agentId s r.slot * 2 ^ 32 + r.vi % 64 * 2 ^ 16 + (if t.engine then 2 ^ 10 else 0) + (if t.remote then 2 ^ 9 else 0) +
      (if fatalCode t.code then 2 ^ 8 else 0) + t.code % 256,
    r.pc, t.addr,
    t.order % 4 * 2 ^ 40 + t.size % 16 * 2 ^ 36 + t.kind % 16 * 2 ^ 32 + (if t.engine then 0 else r.word % 2 ^ 32),
    t.data0, t.data1, t.info, seq % 2 ^ 32 ]

/-- Record SEQ's cell in the trap queue of die `d` (R302). -/
def recordCell (s : State) (d seq : Nat) : Nat := bits (s.die d).tqbase.toNat 51 14 * 2 ^ 14 + 64 * (seq % 256)

/-- A record written at TQTAIL, which then advances (R302). -/
def post (s : State) (r : FaultRec) : State :=
  let d := dieOfSlot r.slot
  let seq := (s.die d).tqtail
  let c := recordCell s d seq
  let s1 := agentStore s ((List.range 64).map (c + ·)) ((recordWords s r seq).flatMap (bytesOf 8))
  s1.modDie d fun x => { x with tqtail := (seq + 1) % 2 ^ 32 }

/-- Records posted and not yet consumed. -/
def queued (s : State) (d : Nat) : Nat := dist32 (s.die d).tqtail (s.die d).tqhead

/-- A fault with REMOTE set where its access targets another node (R301). -/
def markRemote (s : State) (t : Trap) : Trap :=
  { t with remote := t.remote || (decide (1 ≤ t.kind) && decide (t.kind ≤ 5) && isRemote s t.addr) }

/-- The record of a fault of slot `n`'s own instruction; a report of an engine command names the instruction that issued it (R301). -/
def faultRec (s : State) (n : Nat) (t : Trap) : FaultRec :=
  { slot := n, vi := (s.slot n).vi, pc := t.pc.getD (s.slot n).pc, word := (s.slot n).iw, trap := markRemote s t }

/-- The record of a fault of an engine command that slot `n` issued at `pc` (R301). -/
def engineRec (s : State) (n pc : Nat) (t : Trap) : FaultRec :=
  { slot := n, vi := (s.slot n).vi, pc := pc, word := 0, trap := markRemote s { t with engine := true } }

/-- The epoch in which the node that a PEER_LOST names stands (25 R369). -/
def epochOf (s : State) (t : Trap) : Nat := if t.code = 0x0F then s.epochs.get (t.info % 2 ^ 12) 0 else 0

/-- A record that is not fatal is posted while the queue has room, and is held in its core otherwise (R302). -/
def postOrHold (s : State) (r : FaultRec) : Posted × State :=
  let d := dieOfSlot r.slot
  let p : Posted := { die := d, seq := none, trap := r.trap, epoch := epochOf s r.trap }
  if queued s d < 252 then ({ p with seq := some (s.die d).tqtail }, post s r)
  else (p, s.modDie d fun x => { x with held := x.held ++ [r] })

/-- A fatal fault of the task of slot `n` (R300, R302): its record is posted, or the partition stops with FATALQ; the task
ends. A fatal fault of a Sumac slot stops the package. The slot's earlier stores are performed before (R302). -/
def fatalFault (s : State) (n : Nat) (r : FaultRec) : State :=
  let d := dieOfSlot n
  let id := agentId s n
  let s0 := drainStores s n
  let s1 :=
    if queued s0 d < 256 then post s0 r
    else if isSumac n then stopPackage s0 true true r.trap.code r.vi id
    else stopPartition s0 r.vi true r.trap.code id
  if isSumac n then stopPackage s1 true false r.trap.code r.vi id
  else endTask s1 n true 0

/-- TAKING AN EXCEPTION: slot `n` faults with `t` at its PC. A fatal fault ends its task; any other leaves the slot Faulted,
with its record posted or held, until the reply (R300 to R304); its earlier stores are performed before the record is posted (R302).
The program counter does not move: a fault is no jump. -/
def takeTrap (s : State) (n : Nat) (t : Trap) : State :=
  let r := faultRec s n t
  if fatalCode t.code then fatalFault s n r
  else
    let (p, s1) := postOrHold (drainStores s n) r
    let s2 := s1.modSlot n fun x =>
      { x with st := .faulted, posted := some p, again := if x.frame.isNone && t.kind ≠ 0 then some x.iw else none }
    if t.code = 0x21 then s2.modCore (coreOf n) fun c =>
      if c.brk then c else { haltCore (slotCycles s n) c with brk := true, brkAt := dieCycles s (dieOfSlot n) }
    else s2

/-- A fault of an engine command of slot `n` that is not PAGE: fatal to the issuing task (12 R242). -/
def engineFault (s : State) (n pc : Nat) (t : Trap) : State :=
  fatalFault s n (engineRec s n pc t)

/-- Entry of the resident handler at a PREEMPT request (R305): EPC takes the PC, PSTAT and ECAUSE change, PC goes to VBASE. No
other register changes: a pending prefix, a repeat frame and a replay lie dormant until the task goes on. -/
def enterHandler (s : State) (n : Nat) (cause : Nat) : State :=
  s.modSlot n fun x =>
    { x with
      epc := BitVec.ofNat 64 x.pc
      pmode := false
      mode := true
      inh := true
      ecause := cause
      pc := bits x.vbase.toNat 51 2 * 4
      preReq := false
      dorm := some ⟨x.pfx, x.frame, x.again, x.instret, x.pc⟩
      pfx := none
      frame := none
      again := none
      st := .running }

/-- What lay dormant is in force again. -/
def wake (x : Slot) : Slot :=
  match x.dorm with
  | none => x
  | some d => { x with pfx := d.pfx, frame := d.frame, again := d.again, instret := d.instret, dorm := none }

/-- RETURN FROM AN EXCEPTION (R317 ERET): PC takes EPC, MODE takes PMODE, INH ends; a Sumac slot never leaves privileged mode (R295).
The instruction counts as completed. -/
def returnFrom (s : State) (n : Nat) : State :=
  let x := s.slot n
  (retireTo s n (bits x.epc.toNat 51 2 * 4)).modSlot n fun y =>
    { wake y with mode := x.pmode || isSumac n, inh := false }

/-! ### The frame of an instruction -/

/-- What an instruction answers when it does not fault: it completes and PC advances; it completes and PC moves to `pc`; the
slot is interlocked; or the slot is as `s` says (it offers, its task is gone, it is Faulted). -/
inductive Res where
  | done (s : State)
  | jump (s : State) (pc : Nat)
  | wait (s : State) (w : Wait)
  | keep (s : State)

/-- The state that an instruction of slot `n` leaves. A fault undoes everything the instruction did (00 R7). -/
def conclude (s : State) (n : Nat) (r : Except Trap Res) : State :=
  match r with
  | .error t => takeTrap s n t
  | .ok (.done t) => retire t n (s.slot n).pfx.isSome
  | .ok (.jump t pc) => retireTo t n pc
  | .ok (.wait t w) => t.modSlot n fun x =>
      { x with st := .interlocked w, again := if x.frame.isNone then some x.iw else none }
  | .ok (.keep t) => t

/-- A fault with no access. -/
def raise (code : Nat) : Trap := { code := code }

/-- ILLEGAL. -/
def illegal : Trap := raise 0x01

/-- Slot `s.cur` runs an instruction that takes no format: a pending prefix raises ILLEGAL and stays (R64, R77). -/
def plain (f : State → Nat → Except Trap Res) (s : State) : Host.Outcome State Fault Refusal :=
  if (s.slot s.cur).pfx.isSome then .next (takeTrap s s.cur illegal) else .next (conclude s s.cur (f s s.cur))

/-- What `f` does once the slot's earlier stores are performed: the instruction acts as a release of them (18 R280, R288). -/
def released (f : State → Nat → Except Trap Res) (s : State) (n : Nat) : Except Trap Res := f (drainStores s n) n

/-- Slot `s.cur` runs an instruction that takes formats (R77). -/
def formatted (f : State → Nat → Except Trap Res) (s : State) : Host.Outcome State Fault Refusal :=
  .next (conclude s s.cur (f s s.cur))

/-- Slot `s.cur` runs a privileged instruction: PRIV in user mode (R75), but ILLEGAL with a prefix pending (DEDUCED, log 28). -/
def privileged (f : State → Nat → Except Trap Res) (s : State) : Host.Outcome State Fault Refusal :=
  plain (fun t n => if (t.slot n).mode then f t n else .error (raise 0x02)) s

/-- The step of another agent (95): always a next state; one whose moment has not come changes nothing (log 11). -/
def event (f : State → State) (s : State) : Host.Outcome State Fault Refusal := .next (f s)

/-- The instruction writes scalar register `d` and completes. -/
def writeDone (s : State) (n d : Nat) (v : Word) : Except Trap Res := .ok (.done (s.modSlot n fun x => x.ws d v))

/-- The recorded report, when there is one (08 R144, R162): a GUARD report with the count of later ones (20 R301). -/
def pendingReport (x : Slot) : Option Trap :=
  x.report.map fun t => if t.code = 0x06 then { t with info := t.info + x.reports % 2 ^ 32 * 2 ^ 32 } else t

/-- DeliverGuard: a recorded report is raised before any effect (08 R144). -/
def deliverGuard (s : State) (n : Nat) : Except Trap Unit :=
  match pendingReport (s.slot n) with
  | some t => .error t
  | none => .ok ()

end Sys2Proof.Machine
end

