-- ==== Sys2Proof/Machine/Operands.lean ====
section
/-!
DEFINITION. Operand forms: formats and rounding in force (04 R68, R71, R77), elements and predicates of vector registers
(06 R93, R94), staggered registers of a repeat frame (04 R88; 06 R113), the addresses of loads and stores (08 R153, R155;
06 R132), event-slot fields (12 R217).
-/

namespace Sys2Proof.Machine

open Sys2Proof

/-! ### Formats in force -/

/-- The formats that an instruction uses: a pending prefix's, or FMT's (R68, R77). -/
structure Fmts where
  fa  : Nat
  fb  : Nat
  fr  : Nat
  bsm : Nat
  rnd : Nat
  deriving DecidableEq, Repr

/-- The formats in force in a slot. -/
def fmtsOf (x : Slot) : Fmts :=
  match x.pfx with
  | some p => ⟨bits p 17 14, bits p 13 10, bits p 9 6, bits p 3 0, bits p 5 4⟩
  | none => let f := x.fmt.toNat; ⟨bits f 15 12, bits f 11 8, bits f 7 4, bits f 3 0, 0⟩

/-- The rounding mode in force, stochastic rounding apart (R77, R99). -/
def modeOf (x : Slot) (f : Fmts) : Rnd :=
  if f.rnd = 1 then .rne else if f.rnd = 2 then .rtz else rndOf x.rmode.toNat

/-- The formats of an instruction that stochastic rounding is not permitted for (R77). -/
def fmtsNoSr (x : Slot) : Except Trap Fmts := if (fmtsOf x).rnd = 3 then .error illegal else .ok (fmtsOf x)

/-- The element format of a float width member (06 R112): FP64, FP32, FP16 or BF16. -/
def floatFr (fr : Nat) : Except Trap Fmt :=
  match fr, fmtOf fr with
  | 0, some f => .ok f
  | 1, some f => .ok f
  | 2, some f => .ok f
  | 3, some f => .ok f
  | _, _ => .error illegal

/-- Flags raised by the instruction (04 R70). -/
def Slot.raiseFlags (x : Slot) (f : Nat) : Slot := { x with flags := x.flags ||| BitVec.ofNat 64 (f % 32) }

/-! ### Vector elements -/

/-- Element `j` of width `w` (06 R93). -/
def elem (w : Nat) (v : Vec) (j : Nat) : Nat := v.toNat / 2 ^ (w * j) % 2 ^ w

/-- Every element of width `w`. -/
def elems (w : Nat) (v : Vec) : List Nat := (List.range (1024 / w)).map (elem w v)

/-- The register whose elements of width `w` are `l`, lowest first. -/
def packElems (w : Nat) (l : List Nat) : Vec := BitVec.ofNat 1024 (l.foldr (fun x a => x % 2 ^ w + 2 ^ w * a) 0)

/-- Whether element `j` of width `w` is active (06 R94). -/
def active (k : Pred) (w j : Nat) : Bool := bit k.toNat (j * w / 8)

/-- The register `old` with `new j` in each active element (06 R94). -/
def mergeElems (w : Nat) (k : Pred) (old : Vec) (new : Nat → Nat) : Vec :=
  packElems w ((List.range (1024 / w)).map fun j => if active k w j then new j else elem w old j)

/-- As `mergeElems`, for results that carry flags: the register, and the flags of the active elements. -/
def mergeFlags (w : Nat) (k : Pred) (old : Vec) (new : Nat → Nat × Nat) : Vec × Nat :=
  let rs := (List.range (1024 / w)).map fun j => if active k w j then new j else (elem w old j, 0)
  (packElems w (rs.map Prod.fst), rs.foldl (fun a r => orFlags a r.2) 0)

/-- The element width of an ew field (04 R62). -/
def ewBits (w : Nat) : Nat := 8 * 2 ^ (w % 4)

/-- Bytes lanes of a register as a memory image. -/
def vecBytes (v : Vec) : List Nat := elems 8 v

/-! ### Addresses -/

/-- Size in bytes of a MEM width code (04 R61). -/
def memSize (w : Nat) : Nat := 2 ^ (w / 2) * (if w % 8 = 7 then 2 else 1)

/-- The effective address of a MEM form (08 R153). -/
def memAddr (x : Slot) (base off9 w : Nat) : Nat :=
  wrap 64 ((x.rs base).toNat + sx 9 off9 * (memSize w : Int))

/-- The effective address of an indexed form (08 R155). -/
def idxAddr (x : Slot) (a b scl w : Nat) : Nat :=
  ((x.rs a).toNat + (x.rs b).toNat * (if scl = 1 then memSize w else 1)) % 2 ^ 64

/-- The alignment of a scalar access (08 R152): its size, but 8 for a pair in plain order. -/
def memAlign (size order : Nat) : Nat := if size = 16 ∧ order = 0 then 8 else size

/-! ### Event fields -/

/-- The event that an engine command names (12 R217): E and the slot number; EVENT when the slot is unbound or its live event
lacks the agent as a party; a stale name passes. E = 0 with a nonzero number raises ILLEGAL. -/
def eventField (s : State) (n x e kind : Nat) : Except Trap (Option EvRef) :=
  if x = 0 then (if e = 0 then .ok none else .error illegal)
  else
    let nm := (s.slot n).bound e
    if nm = 0 then .error (raise 0x0C)
    else
      let r := refOfName s n nm
      if r.away && farStranger s nm then .error (raise 0x0C)
      else match evOf s r with
      | some v => if v.parties.contains (partyOf s kind n) then .ok (some r) else .error (raise 0x0C)
      | none => .ok (some r)

/-! ### Repeat frames -/

/-- The instruction with its register fields staggered for iteration `i` of a repeat frame (R88, R113): scalar numbers modulo
64, vector numbers modulo 32, predicate numbers modulo 8. Only words that may be captured (R89) have such fields. -/
def stagger (f : Frame) (j : Instr) : Instr :=
  let i := f.ridx
  let sd := fun r => (r + i * f.dd) % 64
  let sa := fun r => (r + i * f.da) % 64
  let sb := fun r => (r + i * f.db) % 64
  let vd := fun r => (r + i * f.dd) % 32
  let va := fun r => (r + i * f.da) % 32
  let vb := fun r => (r + i * f.db) % 32
  let kd := fun r => (r + i * f.dd) % 8
  let ka := fun r => (r + i * f.da) % 8
  let kb := fun r => (r + i * f.db) % 8
  match j with
  | .add d a b => .add (sd d) (sa a) (sb b)
  | .sub d a b => .sub (sd d) (sa a) (sb b)
  | .mul d a b => .mul (sd d) (sa a) (sb b)
  | .mulh d a b => .mulh (sd d) (sa a) (sb b)
  | .mulhn d a b => .mulhn (sd d) (sa a) (sb b)
  | .div d a b => .div (sd d) (sa a) (sb b)
  | .divn d a b => .divn (sd d) (sa a) (sb b)
  | .rem d a b => .rem (sd d) (sa a) (sb b)
  | .remn d a b => .remn (sd d) (sa a) (sb b)
  | .and d a b => .and (sd d) (sa a) (sb b)
  | .or d a b => .or (sd d) (sa a) (sb b)
  | .xor d a b => .xor (sd d) (sa a) (sb b)
  | .andn d a b => .andn (sd d) (sa a) (sb b)
  | .shl d a b => .shl (sd d) (sa a) (sb b)
  | .shr d a b => .shr (sd d) (sa a) (sb b)
  | .sar d a b => .sar (sd d) (sa a) (sb b)
  | .rotl d a b => .rotl (sd d) (sa a) (sb b)
  | .min d a b => .min (sd d) (sa a) (sb b)
  | .max d a b => .max (sd d) (sa a) (sb b)
  | .minn d a b => .minn (sd d) (sa a) (sb b)
  | .maxn d a b => .maxn (sd d) (sa a) (sb b)
  | .seq d a b => .seq (sd d) (sa a) (sb b)
  | .sne d a b => .sne (sd d) (sa a) (sb b)
  | .slt d a b => .slt (sd d) (sa a) (sb b)
  | .sltn d a b => .sltn (sd d) (sa a) (sb b)
  | .sle d a b => .sle (sd d) (sa a) (sb b)
  | .slen d a b => .slen (sd d) (sa a) (sb b)
  | .sel d a b => .sel (sd d) (sa a) (sb b)
  | .clz d a => .clz (sd d) (sa a)
  | .ctz d a => .ctz (sd d) (sa a)
  | .popc d a => .popc (sd d) (sa a)
  | .sext d a b => .sext (sd d) (sa a) (sb b)
  | .ext d a b => .ext (sd d) (sa a) (sb b)
  | .ins d a b => .ins (sd d) (sa a) (sb b)
  | .addi d a i => .addi (sd d) (sa a) i
  | .andi d a i => .andi (sd d) (sa a) i
  | .ori d a i => .ori (sd d) (sa a) i
  | .xori d a i => .xori (sd d) (sa a) i
  | .shli d a n => .shli (sd d) (sa a) n
  | .shri d a n => .shri (sd d) (sa a) n
  | .sari d a n => .sari (sd d) (sa a) n
  | .rotli d a n => .rotli (sd d) (sa a) n
  | .slti d a i => .slti (sd d) (sa a) i
  | .sltin d a i => .sltin (sd d) (sa a) i
  | .vadd d a b k w => .vadd (vd d) (va a) (vb b) k w
  | .vsub d a b k w => .vsub (vd d) (va a) (vb b) k w
  | .vmul d a b k w => .vmul (vd d) (va a) (vb b) k w
  | .vmulh d a b k w => .vmulh (vd d) (va a) (vb b) k w
  | .vmin d a b k w => .vmin (vd d) (va a) (vb b) k w
  | .vmax d a b k w => .vmax (vd d) (va a) (vb b) k w
  | .vminn d a b k w => .vminn (vd d) (va a) (vb b) k w
  | .vmaxn d a b k w => .vmaxn (vd d) (va a) (vb b) k w
  | .vand d a b k w => .vand (vd d) (va a) (vb b) k w
  | .vor d a b k w => .vor (vd d) (va a) (vb b) k w
  | .vxor d a b k w => .vxor (vd d) (va a) (vb b) k w
  | .vandn d a b k w => .vandn (vd d) (va a) (vb b) k w
  | .vshl d a b k w => .vshl (vd d) (va a) (vb b) k w
  | .vshr d a b k w => .vshr (vd d) (va a) (vb b) k w
  | .vsar d a b k w => .vsar (vd d) (va a) (vb b) k w
  | .vabs d a k w => .vabs (vd d) (va a) k w
  | .vneg d a k w => .vneg (vd d) (va a) k w
  | .vpopc d a k w => .vpopc (vd d) (va a) k w
  | .vfadd d a b k => .vfadd (vd d) (va a) (vb b) k
  | .vfsub d a b k => .vfsub (vd d) (va a) (vb b) k
  | .vfmul d a b k => .vfmul (vd d) (va a) (vb b) k
  | .vfmin d a b k => .vfmin (vd d) (va a) (vb b) k
  | .vfmax d a b k => .vfmax (vd d) (va a) (vb b) k
  | .vfabs d a k => .vfabs (vd d) (va a) k
  | .vfneg d a k => .vfneg (vd d) (va a) k
  | .vfma d a b c k => .vfma (vd d) (va a) (vb b) c k
  | .vfms d a b c k => .vfms (vd d) (va a) (vb b) c k
  | .vfnma d a b c k => .vfnma (vd d) (va a) (vb b) c k
  | .vfnms d a b c k => .vfnms (vd d) (va a) (vb b) c k
  | .vmadd d a b c k => .vmadd (vd d) (va a) (vb b) c k
  | .vmsub d a b c k => .vmsub (vd d) (va a) (vb b) c k
  | .vcmpi d a b k w n => .vcmpi (kd d) (va a) (vb b) k w n
  | .vcmpf d a b k n => .vcmpf (kd d) (va a) (vb b) k n
  | .vsel d a b k w => .vsel (vd d) (va a) (vb b) k w
  | .vred d a b k w o => .vred (vd d) (va a) b k w o
  | .vscan d a b k w o => .vscan (vd d) (va a) b k w o
  | .vperm d a b k w => .vperm (vd d) (va a) (vb b) k w
  | .vbcast d a k w h => .vbcast (vd d) (sa (h * 32 + a) % 32) k w (sa (h * 32 + a) / 32)
  | .vgetl d a l w h => .vgetl (sd (h * 32 + d) % 32) (va a) l w (sd (h * 32 + d) / 32)
  | .vsetl d a l w h => .vsetl (vd d) (sa (h * 32 + a) % 32) l w (sa (h * 32 + a) / 32)
  | .vslideDn d a n k w => .vslideDn (vd d) (va a) n k w
  | .vslideUp d a n k w => .vslideUp (vd d) (va a) n k w
  | .viota d k w => .viota (vd d) k w
  | .viotaCnt d k w => .viotaCnt (vd d) k w
  | .vcvt d a k p => .vcvt (vd d) (va a) k p
  | .vquant d a p => .vquant (vd d) (va a) p
  | .vdeq d a k p => .vdeq (vd d) (va a) k p
  | .vdec d a k p => .vdec (vd d) (va a) k p
  | .venc d a k p => .venc (vd d) (va a) k p
  | .vbadd d a b => .vbadd (vd d) (va a) (vb b)
  | .vrcp d a k => .vrcp (vd d) (va a) k
  | .vrsq d a k => .vrsq (vd d) (va a) k
  | .vexp2 d a k => .vexp2 (vd d) (va a) k
  | .vlog2 d a k => .vlog2 (vd d) (va a) k
  | .vsqrt d a k => .vsqrt (vd d) (va a) k
  | .vdiv d a b k => .vdiv (vd d) (va a) (vb b) k
  | .kand d a b => .kand (kd d) (ka a) (kb b)
  | .kor d a b => .kor (kd d) (ka a) (kb b)
  | .kxor d a b => .kxor (kd d) (ka a) (kb b)
  | .knot d a => .knot (kd d) (ka a)
  | .kmov d a => .kmov (kd d) (ka a)
  | .kpopc d a w h => .kpopc (sd (h * 32 + d) % 32) (ka a) w (sd (h * 32 + d) / 32)
  | .kfirst d a w h => .kfirst (sd (h * 32 + d) % 32) (ka a) w (sd (h * 32 + d) / 32)
  | j => j

end Sys2Proof.Machine
end

