-- ==== Sys2Proof/Machine/Fetch.lean ====
section
/-!
DEFINITION. Fetching an instruction's bytes (04 R56 to R58; 20 R305).

Readings and choices of the model (log): DESIGN CHOICE 82; DEDUCED 80, 81.
-/

namespace Sys2Proof.Machine

open Sys2Proof

/-- The address space a slot fetches in: its tenant's, or 64, untranslated, in privileged mode (R57). -/
def fetchSpace (x : Slot) : Nat := if x.mode then 64 else x.vi

/-- The cell that a fetch of slot `n` at `addr` reads (R57): PROT from the window space or without execute permission, PAGE
without a translation; in privileged mode physical device memory without a check. -/
def fetchCell (s : State) (n addr : Nat) : Except Trap Nat :=
  if winBase ≤ addr then .error (accTrap 0x05 addr 0 4 0)
  else if (s.slot n).mode then .ok addr
  else match translated s (coreOf n) (s.slot n).vi addr 0 with
    | .ok c => .ok c
    | .error code => .error (accTrap code addr 0 4 0)

/-- The word fetched at `addr`: the one that the quad's instruction cache holds, or the one in memory (R57, R58); a poisoned
word raises ECC_UE. -/
def fetchWord (s : State) (n addr : Nat) : Except Trap Nat :=
  match fetchCell s n addr with
  | .error t => .error t
  | .ok c =>
    match s.icache.find? fun e => e.quad == quadOf n && e.vi == fetchSpace (s.slot n) && e.addr == addr with
    | some e => .ok e.word
    | none =>
      if poisoned s c then .error (eccTrap addr 0 0 [c, c + 1, c + 2, c + 3] c)
      else .ok (bytesWord (Memory.get s.mem c) (Memory.get s.mem (c + 1)) (Memory.get s.mem (c + 2))
        (Memory.get s.mem (c + 3)))

end Sys2Proof.Machine
end

