-- ==== Sys2Proof/Machine/Net.lean ====
section
/-!
DEFINITION. Remote accesses and batches of remote stores (08 R154, R158, R161,
R165).

Readings and choices of the model (log): DEDUCED 33, 34, 72.
-/

namespace Sys2Proof.Machine

open Sys2Proof

/-- `k` messages that answer slot `n` have arrived: the count of its core (20 R313). -/
def countAnswers (s : State) (n k : Nat) : State := s.modCore (coreOf n) fun c => { c with msgRecv := c.msgRecv + k }

/-- The batch of a slot with a tag (08 R165). -/
def batchOf (x : Slot) (tag : Nat) : Batch := (x.batches.find? fun b => b.tag == tag).getD { tag := tag, nodes := [] }

/-- A store to a node joins the slot's current batch (08 R165): as a member that was sent, or with the error bits already known of it
(08 R167). -/
def joinBatch (x : Slot) (node errs : Nat) (sent : List Member) : Slot :=
  let b := batchOf x x.tag
  { x with batches := (x.batches.filter fun c => c.tag != x.tag) ++
      [{ b with nodes := SMap.set b.nodes node (SMap.get b.nodes node 0 ||| errs), members := b.members ++ sent }] }

/-- A remote store, or a remote atomic without a result, issued: it joins the batch of the current tag; a target that cannot be
reached is recorded there (08 R165; 20 R312). `cls` is 0 for a store, 3 for an atomic. -/
def remotePost (s : State) (n : Nat) (m : Packet) : State :=
  match sendFrom s n m with
  | none => s.modSlot n fun x => joinBatch x m.node 1 []
  | some (q, t) => t.modSlot n fun x =>
      { joinBatch x m.node 0 [⟨m.node, m.src, q⟩] with sent := x.sent ++ [⟨q, m.node, m.cls, x.tag, false⟩] }

/-- PEER_LOST at an access (20 R312): replayable, with the node in INFO. -/
def peerLost (ea kind size order : Nat) (node : Nat) : Trap :=
  { accTrap 0x0F ea kind size order with info := node, remote := true }

/-- A remote request whose answer the slot waits for; `order` is the order of the access, for the record of a fault (20 R301). -/
def remoteAsk (s : State) (n : Nat) (i : Instr) (ea kind order : Nat) (m : Packet) : Except Trap Res :=
  match sendFrom s n m with
  | none => .error (peerLost ea kind m.size order m.node)
  | some (q, t) => .ok (.wait t (.remote i [⟨q, m.node, ea⟩]))

/-- Remote requests of one instruction sent, each with its address (06 R133); a node that cannot be reached faults at its address. -/
def sendAll (s : State) (n kind order : Nat) (ms : List (Nat × Packet)) : Except Trap (List Ask × State) :=
  match ms with
  | [] => .ok ([], s)
  | (ea, m) :: rest =>
    match sendFrom s n m with
    | none => .error (peerLost ea kind m.size order m.node)
    | some (q, t) => (sendAll t n kind order rest).map fun r => (⟨q, m.node, ea⟩ :: r.1, r.2)

/-- Remote requests of one instruction, whose answers the slot waits for together. -/
def remoteAsks (s : State) (n : Nat) (i : Instr) (kind order : Nat) (ms : List (Nat × Packet)) : Except Trap Res :=
  (sendAll s n kind order ms).map fun r => .wait r.2 (.remote i r.1)

end Sys2Proof.Machine
end

