-- ==== Sys2Proof/Machine/Control.lean ====
section
/-!
DEFINITION. Control transfer, landing pads, repeat frames, FMTP, NOP and the task's own numbers (04 R75, R77, R81 to R91).

Readings and choices of the model (log): DESIGN CHOICE 35, 148; DEDUCED 36, 37.
-/

namespace Sys2Proof.Machine

open Sys2Proof

/-- NOP (R75). -/
def execNop (s : State) := plain (fun t _ => .ok (.done t)) s

/-- A conditional branch on s[a] as a signed value (R81). -/
def branch (taken : Int → Bool) (a p : Nat) (s : State) (n : Nat) : Except Trap Res :=
  let x := s.slot n
  if taken (x.rs a).toInt then .ok (.jump s (wrap 52 (x.pc + 4 * sx 17 p))) else .ok (.done s)

/-- BZ (R81). -/
def execBz (a p : Nat) (s : State) := plain (branch (fun v => decide (v = 0)) a p) s
/-- BNZ (R81). -/
def execBnz (a p : Nat) (s : State) := plain (branch (fun v => decide (v ≠ 0)) a p) s
/-- BLTZ (R81). -/
def execBltz (a p : Nat) (s : State) := plain (branch (fun v => decide (v < 0)) a p) s
/-- BGEZ (R81). -/
def execBgez (a p : Nat) (s : State) := plain (branch (fun v => decide (0 ≤ v)) a p) s
/-- BGTZ (R81). -/
def execBgtz (a p : Nat) (s : State) := plain (branch (fun v => decide (0 < v)) a p) s
/-- BLEZ (R81). -/
def execBlez (a p : Nat) (s : State) := plain (branch (fun v => decide (v ≤ 0)) a p) s

/-- The target of a direct jump (R82). -/
def jumpTarget (x : Slot) (p : Nat) : Nat := wrap 52 (x.pc + 4 * sx 26 p)

/-- The return address, PC + 4, modulo 2^52 (R56). -/
def linkWord (x : Slot) : Word := BitVec.ofNat 64 ((x.pc + 4) % 2 ^ 52)

/-- J (R82). -/
def execJ (p : Nat) (s : State) := plain (fun t n => .ok (.jump t (jumpTarget (t.slot n) p))) s

/-- JL writes PC + 4 to s62 (R82). -/
def execJl (p : Nat) (s : State) :=
  plain (fun t n => .ok (.jump (t.modSlot n fun x => x.ws 62 (linkWord x)) (jumpTarget (t.slot n) p))) s

/-- CheckPad (R84): the target is aligned and holds a PAD with the label; a fetch fault there is the transfer's. -/
def checkPad (s : State) (n t lbl : Nat) : Except Trap Unit :=
  if t % 4 ≠ 0 then .error { raise 0x03 with addr := t }
  else match fetchWord s n t with
    | .error e => .error e
    | .ok w => if bits w 31 26 = 0x0F ∧ bits w 25 20 = 0 ∧ bits w 19 0 = lbl then .ok () else .error { raise 0x07 with addr := t }

/-- JX and CALLX (R84): the registers are read first; `link` writes s62 once the check has passed (R85). -/
def transfer (link : Bool) (a b : Nat) (s : State) (n : Nat) : Except Trap Res :=
  let x := s.slot n
  let t := bits (x.rs a).toNat 51 0
  match checkPad s n t (bits (x.rs b).toNat 19 0) with
  | .error e => .error e
  | .ok () => .ok (.jump (if link then s.setSlot n (x.ws 62 (linkWord x)) else s) t)

/-- JX (R84). -/
def execJx (a b : Nat) (s : State) := plain (transfer false a b) s

/-- CALLX (R84). -/
def execCallx (a b : Nat) (s : State) := plain (transfer true a b) s

/-- RET (R84). -/
def execRet (s : State) :=
  plain (fun t n =>
    let a := bits ((t.slot n).rs 62).toNat 51 0
    if a = 0 then .error (raise 0x07)
    else if a % 4 ≠ 0 then .error { raise 0x03 with addr := a }
    else .ok (.jump t a)) s

/-- JT with its entry (R84): the entry's form, the landing pad. -/
def jumpEntry (base e : Nat) (s : State) (n : Nat) : Except Trap Res :=
  if bits e 43 32 ≠ 0 ∨ bits e 1 0 ≠ 0 then .error (raise 0x07)
  else
    let tgt := wrap 52 (base + sx 32 (bits e 31 0))
    match checkPad s n tgt (bits e 63 44) with
    | .error g => .error g
    | .ok () => .ok (.jump s tgt)

/-- JT (R84): bound, table alignment, the entry's load (its faults are JT's), its form, the landing pad. The load is one of the slot's
own (R86): it follows the slot's earlier stores, and an entry on another node comes with an answer, `ans`. -/
def jumpTable (d a b : Nat) (ans : Option Nat) (s : State) (n : Nat) : Except Trap Res :=
  let x := s.slot n
  let i := (x.rs a).toNat
  let base := (x.rs d).toNat
  let ea := (base + 8 * i) % 2 ^ 64
  if (x.rs b).toNat ≤ i then .error (raise 0x08)
  else if base % 8 ≠ 0 then .error { raise 0x03 with addr := base }
  else if isRemote s ea then
    match ans with
    | none => remoteAsk s n (.jt d a b) ea 1 0 (packetOf s n 1 1 (ea / 2 ^ 52) (ea % 2 ^ 52) 8)
    | some e => jumpEntry base e s n
  else if sleeps s n (s.slot n).mode ea 8 1 then .ok (.wait s .busy)
  else match readLocal (drainStores s n) n ea 8 1 0 with
    | .error e => .error e
    | .ok (e, t) => jumpEntry base e t n

/-- JT (R84). -/
def execJt (d a b : Nat) (s : State) := plain (jumpTable d a b none) s

/-- PAD: no effect beyond advancing PC (R83). -/
def execPad (_l : Nat) (s : State) := plain (fun t _ => .ok (.done t)) s

/-- Whether a word may be captured by RPT (R89). -/
def capturable (w : Nat) : Bool :=
  let m := bits w 31 26
  (1 ≤ m && m ≤ 8) || (0x20 ≤ m && m ≤ 0x27 && !(m == 0x25 && bits w 2 0 == 6)) || m == 0x3F

/-- Whether a word is an FMTP. -/
def isPrefix (w : Nat) : Bool := bits w 31 26 == 0x3F

/-- Whether a word may be the target of an FMTP: an instruction that takes formats (R77). -/
def prefixTarget (w : Nat) : Bool := match decode w with
  | .ok i => i.takesFormat
  | .error _ => false

/-- Whether every captured word may be captured, each FMTP before its target (R89). -/
def captureOk (ws : List Nat) : Bool :=
  match ws with
  | [] => true
  | w :: t => capturable w && (!isPrefix w || t.head?.any prefixTarget) && captureOk t

/-- The capture check (R89): a BRK raises its breakpoint at the RPT, wherever it stands in the body (DESIGN CHOICE,
log 148); any other word that may not be captured raises ILLEGAL. -/
def captureCheck (ws : List Nat) : Except Trap Unit :=
  if ws.contains 5 then .error { raise 0x21 with kind := 7 } else if captureOk ws then .ok () else .error illegal

/-- The words that follow the RPT, fetched in order. -/
def captureWords (s : State) (n addr k : Nat) : Except Trap (List Nat) :=
  match k with
  | 0 => .ok []
  | k + 1 =>
    match fetchWord s n addr with
    | .error t => .error t
    | .ok w => (captureWords s n ((addr + 4) % 2 ^ 52) k).map (w :: ·)

/-- RPT: captures len words, checks them all, and runs them count times (R87 to R89). -/
def execRpt (l c x y z : Nat) (s : State) :=
  plain (fun t n =>
    let sl := t.slot n
    match captureWords t n ((sl.pc + 4) % 2 ^ 52) (l + 1) with
    | .error e => .error e
    | .ok ws =>
      match captureCheck ws with
      | .error e => .error e
      | .ok () =>
        let count := bits (sl.rs c).toNat 31 0
        if count = 0 then .ok (.jump t (sl.pc + 4 + 4 * (l + 1)))
        else
          let f : Frame := ⟨ws, count, x, y, z, 0, 0, sl.pc⟩
          .ok (.jump (t.setSlot n { sl with frame := some f }) (sl.pc + 4))) s

/-- FMTP: the prefix becomes pending; a prefix that is pending already makes it ILLEGAL (R77, R78). -/
def execFmtp (a b r m k : Nat) (s : State) :=
  plain (fun t n =>
    .ok (.done (t.modSlot n fun x =>
      { x with pfx := some (a * 2 ^ 14 + b * 2 ^ 10 + r * 2 ^ 6 + m * 2 ^ 4 + k) }))) s

/-- TID: the task's coordinate (R91); a slot without a task reads zero. -/
def execTid (d : Nat) (s : State) :=
  plain (fun t n => writeDone t n d (match (t.slot n).task with
    | some k => BitVec.ofNat 64 (k.x % 2 ^ 16 + k.y % 2 ^ 16 * 2 ^ 16 + k.z % 2 ^ 16 * 2 ^ 32)
    | none => 0)) s

/-- TGRP: the task's group index (R91). -/
def execTgrp (d : Nat) (s : State) :=
  plain (fun t n => writeDone t n d (match (t.slot n).task with
    | some k => BitVec.ofNat 64 (k.group % 2 ^ 32)
    | none => 0)) s

end Sys2Proof.Machine
end

