-- ==== Sys2Proof/Machine/Csr.lean ====
section
/-!
DEFINITION. The control registers (04 R67 to R74; 20 R296): one read and one write for every number, with the access codes of
00 R6, and the CSR instructions (04 R75).

Readings and choices of the model (log): DEDUCED 38.
-/

namespace Sys2Proof.Machine

open Sys2Proof

/-- STAT (R69), computed from the prefix and the repeat frame, the dormant ones in the resident handler. -/
def statWord (x : Slot) : Word :=
  let f := match x.frame <|> x.dorm.bind (·.frame) with
    | some f => (f.words.length - 1) * 2 ^ 42 + f.rpos * 2 ^ 38 + f.ridx % 2 ^ 32 * 2 ^ 6 + 2
    | none => 0
  let p := match x.pfx <|> x.dorm.bind (·.pfx) with
    | some p => p * 2 ^ 46 + 1
    | none => 0
  BitVec.ofNat 64 (f + p + (if x.soh then 8 else 0))

/-- OFR (R73), computed from the slot's offers. A domain barrier uses no event slot and is not named (10 R201). -/
def ofrWord (x : Slot) : Word :=
  let ps : List OPos := match x.offer with
    | some o => o.pos.filter fun p => p.es < 32
    | none => []
  BitVec.ofNat 64 (x.last % 8 * 2 ^ 53 + x.lstat % 4 * 2 ^ 51 + (if x.stand.isSome || x.ready.isSome then 2 ^ 50 else 0) +
    ps.foldl (fun a p => a + 2 ^ (40 + p.pos) + p.es * 2 ^ (5 * p.pos)) 0)

/-- PSTAT (20 R296). -/
def pstatWord (x : Slot) : Word :=
  BitVec.ofNat 64 ((if x.mode then 1 else 0) + (if x.pmode then 2 else 0) + (if x.inh then 4 else 0))

/-- Scratch bytes of a die that a size holds (08 R141): SIZE MiB, at most 96. -/
def mscrBytes (x : Word) : Nat := min 96 (x.toNat % 128) * 2 ^ 20

/-- A write of MSCR (08 R141): bytes that the scratch part gains read as zero, bytes that it gives back are lost. -/
def writeMscr (s : State) (d : Nat) (x : Word) : State :=
  let lo := min (mscrBytes (s.die d).mscr) (mscrBytes x)
  let s1 := clearRange s (mereBase d + lo) (2 ^ 27 - lo)
  s1.modDie d fun y => { y with mscr := x &&& 0x7F }

/-- A one written to ATOMFLAGS clears the bit at every home agent of the die (08 R162; 20 R296). -/
def clearAtomFlags (s : State) (d vi x : Nat) : State :=
  s.modDie d fun y => { y with atomf := y.atomf.set vi ((y.atomf.get vi 0) &&& (31 - x % 32)) }

/-- The register that number `num` reads for slot `n`; none where the core holds no such register (R67, R296). -/
def csrRead (s : State) (n num : Nat) : Option Word :=
  let x := s.slot n
  let c := s.core (coreOf n)
  let d := dieOfSlot n
  let vi := c.visel
  let su := fun (w : Word) => if isSumac n then some w else none
  let wk := fun (w : Word) => if isWorker n then some w else none
  let s0 := fun (w : Word) => if isSumac n ∧ d = 0 then some w else none
  match num with
  | 0x00 => some x.fmt
  | 0x01 => some (statWord x)
  | 0x02 => some x.flags
  | 0x03 => some x.rmode
  | 0x04 => some (BitVec.ofNat 64 (slotCycles s n))
  | 0x05 => some (BitVec.ofNat 64 x.instret)
  | 0x06 => some (ofrWord x)
  | 0x07 => some x.domain
  | 0x10 => some (pstatWord x)
  | 0x11 => some x.epc
  | 0x12 => wk (BitVec.ofNat 64 x.ecause)
  | 0x13 => wk x.vbase
  | 0x14 => wk x.saveptr
  | 0x15 => some x.pscratch
  | 0x18 => wk (c.trgn.get 0 0)
  | 0x19 => wk (c.trgn.get 1 0)
  | 0x1A => wk (c.trgn.get 2 0)
  | 0x1B => wk (c.trgn.get 3 0)
  | 0x1C => wk (c.trgn.get 4 0)
  | 0x1D => wk (c.trgn.get 5 0)
  | 0x1E => wk (c.trgn.get 6 0)
  | 0x1F => wk (c.trgn.get 7 0)
  | 0x20 => su (BitVec.ofNat 64 vi)
  | 0x21 => su (s.vif vi).ptbr
  | 0x22 => su ((s.die d).mstw.get vi 0)
  | 0x23 => su (BitVec.ofNat 64 ((s.die d).atomf.get vi 0))
  | 0x24 => su (BitVec.ofNat 64 ((s.die d).quota.get vi 0))
  | 0x25 => su (s.vif vi).nodetab
  | 0x26 => su (s.vif vi).ctxbuf
  | 0x27 => su (s.die d).mscr
  | 0x28 => su (s.die d).tqbase
  | 0x29 => su (BitVec.ofNat 64 (s.die d).tqtail)
  | 0x2A => su (BitVec.ofNat 64 (s.die d).tqhead)
  | 0x2B => s0 s.invq
  | 0x2C => s0 (BitVec.ofNat 64 s.invdb)
  | 0x2D => s0 (BitVec.ofNat 64 (s.invack % 2 ^ 32 + if s.inverr then 2 ^ 63 else 0))
  | 0x2E => some c.cause
  | 0x2F => some (BitVec.ofNat 64 c.haltInst)
  | 0x30 => some c.haltMsg
  | _ => none

/-- The bits of `x` that lie in bits `hi` to `lo`, in their places. -/
def keepBits (x hi lo : Nat) : Nat := bits x hi lo * 2 ^ lo

/-- The register that number `num` writes for slot `n`: read-only fields and reserved bits keep their values, a one written to
a W1C bit clears it (R6, R67 to R72, R296). -/
def csrWrite (s : State) (n num : Nat) (w : Word) : State :=
  let x := w.toNat
  let c := coreOf n
  let d := dieOfSlot n
  let vi := (s.core c).visel
  let trgn := fun (i : Nat) => s.modCore c fun y =>
    { y with trgn := y.trgn.set i (BitVec.ofNat 64 (keepBits x 63 56 + keepBits x 15 4)) }
  match num with
  | 0x00 => s.modSlot n fun y => { y with fmt := BitVec.ofNat 64 (keepBits x 15 0) }
  | 0x02 => s.modSlot n fun y => { y with flags := BitVec.ofNat 64 (keepBits x 4 0) }
  | 0x03 => s.modSlot n fun y => { y with rmode := BitVec.ofNat 64 (keepBits x 1 0) }
  | 0x07 => s.modSlot n fun y => { y with domain := BitVec.ofNat 64 (keepBits x 63 62 + keepBits x 38 0) }
  | 0x10 => s.modSlot n fun y => { y with pmode := bit x 1 }
  | 0x11 => s.modSlot n fun y => { y with epc := w }
  | 0x13 => s.modSlot n fun y => { y with vbase := BitVec.ofNat 64 (keepBits x 63 2) }
  | 0x14 => s.modSlot n fun y => { y with saveptr := w }
  | 0x15 => s.modSlot n fun y => { y with pscratch := w }
  | 0x18 => trgn 0
  | 0x19 => trgn 1
  | 0x1A => trgn 2
  | 0x1B => trgn 3
  | 0x1C => trgn 4
  | 0x1D => trgn 5
  | 0x1E => trgn 6
  | 0x1F => trgn 7
  | 0x20 => s.modCore c fun y => { y with visel := x % 64 }
  | 0x21 => s.modVi vi fun y => { y with ptbr := BitVec.ofNat 64 (keepBits x 51 15 + x % 2) }
  | 0x22 => s.modDie d fun y => { y with mstw := y.mstw.set vi (BitVec.ofNat 64 (keepBits x 43 12)) }
  | 0x23 => clearAtomFlags s d vi x
  | 0x24 => s.modDie d fun y => { y with quota := y.quota.set vi (x % 2 ^ 22) }
  | 0x25 => s.modVi vi fun y => { y with nodetab := BitVec.ofNat 64 (keepBits x 51 25) }
  | 0x26 => s.modVi vi fun y => { y with ctxbuf := BitVec.ofNat 64 (keepBits x 51 0) }
  | 0x27 => writeMscr s d w
  | 0x28 => s.modDie d fun y => { y with tqbase := BitVec.ofNat 64 (keepBits x 51 14) }
  | 0x2A => s.modDie d fun y => { y with tqhead := x % 2 ^ 32 }
  | 0x2B => { s with invq := BitVec.ofNat 64 (keepBits x 51 11) }
  | 0x2C => { s with invdb := x % 2 ^ 32 }
  | 0x2D => if bit x 63 then { s with inverr := false } else s
  | 0x2E => if bit x 63 then s.modCore c fun y => { y with cause := y.cause &&& 0x7FFFFFFFFFFFFFFF } else s
  | _ => s

/-- CsrOp (R75): the number is checked, the old value goes to s[d], and a writing member writes what `f` makes of it; the slot's earlier
stores are performed before (R74). -/
def csrOp (d num : Nat) (f : Option (Word → Slot → Word)) (s0 : State) (n : Nat) : Except Trap Res :=
  let s := drainStores s0 n
  let x := s.slot n
  if 0x08 ≤ num ∧ num < 0x10 then .error illegal
  else if 0x10 ≤ num ∧ x.mode = false then .error (raise 0x02)
  else match csrRead s n num with
    | none => .error illegal
    | some old =>
      let s1 := match f with
        | none => s
        | some g => csrWrite s n num (g old x)
      writeDone s1 n d old

/-- CSRR (R75). -/
def execCsrr (d b : Nat) (s : State) := plain (csrOp d b none) s

/-- CSRW (R75). -/
def execCsrw (d a b : Nat) (s : State) := plain (csrOp d b (some fun _ x => x.rs a)) s

/-- CSRS (R75): with a = 0 it acts as a read. -/
def execCsrs (d a b : Nat) (s : State) :=
  plain (csrOp d b (if a % 64 = 0 then none else some fun old x => old ||| x.rs a)) s

/-- CSRC (R75): with a = 0 it acts as a read. -/
def execCsrc (d a b : Nat) (s : State) :=
  plain (csrOp d b (if a % 64 = 0 then none else some fun old x => old &&& ~~~(x.rs a))) s

end Sys2Proof.Machine
end

