-- ==== Sys2Proof/Machine/MemInstr.lean ====
section
/-!
DEFINITION. Loads, stores, fences, atomics, batches and remote appends (08 R151 to R169), vector loads and stores (06 R132 to R134).

A load, a returning atomic, EVNEW and their like are given as functions of the answer of a remote request: `none` when the
instruction issues, the data and flags when they are back. Where the state says that answers come late, a local one is also
interlocked first, and LOAD_DATA_RETURN performs it (02 R45; log 8).

Readings and choices of the model (log): DESIGN CHOICE 10; DEDUCED 32, 33, 67, 70, 71, 73, 74, 75, 134, 155.
-/

namespace Sys2Proof.Machine

open Sys2Proof

/-! ### Scalar loads and stores -/

/-- What a load's width code makes of its bytes (R61, R153): the registers that are written. -/
def loadWrite (x : Slot) (d w v : Nat) : Slot :=
  match w with
  | 0 => x.ws d (toWord (sx 8 v))
  | 2 => x.ws d (toWord (sx 16 v))
  | 4 => x.ws d (toWord (sx 32 v))
  | 7 => (x.ws d (BitVec.ofNat 64 v)).ws (d + 1) (BitVec.ofNat 64 (v / 2 ^ 64))
  | _ => x.ws d (BitVec.ofNat 64 v)

/-- ALIGN of an access. -/
def alignTrap (ea kind size order : Nat) : Trap := accTrap 0x03 ea kind size order

/-- LOAD (R152 to R155): order and register checks, alignment, then the access; `ans` is the answer of a remote load. -/
def loadOp (i : Instr) (d ea w order : Nat) (ans : Option Nat) (s : State) (n : Nat) : Except Trap Res :=
  let size := memSize w
  if order = 2 ∨ (w = 7 ∧ d % 2 = 1) then .error illegal
  else if ea % memAlign size order ≠ 0 then .error (alignTrap ea 1 size order)
  else if isRemote s ea then
    (if order = 3 then .error (accTrap 0x05 ea 1 size order)
     else match ans with
      | none => remoteAsk s n i ea 1 order { packetOf s n 1 1 (ea / 2 ^ 52) (ea % 2 ^ 52) size with sub := order }
      | some v => .ok (.done (s.modSlot n fun x => loadWrite x d w v)))
  else
    match localCells s n (s.slot n).mode ea size 1 order with
    | .error t => .error t
    | .ok cells =>
      if asleep s cells ∨ (order = 3 ∧ scMayAct s n = false) then .ok (.wait s .busy)
      else if s.late ∧ ans = none ∧ order ≠ 3 then .ok (.wait s (.answer i))
      else
        let mine := (s.slot n).sb.any fun e => e.cells.any fun c => cells.contains c
        let s1 := if mine || order = 3 then drainStores s n else s
        match loadCells s1 n ea 1 order cells with
        | .error t => .error t
        | .ok (bs, s2) =>
          let s3 := if order = 3 then announceSc s2 n else s2
          .ok (.done (s3.modSlot n fun x => loadWrite x d w (numOf bs)))

/-- The data of a store (R153). -/
def storeData (x : Slot) (d w : Nat) : Nat :=
  if w = 7 then (x.rs d).toNat + (x.rs (d + 1)).toNat * 2 ^ 64 else (x.rs d).toNat % 2 ^ (8 * memSize w)

/-- A local store accepted: performed at once, or, where the state holds stores, put into the store buffer (02 R45); an SC store
drains it, is performed and announced in the order of its key (18 R282). -/
def storeLocal (s : State) (n ea order : Nat) (cells : List Nat) (v : Nat) : Res :=
  if order = 3 then
    (if scMayAct s n then .done (announceSc (performStore (drainStores s n) n ea 2 order none cells (bytesOf cells.length v)) n)
     else .wait s .busy)
  else if s.hold then
    (if storeBufferSize ≤ (s.slot n).sb.length then .wait s .busy
     else .done (s.modSlot n fun x => { x with sb := x.sb ++ [⟨ea, cells, v, none, order, 0, []⟩] }))
  else .done (performStore (drainStores s n) n ea 2 order none cells (bytesOf cells.length v))

/-- STORE (R152 to R155). -/
def storeOp (d ea w order : Nat) (s : State) (n : Nat) : Except Trap Res :=
  let size := memSize w
  let x := s.slot n
  let v := storeData x d w
  let note := fun (t : Trap) => if w = 7 then t else { t with data0 := v }
  if order = 1 ∨ (w = 7 ∧ d % 2 = 1) ∨ w = 1 ∨ w = 3 ∨ w = 5 then .error illegal
  else if ea % memAlign size order ≠ 0 then .error (note (alignTrap ea 2 size order))
  else if isRemote s ea then
    (if order = 3 then .error (note (accTrap 0x05 ea 2 size order))
     else .ok (.done (remotePost (drainStores s n) n
       { packetOf s n 0 0 (ea / 2 ^ 52) (ea % 2 ^ 52) size with data := v, sub := order })))
  else
    match localCells s n x.mode ea size 2 order with
    | .error t => .error (note t)
    | .ok cells => .ok (if asleep s cells then .wait s .busy else storeLocal s n ea order cells v)

/-- LB (R153). -/
def execLb (d b o f : Nat) (s : State) :=
  plain (fun t n => loadOp (.lb d b o f) d (memAddr (t.slot n) b f 0) 0 o none t n) s

/-- LBN (R153). -/
def execLbn (d b o f : Nat) (s : State) :=
  plain (fun t n => loadOp (.lbn d b o f) d (memAddr (t.slot n) b f 1) 1 o none t n) s

/-- LH (R153). -/
def execLh (d b o f : Nat) (s : State) :=
  plain (fun t n => loadOp (.lh d b o f) d (memAddr (t.slot n) b f 2) 2 o none t n) s

/-- LHN (R153). -/
def execLhn (d b o f : Nat) (s : State) :=
  plain (fun t n => loadOp (.lhn d b o f) d (memAddr (t.slot n) b f 3) 3 o none t n) s

/-- LW (R153). -/
def execLw (d b o f : Nat) (s : State) :=
  plain (fun t n => loadOp (.lw d b o f) d (memAddr (t.slot n) b f 4) 4 o none t n) s

/-- LWN (R153). -/
def execLwn (d b o f : Nat) (s : State) :=
  plain (fun t n => loadOp (.lwn d b o f) d (memAddr (t.slot n) b f 5) 5 o none t n) s

/-- LD (R153). -/
def execLd (d b o f : Nat) (s : State) :=
  plain (fun t n => loadOp (.ld d b o f) d (memAddr (t.slot n) b f 6) 6 o none t n) s

/-- LDP (R153). -/
def execLdp (d b o f : Nat) (s : State) :=
  plain (fun t n => loadOp (.ldp d b o f) d (memAddr (t.slot n) b f 7) 7 o none t n) s

/-- STB (R153). -/
def execStb (d b o f : Nat) (s : State) := plain (fun t n => storeOp d (memAddr (t.slot n) b f 0) 0 o t n) s

/-- STH (R153). -/
def execSth (d b o f : Nat) (s : State) := plain (fun t n => storeOp d (memAddr (t.slot n) b f 2) 2 o t n) s

/-- STW (R153). -/
def execStw (d b o f : Nat) (s : State) := plain (fun t n => storeOp d (memAddr (t.slot n) b f 4) 4 o t n) s

/-- STD (R153). -/
def execStd (d b o f : Nat) (s : State) := plain (fun t n => storeOp d (memAddr (t.slot n) b f 6) 6 o t n) s

/-- STP (R153). -/
def execStp (d b o f : Nat) (s : State) := plain (fun t n => storeOp d (memAddr (t.slot n) b f 7) 7 o t n) s

/-- LDX (R155). -/
def execLdx (d a b o c w : Nat) (s : State) :=
  plain (fun t n => loadOp (.ldx d a b o c w) d (idxAddr (t.slot n) a b c w) w o none t n) s

/-- STX (R155). -/
def execStx (d a b o c w : Nat) (s : State) := plain (fun t n => storeOp d (idxAddr (t.slot n) a b c w) w o t n) s

/-! ### Fences -/

/-- The end of a fence's drain (R157): the slot's stores are performed; a full fence of package or system scope is announced (18 R282). -/
def fenceEnd (kind scope : Nat) (s : State) (n : Nat) : State :=
  let s1 := drainStores s n
  if kind = 0 ∧ 3 ≤ scope then announceSc s1 n else s1

/-- Whether a fence of slot `n` has to wait yet for remote stores, which it orders at system scope, or, a full one, for its place among SC
operations (R157; 18 R282). -/
def fenceWaits (s : State) (n kind scope : Nat) : Bool :=
  (kind != 1 && scope == 4 && !(s.slot n).sent.isEmpty) || (kind == 0 && decide (3 ≤ scope) && !scMayEnd s n)

/-- FENCE (R156, R157): interlocked until the earlier accesses that it orders are performed; with none outstanding it goes on at
once, an SC fence when its key allows it (18 R282). -/
def fence (kind scope : Nat) (s : State) (n : Nat) : Except Trap Res :=
  if 4 < scope then .error illegal
  else if s.late ∨ (kind ≠ 1 ∧ (s.slot n).sb ≠ []) ∨ fenceWaits s n kind scope = true then .ok (.wait s (.fence kind scope))
  else .ok (.done (fenceEnd kind scope s n))

/-- FENCE, full (R156). -/
def execFence (sc : Nat) (s : State) := plain (fence 0 sc) s
/-- FENCE.ACQ (R156). -/
def execFenceAcq (sc : Nat) (s : State) := plain (fence 1 sc) s
/-- FENCE.REL (R156). -/
def execFenceRel (sc : Nat) (s : State) := plain (fence 2 sc) s
/-- FENCE.SS (R156). -/
def execFenceSs (sc : Nat) (s : State) := plain (fence 3 sc) s

/-! ### Atomics -/

/-- Atomics of a slot outstanding to one home (R161). -/
def atomsOut (x : Slot) (node : Nat) : Nat := (x.sent.filter fun e => e.node == node && e.cls == 3).length

/-- ATOM (R158 to R162): `ans` is the reply of a remote atomic, old value and flags. Bit 8 of a packet's `sub` says that no value
returns. -/
def atomOp (i : Instr) (op d a b order w : Nat) (ans : Option (Nat × Nat)) (s : State) (n : Nat) : Except Trap Res :=
  let x := s.slot n
  let size := if w = 1 then 8 else 4
  let ea := (x.rs a).toNat
  let v := (x.rs b).toNat
  let cmp := (x.rs d).toNat
  let note := fun (t : Trap) => { t with data0 := v, data1 := if op = 9 then cmp else 0 }
  let give := fun (t : State) (old fl : Nat) =>
    Except.ok (Res.done (t.modSlot n fun y => (y.ws d (BitVec.ofNat 64 (old % 2 ^ (8 * size)))).raiseFlags fl))
  if ea % size ≠ 0 then .error (note (alignTrap ea 3 size order))
  else if isRemote s ea then
    let node := ea / 2 ^ 52
    let pkt := { packetOf s n 3 2 node (ea % 2 ^ 52) size with sub := op + order * 16, data := v % 2 ^ (8 * size), cmp := if op = 9 then cmp % 2 ^ (8 * size) else 0 }
    if order = 3 then .error (note (accTrap 0x05 ea 3 size order))
    else if d % 64 = 0 then
      (if 32 ≤ atomsOut x node then .ok (.wait s .busy)
       else .ok (.done (remotePost (drainStores s n) n { pkt with sub := pkt.sub + 256 })))
    else match ans with
      | some (old, fl) => give s old fl
      | none =>
        if 32 ≤ atomsOut x node then .ok (.wait s .busy)
        else match remoteAsk (drainStores s n) n i ea 3 order pkt with
          | .error t => .error (note t)
          | .ok r => .ok r
  else match localCells s n x.mode ea size 3 order with
    | .error t => .error (note t)
    | .ok cells =>
      if asleep s cells then .ok (.wait s .busy)
      else if d % 64 = 0 ∧ s.hold ∧ order ≠ 3 then
        (if storeBufferSize ≤ x.sb.length then .ok (.wait s .busy)
         else .ok (.done (s.modSlot n fun y => { y with sb := y.sb ++ [⟨ea, cells, 0, some (op, v), order, cmp, []⟩] })))
      else if order = 3 ∧ scMayAct s n = false then .ok (.wait s .busy)
      else if d % 64 ≠ 0 ∧ s.late ∧ ans = none ∧ order ≠ 3 then .ok (.wait s (.answer i))
      else
        let s1 := drainStores s n
        let sc := fun (t : State) => if order = 3 then announceSc t n else t
        if d % 64 = 0 then .ok (.done (sc (atomQuiet s1 n ea order cells op v cmp)))
        else match cells.find? (poisoned s1) with
          | some c => .error (note (eccTrap ea 3 order cells c))
          | none =>
            let (old, fl, s2) := atomAt s1 n ea order cells op v cmp
            give (sc s2) old fl

/-- AADD (R158). -/
def execAadd (d a b o w : Nat) (s : State) := plain (atomOp (.aadd d a b o w) 0x0 d a b o w none) s

/-- AAND (R158). -/
def execAand (d a b o w : Nat) (s : State) := plain (atomOp (.aand d a b o w) 0x1 d a b o w none) s

/-- AOR (R158). -/
def execAor (d a b o w : Nat) (s : State) := plain (atomOp (.aor d a b o w) 0x2 d a b o w none) s

/-- AXOR (R158). -/
def execAxor (d a b o w : Nat) (s : State) := plain (atomOp (.axor d a b o w) 0x3 d a b o w none) s

/-- AMIN (R158). -/
def execAmin (d a b o w : Nat) (s : State) := plain (atomOp (.amin d a b o w) 0x4 d a b o w none) s

/-- AMAX (R158). -/
def execAmax (d a b o w : Nat) (s : State) := plain (atomOp (.amax d a b o w) 0x5 d a b o w none) s

/-- AMINN (R158). -/
def execAminn (d a b o w : Nat) (s : State) := plain (atomOp (.aminn d a b o w) 0x6 d a b o w none) s

/-- AMAXN (R158). -/
def execAmaxn (d a b o w : Nat) (s : State) := plain (atomOp (.amaxn d a b o w) 0x7 d a b o w none) s

/-- ASWP (R158). -/
def execAswp (d a b o w : Nat) (s : State) := plain (atomOp (.aswp d a b o w) 0x8 d a b o w none) s

/-- ACAS (R158). -/
def execAcas (d a b o w : Nat) (s : State) := plain (atomOp (.acas d a b o w) 0x9 d a b o w none) s

/-- AFADD (R158). -/
def execAfadd (d a b o w : Nat) (s : State) := plain (atomOp (.afadd d a b o w) 0xA d a b o w none) s

/-- AFMIN (R158). -/
def execAfmin (d a b o w : Nat) (s : State) := plain (atomOp (.afmin d a b o w) 0xB d a b o w none) s

/-- AFMAX (R158). -/
def execAfmax (d a b o w : Nat) (s : State) := plain (atomOp (.afmax d a b o w) 0xC d a b o w none) s

/-- ACAS2 (R163): the 16 bytes at s[a] compared with s[d], s[d+1] and replaced by s[b], s[b+1]. -/
def acas2 (i : Instr) (d a b order : Nat) (ans : Option (Nat × Nat)) (s : State) (n : Nat) : Except Trap Res :=
  let x := s.slot n
  let ea := (x.rs a).toNat
  let want := (x.rs d).toNat + (x.rs (d + 1)).toNat * 2 ^ 64
  let new := (x.rs b).toNat + (x.rs (b + 1)).toNat * 2 ^ 64
  let give := fun (t : State) (old : Nat) => Except.ok (Res.done (t.modSlot n fun y => loadWrite y d 7 old))
  if d % 2 = 1 ∨ b % 2 = 1 then .error illegal
  else if ea % 16 ≠ 0 then .error (alignTrap ea 3 16 order)
  else if isRemote s ea then
    let node := ea / 2 ^ 52
    if order = 3 then .error (accTrap 0x05 ea 3 16 order)
    else match ans with
      | some (old, _) => give s old
      | none =>
        if 32 ≤ atomsOut x node then .ok (.wait s .busy)
        else remoteAsk (drainStores s n) n i ea 3 order
          { packetOf s n 3 3 node (ea % 2 ^ 52) 16 with sub := order, data := new, cmp := want }
  else match localCells s n x.mode ea 16 3 order with
    | .error t => .error t
    | .ok cells =>
      if asleep s cells ∨ (order = 3 ∧ scMayAct s n = false) then .ok (.wait s .busy)
      else if s.late ∧ ans = none ∧ order ≠ 3 then .ok (.wait s (.answer i))
      else
        let s1 := drainStores s n
        match cells.find? (poisoned s1) with
        | some c => .error (eccTrap ea 3 order cells c)
        | none =>
          let old := numOf (readCells s1 cells)
          let s2 := if old = want then writeCells s1 cells (bytesOf 16 new) else s1
          let s3 := bumpOnce (noteGuard s2 n ea 3 order none cells) n cells
          let s4 := if old = want then relStores s3 cells else s3
          give (if order = 3 then announceSc s4 n else s4) old

/-- ACAS2 (R163). -/
def execAcas2 (d a b o : Nat) (s : State) := plain (acas2 (.acas2 d a b o) d a b o none) s

/-! ### Vector loads and stores -/

/-- The active elements with their addresses (06 R132): `mode` 0 base plus register, 1 stride, 2 index, 3 broadcast. -/
def vecAddrs (x : Slot) (mode b r k w : Nat) : List (Nat × Nat) :=
  let e := 2 ^ (w % 4)
  let base := (x.rs b).toNat
  ((List.range (128 / e)).filter fun j => active (x.rk k) (8 * e) j).map fun j =>
    (j, match mode with
      | 0 => (base + (x.rs r).toNat + j * e) % 2 ^ 64
      | 1 => wrap 64 (base + (j : Int) * (x.rs r).toInt)
      | 2 => wrap 64 (base + sx (8 * e) (elem (8 * e) (x.rv r) j) * e)
      | _ => (base + (x.rs r).toNat) % 2 ^ 64)

/-- The local cells of every element, the remote ones left empty (R132: any fault is raised before anything is accessed). -/
def vecCells (s : State) (n kind e order : Nat) (as : List (Nat × Nat)) : Except Trap (List (Nat × Nat × List Nat)) :=
  match as with
  | [] => .ok []
  | (j, a) :: t =>
    if isRemote s a then (vecCells s n kind e order t).map ((j, a, []) :: ·)
    else match localCells s n (s.slot n).mode a e kind order with
      | .error g => .error g
      | .ok cs => (vecCells s n kind e order t).map ((j, a, cs) :: ·)

/-- A vector load (06 R132 to R134). `ans` carries the register image of the remote elements. -/
def vload (i : Instr) (mode v b r k order w : Nat) (ans : Option Nat) (s : State) (n : Nat) : Except Trap Res :=
  let x := s.slot n
  let e := 2 ^ (w % 4)
  let as0 := vecAddrs x mode b r k w
  let as := if mode = 3 then as0.take 1 else as0
  if 1 < order ∨ (mode = 2 ∧ w % 4 < 2) then .error illegal
  else match as.find? fun a => a.2 % e != 0 with
    | some a => .error (alignTrap a.2 1 e order)
    | none =>
      match vecCells s n 1 e order as with
      | .error t => .error t
      | .ok cs =>
        let away := cs.filter fun c => c.2.2.isEmpty
        if asleep s (cs.flatMap fun c => c.2.2) then .ok (.wait s .busy)
        else match away, ans with
        | _ :: _, none =>
          remoteAsks s n i 1 order (away.map fun c =>
            (c.2.1, { packetOf s n 1 1 (c.2.1 / 2 ^ 52) (c.2.1 % 2 ^ 52) e with sub := order }))
        | _, _ =>
          if s.late ∧ ans = none ∧ as ≠ [] then .ok (.wait s (.answer i))
          else
            let cells := cs.flatMap fun c => c.2.2
            let mine := x.sb.any fun q => q.cells.any fun c => cells.contains c
            let s1 := if mine then drainStores s n else s
            match cs.findSome? fun p => (p.2.2.find? (poisoned s1)).map fun c => eccTrap p.2.1 1 order p.2.2 c with
            | some t => .error t
            | none =>
              let got := cs.map fun c =>
                (c.1, if c.2.2.isEmpty then elem (8 * e) (BitVec.ofNat 1024 (ans.getD 0)) c.1 else numOf (readCells s1 c.2.2))
              let val := fun j => if mode = 3 then (got.headD (0, 0)).2 else SMap.get got j 0
              let s2 := noteGuards s1 n 1 order (cs.map Prod.snd)
              .ok (.done (s2.modSlot n fun y => y.wv v (mergeElems (8 * e) (y.rk k) (y.rv v) val)))

/-- A vector store (06 R132 to R134): elements in ascending order, one count for each watch tile touched (16 R265). -/
def vstore (mode v b r k order w : Nat) (s : State) (n : Nat) : Except Trap Res :=
  let x := s.slot n
  let e := 2 ^ (w % 4)
  let as := vecAddrs x mode b r k w
  if order = 1 ∨ order = 3 ∨ (mode = 2 ∧ w % 4 < 2) then .error illegal
  else match as.find? fun a => a.2 % e != 0 with
    | some a => .error (alignTrap a.2 2 e order)
    | none =>
      match vecCells s n 2 e order as with
      | .error t => .error t
      | .ok cs =>
        let cells := cs.flatMap fun c => c.2.2
        let away := cs.any fun c => c.2.2.isEmpty
        let data := fun j => elem (8 * e) (x.rv v) j
        if asleep s cells then .ok (.wait s .busy)
        else if s.hold && !away && as != [] then
          (if storeBufferSize ≤ x.sb.length then .ok (.wait s .busy)
           else .ok (.done (s.modSlot n fun y => { y with sb := y.sb ++
             [⟨(as.headD (0, 0)).2, cells, numOf (cs.flatMap fun c => bytesOf e (data c.1)), none, order, 0, as.map Prod.snd⟩] })))
        else
          let s1 := if as = [] then s else drainStores s n
          let s2 := (cs.filter fun c => c.2.2.isEmpty).foldl (fun t c =>
            remotePost t n { packetOf t n 0 0 (c.2.1 / 2 ^ 52) (c.2.1 % 2 ^ 52) e with data := data c.1, sub := order }) s1
          let near := cs.filter fun c => !c.2.2.isEmpty
          .ok (.done (performStores s2 n order (near.map Prod.snd) cells (near.flatMap fun c => bytesOf e (data c.1))))

/-- VLD (06 R132). -/
def execVld (v b r k o w : Nat) (s : State) := plain (vload (.vld v b r k o w) 0 v b r k o w none) s
/-- VLDS (06 R132). -/
def execVlds (v b r k o w : Nat) (s : State) := plain (vload (.vlds v b r k o w) 1 v b r k o w none) s
/-- VLDX (06 R132). -/
def execVldx (v b r k o w : Nat) (s : State) := plain (vload (.vldx v b r k o w) 2 v b r k o w none) s
/-- VLDB (06 R132). -/
def execVldb (v b r k o w : Nat) (s : State) := plain (vload (.vldb v b r k o w) 3 v b r k o w none) s
/-- VST (06 R132). -/
def execVst (v b r k o w : Nat) (s : State) := plain (vstore 0 v b r k o w) s
/-- VSTS (06 R132). -/
def execVsts (v b r k o w : Nat) (s : State) := plain (vstore 1 v b r k o w) s
/-- VSTX (06 R132). -/
def execVstx (v b r k o w : Nat) (s : State) := plain (vstore 2 v b r k o w) s

/-! ### Answers -/

/-- The loads and atomics as functions of their answer: data and flags of a remote access, or the moment of a late local one. -/
def memAnswer (i : Instr) (ans : Nat × Nat) (s : State) (n : Nat) : Option (Except Trap Res) :=
  let x := s.slot n
  match i with
  | .lb d b o f => some (loadOp i d (memAddr x b f 0) 0 o (some ans.1) s n)
  | .lbn d b o f => some (loadOp i d (memAddr x b f 1) 1 o (some ans.1) s n)
  | .lh d b o f => some (loadOp i d (memAddr x b f 2) 2 o (some ans.1) s n)
  | .lhn d b o f => some (loadOp i d (memAddr x b f 3) 3 o (some ans.1) s n)
  | .lw d b o f => some (loadOp i d (memAddr x b f 4) 4 o (some ans.1) s n)
  | .lwn d b o f => some (loadOp i d (memAddr x b f 5) 5 o (some ans.1) s n)
  | .ld d b o f => some (loadOp i d (memAddr x b f 6) 6 o (some ans.1) s n)
  | .ldp d b o f => some (loadOp i d (memAddr x b f 7) 7 o (some ans.1) s n)
  | .ldx d a b o c w => some (loadOp i d (idxAddr x a b c w) w o (some ans.1) s n)
  | .aadd d a b o w => some (atomOp i 0x0 d a b o w (some ans) s n)
  | .aand d a b o w => some (atomOp i 0x1 d a b o w (some ans) s n)
  | .aor d a b o w => some (atomOp i 0x2 d a b o w (some ans) s n)
  | .axor d a b o w => some (atomOp i 0x3 d a b o w (some ans) s n)
  | .amin d a b o w => some (atomOp i 0x4 d a b o w (some ans) s n)
  | .amax d a b o w => some (atomOp i 0x5 d a b o w (some ans) s n)
  | .aminn d a b o w => some (atomOp i 0x6 d a b o w (some ans) s n)
  | .amaxn d a b o w => some (atomOp i 0x7 d a b o w (some ans) s n)
  | .aswp d a b o w => some (atomOp i 0x8 d a b o w (some ans) s n)
  | .acas d a b o w => some (atomOp i 0x9 d a b o w (some ans) s n)
  | .afadd d a b o w => some (atomOp i 0xA d a b o w (some ans) s n)
  | .afmin d a b o w => some (atomOp i 0xB d a b o w (some ans) s n)
  | .afmax d a b o w => some (atomOp i 0xC d a b o w (some ans) s n)
  | .acas2 d a b o => some (acas2 i d a b o (some ans) s n)
  | .vld v b r k o w => some (vload i 0 v b r k o w (some ans.1) s n)
  | .vlds v b r k o w => some (vload i 1 v b r k o w (some ans.1) s n)
  | .vldx v b r k o w => some (vload i 2 v b r k o w (some ans.1) s n)
  | .vldb v b r k o w => some (vload i 3 v b r k o w (some ans.1) s n)
  | _ => none

/-! ### Batches, closes and appends -/

/-- BTAG (R165): the current tag changes, no batch does. -/
def execBtag (b : Nat) (s : State) :=
  plain (fun t n => if 3 < b then .error illegal else .ok (.done (t.modSlot n fun x => { x with tag := b }))) s

/-- The event slot of BCLOSE and RAPPEND (R169): bound, and its live event has the slot's remote agent as a party. -/
def remoteEvent (s : State) (n e : Nat) : Except Trap (Option EvRef) := eventField s n 1 e 1

/-- The summary word of a closed batch, from its nodes with their error bits (R167). -/
def summaryWord (nodes : List (Nat × Nat)) : Nat :=
  let bad := (nodes.filter fun e => e.2 % 32 != 0).length
  min bad 0xFFFF * 2 ^ 48 + min nodes.length 0xFFFF * 2 ^ 32 + (nodes.foldl (fun a e => a ||| e.2) 0) % 32

/-- A close completes: the device writes the summary word, then the remote agent offers the event (R166). -/
def closeDone (s : State) (n : Nat) (c : Close) (nodes : List (Nat × Nat)) : State :=
  let cells := (List.range 8).map fun j => c.cell + j
  engineOffer (performStore s n c.addr 2 0 none cells (bytesOf 8 (summaryWord nodes))) (partyOf s 1 n) c.ev

/-- The members of a batch that have been sent to a node. -/
def Batch.sentTo (b : Batch) (node : Nat) : List Member := b.members.filter fun m => m.node == node

/-- The nodes of a batch whose summaries are awaited: those to which members went. -/
def Batch.asked (b : Batch) : List Nat := (b.nodes.map Prod.fst).filter fun m => !(b.sentTo m).isEmpty

/-- A node of a batch is lost: no summary comes from it, and its error is PEER_LOST where one of its members is still outstanding (R167;
20 R312). -/
def Batch.lose (b : Batch) (node : Nat) (sent : List Sent) : Batch :=
  let out := sent.any fun e => e.node == node && b.members.any fun m => m.seq == e.seq
  { b with
    nodes := if out then SMap.set b.nodes node (SMap.get b.nodes node 0 ||| 1) else b.nodes
    members := b.members.filter fun m => m.node != node }

/-- The members that a close request names, each with its source and its number, as the request carries them. -/
def packMembers (l : List Member) : Nat := l.foldr (fun m a => m.seq % 2 ^ 64 + m.src % 2 ^ 32 * 2 ^ 64 + a * 2 ^ 96) 0

/-- The close requests of a batch, one to each node (R166). -/
def sendCloses (s : State) (n : Nat) (b : Batch) : State × Batch :=
  b.asked.foldl (fun a node =>
    let ms := b.sentTo node
    match sendFrom a.1 n { packetOf a.1 n 1 5 node 0 ms.length with tag := b.tag, data := packMembers ms } with
    | none => (a.1, a.2.lose node (a.1.slot n).sent)
    | some (_, t) => (t, a.2)) (s, b)

/-- The remote stores of a closed batch, marked as its members. -/
def closeSent (x : Slot) (tag : Nat) : Slot :=
  { x with
    batches := x.batches.filter fun c => c.tag != tag
    sent := x.sent.map fun (e : Sent) => if e.tag == tag then { e with closed := true } else e }

/-- BCLOSE (R166, R169): the batch is closed as it stands, one close request goes to each node; a batch without members completes
at once when no store of the slot to another node is outstanding, which the release waits for (18 R289; DEDUCED, log 155). -/
def execBclose (e a b : Nat) (s : State) :=
  plain (fun t n => do
    let x := t.slot n
    let ea := (x.rs a).toNat
    if 3 < b then .error illegal
    else
      let ev ← remoteEvent t n e
      if ea % 8 ≠ 0 then .error (alignTrap ea 2 8 0)
      else
        let cells ← localCells t n x.mode ea 8 2 0
        if x.closes.any fun c => c.batch.tag == b then .ok (.wait t .busy)
        else
          let bt := batchOf x b
          let cl : Close := ⟨bt, cells.headD 0, ev, ea, x.seq⟩
          let t1 := (drainStores t n).modSlot n fun y => closeSent y b
          if bt.nodes = [] ∧ x.sent = [] then .ok (.done (closeDone t1 n cl []))
          else
            let (t2, bt1) := sendCloses t1 n bt
            .ok (.done (t2.modSlot n fun y => { y with closes := y.closes ++ [{ cl with batch := bt1 }] }))) s

/-- The ingress queue of a VI and a class (24 R346). -/
def ingressKey (vi cls : Nat) : Nat := vi * 8 + cls

/-- A message put into the own ingress queue of its VI and class. -/
def toIngress (s : State) (m : Packet) : State :=
  { s with ingress := s.ingress.set (ingressKey m.vi m.cls) (s.ingress.get (ingressKey m.vi m.cls) [] ++ [m]) }

/-- Append `i` of slot `n` changed. -/
def modAppend (x : Slot) (i : Nat) (f : Append → Append) : Slot :=
  { x with appends := x.appends.zipIdx.map fun e => if e.2 = i then f e.1 else e.1 }

/-- The packet of append `i` leaves under the slot's next sequence number: for the own node into its own network interface (R169), for another
through a port; without one the append ends with PEER_LOST. -/
def sendAppend (s : State) (n i : Nat) (m : Packet) : State :=
  let q := (s.slot n).seq
  let left := fun (x : Slot) => modAppend x i fun a => { a with seq := q, src := m.src, pkt := none }
  if m.node = s.node then (toIngress s { m with seq := q }).modSlot n fun x => { left x with seq := q + 1 }
  else match sendFrom s n m with
    | none => s.modSlot n fun x => modAppend x i fun a => { a with status := some 3, pkt := none }
    | some (_, t) => t.modSlot n left

/-- The held appends of slot `n` leave in their order, each once every earlier remote store of the slot is acknowledged: its publication
releases them (R168; 18 R289). -/
def flushAppends (s : State) (n : Nat) : State :=
  (s.slot n).appends.zipIdx.foldl (fun t e =>
    match e.1.pkt with
    | some m => if (t.slot n).sent.all fun g => decide (e.1.before ≤ g.seq) then sendAppend t n e.2 m else t
    | none => t) s

/-- RAPPEND (R168, R169): the block and the record's header are checked, the whole record is read and sent in class A; the own
node is reached through its own network interface. -/
def execRappend (e a b : Nat) (s : State) :=
  plain (fun t n => do
    let x := t.slot n
    let ea := (x.rs b).toNat
    let brb := (x.rs a).toNat
    let ev ← remoteEvent t n e
    if ea % 8 ≠ 0 then .error (alignTrap ea 1 8 0)
    else
      let _ ← localCells t n x.mode ea 8 1 0
      let cells ← localCells t n x.mode ea 8 2 0
      let t0 := drainStores t n
      let (h, _) ← readLocal t0 n ((ea + 8) % 2 ^ 64) 8 1 0
      let len := bits h 63 48
      let typ := bits h 47 40
      if len % 8 ≠ 0 ∨ len < 8 ∨ 256 < len ∨ (typ ≠ 1 ∧ typ ≠ 2) then .error (raise 0x0A)
      else
        let (rec, t1) ← readLocal t0 n ((ea + 8) % 2 ^ 64) len 1 0
        let node := if brb / 2 ^ 52 = 0xFFF ∨ winBase ≤ brb % 2 ^ 52 then t.node else brb / 2 ^ 52
        let pkt : Packet := { packetOf t n 4 4 node (brb % 2 ^ 52) len with data := rec }
        let t2 := t1.modSlot n fun y =>
          { y with appends := y.appends ++ [⟨cells.headD 0, ev, node, pkt.src, 0, none, ea, some pkt, x.seq⟩] }
        .ok (.done (flushAppends t2 n))) s

end Sys2Proof.Machine
end

