-- ==== Sys2Proof/Machine/Cct.lean ====
section
/-!
DEFINITION. The change-count tree: the instructions of major 0x37, settles and the roll-up engine (16 R261 to R275).

Readings and choices of the model (log): DESIGN CHOICE 21, 174; DEDUCED 100, 101, 102, 103.
-/

namespace Sys2Proof.Machine

open Sys2Proof

/-! ### Node records (R263) -/

/-- The second word of a node's record written. -/
def setNodeWord (s : State) (vi id w : Nat) : State := s.setRaw (nodeCell s vi id + 8) 8 w

/-- The second word of a record: parent, depth, ISROOT, LEAF, USED. -/
def nodeWordOf (parent depth : Nat) (root leaf used : Bool) : Nat :=
  parent % 2 ^ 20 * 2 ^ 44 + depth % 64 * 2 ^ 38 + (if root then 4 else 0) + (if leaf then 2 else 0) + (if used then 1 else 0)

/-- Children of a node. -/
def nodeKids (s : State) (vi id : Nat) : Nat := s.raw (nodeCell s vi id + 28) 4

/-- NCHILD written. -/
def setKids (s : State) (vi id k : Nat) : State := s.setRaw (nodeCell s vi id + 28) 4 k

/-- A whole record written: COUNT 0. -/
def writeNode (s : State) (vi id w tbase tiles : Nat) : State :=
  s.setRaw (nodeCell s vi id) 32 (w * 2 ^ 64 + tbase * 2 ^ 128 + tiles % 2 ^ 32 * 2 ^ 192)

/-- The lowest id from `id` on that is not in use. -/
def firstFree (s : State) (vi : Nat) (fuel id : Nat) : Option Nat :=
  match fuel with
  | 0 => none
  | f + 1 => if nodeUsed s vi id then firstFree s vi f (id + 1) else some id

/-- COUNT of a node gains 1, and saturates (R264). -/
def raiseNode (s : State) (vi id : Nat) : State := s.setRaw (nodeCell s vi id) 8 (min countMax (nodeCount s vi id + 1))

/-- COUNT of each node gains 1, which a tree operation adds as part of its one step (R267, R268). -/
def raiseNodes (s : State) (vi : Nat) (ids : List Nat) : State := ids.foldl (fun t m => raiseNode t vi m) s

/-- Whether a unit has reached a node whose parent it has still to reach. -/
def Bump.halfWay (b : Bump) (id parent : Nat) : Bool := b.all.contains id && !b.path.contains id && b.path.contains parent

/-- ROLL of a node says whether it has gained a unit that its parent is still owed (R263). -/
def setRoll (s : State) (vi id : Nat) : State :=
  let w := nodeWord s vi id
  let more := id != 0 && (s.vif vi).owed.any fun b => b.halfWay id (bits w 63 44)
  setNodeWord s vi id (w - (if bit w 3 then 8 else 0) + (if more then 8 else 0))

/-- ROLL of each node set. -/
def setRolls (s : State) (vi : Nat) (ids : List Nat) : State := ids.foldl (fun t m => setRoll t vi m) s

/-- ROLL of every node that units name, before or after a change of what is owed. -/
def setOwedRolls (s : State) (vi : Nat) (bs : List Bump) : State := setRolls s vi (distinct (bs.flatMap (·.all)))

/-- The writer of a unit that a move adds for a write that has been rolled up already. -/
def extraUnit : Nat := 2 ^ 33

/-- The key under which finished units of a leaf and a writer are counted. -/
def rolledKey (leaf who : Nat) : Nat := leaf * 2 ^ 34 + who

/-- A unit that has reached every node of its set is counted for its leaf and its writer (R266; log 101). -/
def Vi.finish (v : Vi) (b : Bump) : Vi :=
  if b.who = extraUnit then v
  else { v with rolled := v.rolled.set (rolledKey b.leaf b.who) (v.rolled.get (rolledKey b.leaf b.who) 0 + 1) }

/-- The units that a tenant is owed changed; those that have nothing more to reach are finished. -/
def setOwed (s : State) (vi : Nat) (bs : List Bump) : State :=
  s.modVi vi fun v =>
    { (bs.filter fun b => b.path.isEmpty).foldl Vi.finish v with owed := bs.filter fun b => !b.path.isEmpty }

/-! ### Tree operations -/

/-- Statuses of R273. -/
def ccResult (st id : Nat) : Nat := st + id * 2 ^ 32

/-- A tree operation's result: at once, or, where answers come late, on its way back (R273, 02 R45). -/
def treeDone (s : State) (n d x : Nat) : Except Trap Res :=
  if s.late then .ok (.wait s (.tree d (BitVec.ofNat 64 x))) else writeDone s n d (BitVec.ofNat 64 x)

/-- The cells of `n` tiles from `base` on, translated as loads (R274). -/
def tileCells (s : State) (slot base n : Nat) : Except Trap (List Nat) :=
  match n with
  | 0 => .ok []
  | k + 1 =>
    match targetOf s slot (s.slot slot).mode base 1 with
    | .ok (.cell c) => (tileCells s slot (base + 4096) k).map (c :: ·)
    | .ok (.remote _ _) => .error (accTrap 0x05 base 1 8 0)
    | .error code => .error (accTrap code base 1 8 0)

/-- Tiles of tenant `vi` in the table of die `d`. -/
def tilesHeld (s : State) (d vi : Nat) : Nat := ((s.die d).tiles.filter fun e => e.2.vi == vi).length

/-- Whether the tile tables of the dies have room for these tiles (R262). -/
def tilesFit (s : State) (vi : Nat) (cells : List Nat) : Bool :=
  (List.range 4).all fun d =>
    let k := (cells.filter fun c => dieOfCell c == d).length
    decide (k = 0 ∨ (tilesHeld s d vi + k ≤ (s.die d).quota.get vi 0 ∧ (s.die d).tiles.length + k ≤ 2 ^ 22))

/-- The tiles enrolled under leaf `id` (R274). -/
def enrolTiles (s : State) (vi id : Nat) (cells : List Nat) : State :=
  cells.foldl (fun t c => t.modDie (dieOfCell c) fun x =>
    { x with tiles := x.tiles.set (c / 4096) { count := 0, vi := vi, leaf := id } }) s

/-- CCENROL performed in tree order: status and id, and the state (R273, R274). Two tiles of the range that are one physical tile are BUSY
(DESIGN CHOICE, log 174). -/
def enrol (s : State) (vi base p n : Nat) (cells : List Nat) : Nat × State :=
  if !nodeUsed s vi p then (ccResult 1 0, s)
  else if 2 ^ 20 < n then (ccResult 8 0, s)
  else if 63 ≤ nodeDepth s vi p then (ccResult 5 0, s)
  else if cells.any fun c => !isDev c then (ccResult 7 0, s)
  else if (distinct cells).length ≠ cells.length || cells.any (fun c => (tileAt s c).isSome) then (ccResult 3 0, s)
  else match firstFree s vi (2 ^ 20 - 1) 1 with
    | none => (ccResult 2 0, s)
    | some id =>
      if !tilesFit s vi cells then (ccResult 2 0, s)
      else
        let path := nodePath s vi p
        let s1 := writeNode s vi id (nodeWordOf p (nodeDepth s vi p + 1) false (n ≠ 0) true) (base % 2 ^ 52) n
        let s2 := setKids s1 vi p (nodeKids s vi p + 1)
        (ccResult 0 id, raiseNodes (enrolTiles s2 vi id cells) vi path)

/-- CCENROL (R274). -/
def ccenrol (d a b : Nat) (s : State) (n : Nat) : Except Trap Res := do
  let x := s.slot n
  let base := (x.rs a).toNat
  let w := (x.rs b).toNat
  let k := bits w 31 0
  if bits w 43 32 ≠ 0 then .error illegal
  else if base % 4096 ≠ 0 then .error (accTrap 0x03 base 1 8 0)
  else if isRemote s base ∨ winBase ≤ base % 2 ^ 52 then .error (accTrap 0x05 base 1 8 0)
  else
    let cells ← tileCells s n base k
    let (r, s1) := enrol (drainStores s n) x.vi base (bits w 63 44) k cells
    treeDone s1 n d r

/-- CCENROL (R272). -/
def execCcenrol (d a b : Nat) (s : State) := plain (ccenrol d a b) s

/-- A node id register: ILLEGAL when bits 63–20 are not zero (R272). -/
def nodeReg (x : Slot) (r : Nat) : Except Trap Nat :=
  let w := (x.rs r).toNat
  if w / 2 ^ 20 ≠ 0 then .error illegal else .ok w

/-- A node that is dropped leaves the sets of the units still owed. -/
def Bump.without (b : Bump) (id : Nat) : Bump := { b with path := b.path.filter (· != id), all := b.all.filter (· != id) }

/-- What a tenant keeps of its units and moves without a node that is dropped. -/
def Vi.without (v : Vi) (id : Nat) : Vi :=
  { v with
    owed := (v.owed.filter fun b => b.leaf != id).map (·.without id)
    moved := (v.moved.filter fun m => m.node != id).map fun (m : Moved) => { m with up := m.up.filter (· != id) }
    rolled := v.rolled.filter fun e => e.1 / 2 ^ 34 != id }

/-- CCDROP performed in tree order (R274): the tiles leave the tables, and the bumps still in flight for its tiles are discarded; what other
nodes are owed stays owed. -/
def dropNode (s : State) (vi id : Nat) : Nat × State :=
  if !nodeUsed s vi id then (1, s)
  else if id = 0 then (6, s)
  else if nodeKids s vi id ≠ 0 then (3, s)
  else
    let p := nodeParent s vi id
    let path := nodePath s vi p
    let s1 := (List.range 4).foldl (fun t d => t.modDie d fun x =>
      { x with tiles := x.tiles.filter fun e => !(e.2.vi == vi && e.2.leaf == id) }) s
    let s2 := s1.modVi vi (·.without id)
    let s3 := setKids (setNodeWord s2 vi id 0) vi p (nodeKids s vi p - 1)
    (0, raiseNodes (setRolls s3 vi (distinct (path ++ (s.vif vi).owed.flatMap fun b => b.all.filter (· != id)))) vi path)

/-- CCDROP (R274). -/
def ccdrop (d a : Nat) (s : State) (n : Nat) : Except Trap Res := do
  let id ← nodeReg (s.slot n) a
  let (r, s1) := dropNode (drainStores s n) (s.slot n).vi id
  treeDone s1 n d r

/-- CCDROP (R272). -/
def execCcdrop (d a : Nat) (s : State) := plain (ccdrop d a) s

/-- The node and its descendants (R274), by the ids in use. -/
def subtree (s : State) (vi id : Nat) : List Nat :=
  (List.range (2 ^ 20)).filter fun m => nodeUsed s vi m && (nodePath s vi m).contains id

/-- The nodes that gain 1 from a move, each after its child on its path (R266, R267). -/
def movePaths (p q : List Nat) : List Nat :=
  p.filter (fun x => !q.contains x) ++ q.filter (fun x => !p.contains x) ++ p.filter (fun x => q.contains x)

/-- The units owed when slot `n` moves a node, `sub` being the node with its descendants and `up` the path of the new parent: one of a write
beneath the node that is concurrent with the move joins the path after it (R266). A write of slot `n` is not; whether another is, is a free
value (log 101). -/
def moveOwed (s : State) (vi n : Nat) (sub up : List Nat) : State :=
  let (bs, s1) := (s.vif vi).owed.foldl (fun (a : List Bump × State) b =>
    if sub.contains b.leaf && b.who != n && b.who != extraUnit then
      let (w, t) := draw a.2
      (a.1 ++ [if bit w.toNat 0 then b.join up else b], t)
    else (a.1 ++ [b], a.2)) ([], s)
  setOwed s1 vi bs

/-- Writes beneath the moved node that have reached every node of the path before the move, and are concurrent with it: how many of them is a
free value; the nodes of the path after it alone, `extra`, are owed a unit for each (R266; log 101). -/
def moveRolled (s : State) (vi n : Nat) (sub extra : List Nat) : State :=
  (s.vif vi).rolled.foldl (fun t e =>
    let (leaf, who) := (e.1 / 2 ^ 34, e.1 % 2 ^ 34)
    if sub.contains leaf && who != n && !extra.isEmpty then
      let (w, u) := draw t
      u.modVi vi fun v => { v with owed := v.owed ++ List.replicate (w.toNat % (e.2 + 1)) ⟨leaf, extraUnit, extra, extra⟩ }
    else t) s

/-- CCMOVE by slot `n` performed in tree order (R273, R274). -/
def moveNode (s : State) (vi n id q : Nat) : Nat × State :=
  if !nodeUsed s vi id || !nodeUsed s vi q then (1, s)
  else if id = 0 then (6, s)
  else if (nodePath s vi q).contains id then (4, s)
  else
    let sub := subtree s vi id
    let low := sub.foldl (fun a m => max a (nodeDepth s vi m)) 0
    let old := nodeDepth s vi id
    let new := nodeDepth s vi q + 1
    if 63 < new + (low - old) then (5, s)
    else
      let p := nodeParent s vi id
      let (before, after) := (nodePath s vi p, nodePath s vi q)
      let s1 := sub.foldl (fun t m =>
        let w := nodeWord s vi m
        let par := if m = id then q else bits w 63 44
        setNodeWord t vi m (par * 2 ^ 44 + (nodeDepth s vi m + new - old) * 2 ^ 38 + w % 2 ^ 38)) s
      let s2 := setKids s1 vi p (nodeKids s1 vi p - 1)
      let s3 := moveRolled (setKids s2 vi q (nodeKids s2 vi q + 1)) vi n sub (after.filter fun m => !before.contains m)
      let s4 := (moveOwed s3 vi n sub after).modVi vi fun v => { v with moved := v.moved ++ [⟨id, n, before⟩] }
      (0, raiseNodes (setOwedRolls s4 vi (s4.vif vi).owed) vi (movePaths before after))

/-- CCMOVE (R274). -/
def ccmove (d a b : Nat) (s : State) (n : Nat) : Except Trap Res := do
  let id ← nodeReg (s.slot n) a
  let q ← nodeReg (s.slot n) b
  let (r, s1) := moveNode (drainStores s n) (s.slot n).vi n id q
  treeDone s1 n d r

/-- CCMOVE (R272). -/
def execCcmove (d a b : Nat) (s : State) := plain (ccmove d a b) s

/-! ### Settles, reads and comparisons -/

/-- CCSETTLE (R269, R274): the slot does not stall. -/
def ccsettle (x e a : Nat) (s : State) (n : Nat) : Except Trap Res := do
  deliverGuard s n
  let id ← nodeReg (s.slot n) a
  let ev ← eventField s n x e 1
  .ok (.done ((drainStores s n).modSlot n fun y => { y with settles := y.settles ++ [⟨id, ev⟩] }))

/-- CCSETTLE (R272). -/
def execCcsettle (x e a : Nat) (s : State) := plain (ccsettle x e a) s

/-- What CCREAD answers for a node that is not in use, or a tile that is not enrolled (R274). -/
def allOnes : Nat := 2 ^ 64 - 1

/-- CCREAD of a node (R274). -/
def ccread (d a : Nat) (s : State) (n : Nat) : Except Trap Res := do
  let id ← nodeReg (s.slot n) a
  let vi := (s.slot n).vi
  treeDone s n d (if nodeUsed s vi id then nodeCount s vi id else allOnes)

/-- CCREAD (R272). -/
def execCcread (d a : Nat) (s : State) := plain (ccread d a) s

/-- CCREAD.T (R274): the address is translated as a load; one of the window space or of another node is in no enrolled tile
(DEDUCED, log 102), and a tile is read whichever tenant has enrolled it (DEDUCED, log 102). -/
def ccreadT (d a : Nat) (s : State) (n : Nat) : Except Trap Res :=
  let ea := ((s.slot n).rs a).toNat
  if isRemote s ea ∨ winBase ≤ ea % 2 ^ 52 then treeDone s n d allOnes
  else match targetOf s n (s.slot n).mode ea 1 with
    | .error code => .error (accTrap code ea 1 8 0)
    | .ok (.remote _ _) => treeDone s n d allOnes
    | .ok (.cell c) => treeDone s n d (match tileAt s c with
        | some t => t.2.count
        | none => allOnes)

/-- CCREAD.T (R272). -/
def execCcreadT (d a : Nat) (s : State) := plain (ccreadT d a) s

/-- CCCMP (R274): natural comparison of COUNT with s[b]. -/
def cccmp (d a b : Nat) (s : State) (n : Nat) : Except Trap Res := do
  let id ← nodeReg (s.slot n) a
  let vi := (s.slot n).vi
  let c := nodeCount s vi id
  let x := ((s.slot n).rs b).toNat
  treeDone s n d (if !nodeUsed s vi id then 3 else if c = x then 0 else if x < c then 1 else 2)

/-- CCCMP (R272). -/
def execCccmp (d a b : Nat) (s : State) := plain (cccmp d a b) s

/-- TREE_OPERATION_RESULT (R273): the result is back. -/
def treeOperationResult (n : Nat) (s : State) : State :=
  match (s.slot n).st with
  | .interlocked (.tree d x) => retire (s.modSlot n fun y => y.ws d x) n false
  | _ => s

/-- TREE_OPERATION_RESULT (R273). -/
def execTreeOperationResult (slot : Nat) (s : State) := event (treeOperationResult slot) s

/-! ### The roll-up engine -/

/-- The first unit owed to tenant `vi` reaches its next node (R266). -/
def rollup (vi : Nat) (s : State) : State :=
  match (s.vif vi).owed with
  | [] => s
  | b :: rest =>
    match b.path with
    | [] => s.modVi vi fun v => { v with owed := rest }
    | id :: path =>
      setOwedRolls (setOwed (raiseNode s vi id) vi ({ b with path := path } :: rest)) vi [b]

/-- ROLLUP (R266). -/
def execRollup (vi : Nat) (s : State) := event (rollup vi) s

/-- The nodes that a unit must reach before it has reached node `id`. -/
def Bump.upTo (b : Bump) (id : Nat) : List Nat := if b.path.contains id then b.path.take (b.path.idxOf id + 1) else []

/-- The unit once it has reached node `id`. -/
def Bump.past (b : Bump) (id : Nat) : Bump := { b with path := b.path.drop (b.upTo id).length }

/-- Every unit owed that names node `id` has reached it (R269). -/
def rollTo (s : State) (vi id : Nat) : State :=
  let owed := (s.vif vi).owed
  let s1 := owed.foldl (fun t b => raiseNodes t vi (b.upTo id)) s
  setOwedRolls (setOwed s1 vi (owed.map (·.past id))) vi owed

/-- SETTLE_COMPLETE (R269): COUNT includes every bump owed to the node, and the remote agent offers the event; the settle of a task that is
off its core goes on (R275). -/
def settleComplete (n i : Nat) (s : State) : State :=
  match (taskSlot s n).settles[i]? with
  | none => s
  | some c =>
    let s1 := modTaskSlot (rollTo s (taskSlot s n).vi c.node) n fun y => { y with settles := y.settles.eraseIdx i }
    engineOffer s1 (taskAgent s 1 n) c.ev

/-- SETTLE_COMPLETE (R269). -/
def execSettleComplete (slot i : Nat) (s : State) := event (settleComplete slot i) s

end Sys2Proof.Machine
end

