-- ==== Sys2Proof/Machine/Events.lean ====
section
/-!
DEFINITION. Events: parties, domains, creation (10 R173 to R175; 02 R43; 13 R243), and the instructions of major 0x34
(10 R192 to R194).

Readings and choices of the model (log): DESIGN CHOICE 84; DEDUCED 18, 25, 26, 85.
-/

namespace Sys2Proof.Machine

open Sys2Proof

/-- EVENT. -/
def eventTrap : Trap := raise 0x0C
/-- TENANT. -/
def tenantTrap : Trap := raise 0x0D
/-- RING. -/
def ringTrap : Trap := raise 0x0A

/-! ### Parties -/

/-- Whether an entry of a creation block names the creating slot, by an id of all ones (R243). -/
def namesSelf (e : Nat) : Bool := e % 2 ^ 25 == 0x1FFFFFF

/-- The party that such an entry of KIND `k` stands for; none where R243 raises EVENT. -/
def ownParty (s : State) (n k : Nat) : Option Nat :=
  if k = 0 ∨ k = 8 ∨ k = 9 then some (selfParty s n)
  else if k ≤ 4 ∨ k = 10 then some (partyOf s k n)
  else if k = 5 ∧ isWorker n then some (5 * 2 ^ 28 + s.node * 2 ^ 13 + clusterOf n * 2 ^ 6)
  else none

/-- Whether an entry raises EVENT: the creating slot has no such agent (R243), or a field is out of its range (R173, R175). -/
def entryBad (s : State) (n e : Nat) : Bool :=
  let k := e / 2 ^ 28
  let id := e % 2 ^ 25
  decide (bits e 27 25 ≠ 0) || if namesSelf e then (ownParty s n k).isNone
  else decide (10 < k ∨ (k = 5 ∧ bits id 5 0 ≠ 0) ∨ (k = 8 ∧ (bits id 10 6 ≠ 0 ∨ 7 < bits id 5 2)) ∨
    (k = 9 ∧ (bits id 10 6 ≠ 0 ∨ 3 < bits id 5 2)))

/-- The party that an entry names, with physical places (R173), the creating slot written for an id of all ones (R243): TENANT for a place
outside the tenant's view. -/
def resolveParty (s : State) (n e : Nat) : Except Trap Nat :=
  let k := e / 2 ^ 28
  let id := e % 2 ^ 25
  let node := if bits id 24 13 = 0xFFF then s.node else bits id 24 13
  let at_ := fun (low : Nat) => k * 2 ^ 28 + node * 2 ^ 13 + low
  if namesSelf e then
    if isWorker n ∧ inMesh s (s.slot n).vi (clusterOf n) = false then .error tenantTrap else .ok ((ownParty s n k).getD 0)
  else if k = 7 ∨ node ≠ s.node then .ok (at_ (id % 2 ^ 13))
  else if k = 8 ∨ k = 9 then
    let d := viewBase s n / 32 + bits id 12 11
    if d ≤ (viewBase s n + viewSize s n - 1) / 32 ∧ d < 4 then .ok (at_ (d * 2 ^ 11 + bits id 5 0)) else .error tenantTrap
  else
    let v := bits id 12 6
    if v < viewSize s n ∧ viewBase s n + v < 128 then .ok (at_ ((viewBase s n + v) * 2 ^ 6 + bits id 5 0))
    else .error tenantTrap

/-- Whether a party is a slot party (R173). -/
def isSlotParty (p : Nat) : Bool := p / 2 ^ 28 == 0 || p / 2 ^ 28 == 8 || p / 2 ^ 28 == 9

/-- A number put into an ascending list. -/
def insertNat (x : Nat) (l : List Nat) : List Nat :=
  match l with
  | [] => [x]
  | y :: t => if x ≤ y then x :: y :: t else y :: insertNat x t

/-- A party list in party order. -/
def sortParties (l : List Nat) : List Nat := l.foldr insertNat []

/-- The member cores of a domain as slot `n` sees them (R41, R43): EVENT for a bad level or mask, TENANT for a member outside the
tenant's sub-mesh. -/
def domainCores (s : State) (n dom : Nat) : Except Trap (List Nat) :=
  let level := bits dom 63 62
  let mask := bits dom 31 0
  let size := viewSize s n
  let d := bits dom 38 37
  let picked := (List.range 32).filter fun i => bit mask i
  if level = 0 ∨ mask = 0 ∨ (level = 1 ∧ bits mask 31 16 ≠ 0) ∨ (level = 3 ∧ bits mask 31 4 ≠ 0) then .error eventTrap
  else
    let clusters :=
      if level = 1 then [d * 32 + bits dom 36 32]
      else if level = 2 then picked.map fun i => d * 32 + i
      else (List.range 128).filter fun v => decide (v < size) && picked.contains (v / 32)
    if clusters = [] then .error eventTrap
    else if clusters.any fun v => decide (size ≤ v ∨ 128 ≤ viewBase s n + v) then .error tenantTrap
    else .ok (clusters.flatMap fun v =>
      (if level = 1 then picked else List.range 16).map fun c => (viewBase s n + v) * 16 + c)

/-- Whether a slot holds a task that is not over. -/
def runsTask (x : Slot) : Bool :=
  match x.st with
  | .free => false
  | .reserved _ _ _ _ _ => false
  | .lingering => false
  | _ => true

/-- The party set of a domain (R43), and whether a party has already retired or faulted. -/
def domainParties (s : State) (n dom : Nat) : Except Trap (List Nat × Bool) :=
  match domainCores s n dom with
  | .error t => .error t
  | .ok cores =>
    match (s.slot n).task with
    | none => .ok ([], false)
    | some k =>
      let slots :=
        if k.kind = 1 then (teamSlots s n).filter fun m => cores.contains (coreOf m)
        else (cores.flatMap fun c => (List.range 4).map fun t => 4 * c + t).filter fun m =>
          runsTask (s.slot m) && match (s.slot m).task with
            | some j => j.vi == k.vi && j.kind == k.kind && j.id == k.id
            | none => false
      .ok (sortParties (slots.map fun m => partyOf s 0 m), slots.any fun m => decide ((s.slot m).st = .lingering))

/-! ### Creation -/

/-- The place of a party as R171 uses it: none for a party of another node. -/
def spans (s : State) (ps : List Nat) : Bool := ps.any fun p => bits p 24 13 != s.node

/-- The format codes of a creation block's word 0 that R174 and R175 refuse as reserved or misplaced. -/
def ecbBad (w0 w1 : Nat) : Bool :=
  let set := bits w0 63 62
  let plan := bits w0 60 58
  let efmt := bits w0 57 56
  let np := bits w0 55 49
  decide (1 < set ∨ 4 < plan ∨ bits w0 8 0 ≠ 0 ∨ (plan = 2 ∧ efmt = 3) ∨ (plan = 4 ∧ 1 < efmt) ∨
    (plan ≠ 2 ∧ plan ≠ 4 ∧ efmt ≠ 0) ∨ (set = 0 ∧ (np = 0 ∨ 64 < np)) ∨ (set = 1 ∧ np ≠ 0) ∨
    (plan ≠ 4 ∧ bits w0 12 9 ≠ 0) ∨ (set = 0 ∧ plan ≠ 4 ∧ w1 ≠ 0) ∨ (set = 1 ∧ bits w1 61 39 ≠ 0) ∨
    (plan = 4 ∧ set ≠ 0))

/-- The LEN rules of R175 for a plan and its number of slot parties. -/
def lenBad (plan efmt len ns : Nat) : Bool :=
  if plan = 1 then len % 8 != 0 || decide (65536 < len)
  else if plan = 2 then len % (if efmt = 1 then 2 else 4) != 0 || decide (65536 < len)
  else if plan = 3 then len % 8 != 0 || decide (65536 < len * ns)
  else len != 0

/-- The Tarn offset of a channel's ring block, checked (R175): RING outside the own cluster's Tarn, for a block that R146
refuses, for a MASK that is not the consumer's core, a DEPTH that differs, a slot too small. -/
def chanRing (s : State) (n addr consumer depth efmt : Nat) : Except Trap Nat :=
  match targetOf s n false addr 1 with
  | .ok (.cell c) =>
    let off := c % 2 ^ 22
    let w := mrbCfg s c
    if isTarn c = false ∨ isWorker n = false ∨ (c - 2 ^ 66) / 2 ^ 22 ≠ clusterOf n then .error ringTrap
    else if mrbBad s (clusterOf n) off || bits w 63 48 != 2 ^ bits consumer 5 2 || bits w 31 24 != depth ||
        (efmt == 0 && decide (bits w 40 32 < 2)) then .error ringTrap
    else .ok off
  | _ => .error ringTrap

/-- A creation block checked (R174, R175): the entry that it describes, without its name and its channel number. -/
def checkEcb (s : State) (n w0 w1 : Nat) (entries : List Nat) : Except Trap Ev := do
  let set := bits w0 63 62
  let plan := bits w0 60 58
  let efmt := bits w0 57 56
  let len := bits w0 41 25
  if ecbBad w0 w1 || (set == 0 && entries.any (entryBad s n)) then .error eventTrap
  else
    let (ps, dead) ← if set = 1 then domainParties s n w1 else (entries.mapM (resolveParty s n)).map fun l => (l, false)
    let ns := (ps.filter isSlotParty).length
    let k0 := ps.filter fun p => p / 2 ^ 28 == 0
    if (distinct ps).length ≠ ps.length ∨ ns ≤ bits w0 47 42 ∨ (plan = 1 ∧ ns < 2) ∨
        (plan = 4 ∧ k0.length ≠ 2) ∨ lenBad plan efmt len ns then .error eventTrap
    else
      let off ← if plan = 4 then chanRing s n w1 (k0.getD 1 0) (bits w0 12 9) efmt else .ok 0
      .ok { persist := bit w0 61, plan := plan, efmt := efmt, broken := dead,
            parties := if plan = 4 then k0 ++ sortParties (ps.filter fun p => p / 2 ^ 28 != 0) else sortParties ps,
            rooted := bit w0 48, root := bits w0 47 42, len := len, depth := bits w0 12 9 + 1, mrb := off,
            cl := clusterOf n, vi := (s.slot n).vi, launch := ((s.slot n).task.map (·.id)).getD 0 }

/-- The lowest free channel number of a cluster (R173, R175). -/
def freeChan (s : State) (p : Nat) : Option Nat := (List.range 64).find? fun c => !(s.cluster p).chans.contains c

/-- The home of a party set on this node (R171). -/
def homeOfParties (s : State) (ps : List Nat) : Nat := if spans s ps then 132 else homeOf (ps.map placeOf)

/-- A channel's entry with its number and its queue agent, third in the party list (R175, R179). -/
def withChan (s : State) (e : Ev) (c : Nat) : Ev × State :=
  let q := 6 * 2 ^ 28 + s.node * 2 ^ 13 + e.cl * 2 ^ 6 + c
  ({ e with chan := some c, parties := e.parties.take 2 ++ q :: e.parties.drop 2 },
   noteMrb (s.modCluster e.cl fun x => { x with chans := x.chans ++ [c] }) e.cl e.mrb)

/-- A live entry for a checked block; none when its home has no free index or its cluster no free channel number, and then
nothing is created (R175, R193, R202). -/
def createEvent (s : State) (e : Ev) : Option (EvRef × State) :=
  if e.plan = 4 then
    match freeChan s e.cl with
    | none => none
    | some c =>
      let (e1, s1) := withChan s e c
      newEv s1 (homeOfParties s e1.parties) e1
  else newEv s (homeOfParties s e.parties) e

/-- The bytes of a creation block or a launch record: in the own-TCM window, the own-Tarn window or device memory, PROT
elsewhere (R174, 22 R328). -/
def readBlock (s : State) (n ea size : Nat) : Except Trap (Nat × State) :=
  let lva := ea % 2 ^ 52
  let o := lva - winBase
  if winBase ≤ lva ∧ ¬(o < 0x10000 ∨ (0x1000000 ≤ o ∧ o < 0x1400000)) then .error (accTrap 0x05 ea 1 size 0)
  else match localCells s n (s.slot n).mode ea size 1 0 with
    | .error t => .error t
    | .ok cells =>
      if cells.any isHost then .error (accTrap 0x05 ea 1 size 0)
      else match loadCells s n ea 1 0 cells with
        | .error t => .error t
        | .ok (bs, s') => .ok (numOf bs, s')

/-- Party entries as the number that a creation request carries. -/
def packParties (l : List Nat) : Nat := l.foldr (fun p a => p % 2 ^ 32 + 2 ^ 32 * a) 0

/-- A request to make the event `e` at the package home of node `hn` (R171): it carries the resolved parties and the launch that makes
it, whose node remembers where it has made events (R172). -/
def askEvnew (s : State) (n d a ea w0 hn : Nat) (e : Ev) : Except Trap Res :=
  let s1 := modLaunch s e.vi e.launch fun l => { l with far := distinct (l.far ++ [hn]) }
  remoteAsk s1 n (.evnew d a) ea 1 0
    { packetOf s1 n 5 7 hn (ea % 2 ^ 52) 8 with
      sub := e.launch
      data := w0 - bits w0 55 49 * 2 ^ 49 + e.parties.length * 2 ^ 49
      cmp := packParties e.parties }

/-- EVNEW for a home on another node (R175): a channel takes its number in its own cluster, which adds its queue agent; without a free
number nothing is created. -/
def evnewFar (s : State) (n d a ea w0 hn : Nat) (e : Ev) : Except Trap Res :=
  if e.plan = 4 then
    match freeChan s e.cl with
    | none => writeDone s n d 0
    | some c =>
      let (e1, s1) := withChan s e c
      askEvnew (s1.modSlot n fun x => { x with newChan := some ⟨e.vi, e.launch, e.persist, 0, c⟩ }) n d a ea w0 hn e1
  else askEvnew s n d a ea w0 hn e

/-- The answer of another node's home to EVNEW: the name; the channel number of a channel that it could not make is free again. -/
def evnewAnswer (d nm : Nat) (s : State) (n : Nat) : Except Trap Res :=
  let s1 := match (s.slot n).newChan with
    | none => s
    | some f => (s.modCluster (clusterOf n) fun c =>
        if nm = 0 then { c with chans := c.chans.filter (· != f.chan) } else { c with far := c.far ++ [{ f with name := nm }] }).modSlot n
        fun x => { x with newChan := none }
  writeDone s1 n d (BitVec.ofNat 64 nm)

/-- The channel numbers of channels that are homed elsewhere and freed return to their clusters. -/
def freeFarChans (s : State) (p : FarChan → Bool) : State :=
  { s with clusters := s.clusters.map fun (e : Nat × Cluster) =>
      let gone := e.2.far.filter p
      (e.1, { e.2 with
        chans := e.2.chans.filter fun c => !(gone.any fun f => f.chan == c)
        far := e.2.far.filter fun f => !p f }) }

/-- EVNEW (R193): `go` says that the answer is back. A home on another node is asked as a remote read is. -/
def evnew (d a : Nat) (go : Bool) (s : State) (n : Nat) : Except Trap Res := do
  let ea := ((s.slot n).rs a).toNat
  if ea % 8 ≠ 0 then .error (accTrap 0x03 ea 1 8 0)
  else
    let (w, s1) ← readBlock s n ea 16
    let w0 := w % 2 ^ 64
    let np := bits w0 55 49
    let (es, s2) ← if bits w0 63 62 = 0 ∧ np ≤ 64 then readBlock s1 n (ea + 16) (4 * np) else .ok (0, s1)
    let e ← checkEcb s2 n w0 (w / 2 ^ 64) ((List.range np).map fun i => es / 2 ^ (32 * i) % 2 ^ 32)
    let hn := if bits w0 24 13 = 0xFFF then s.node else bits w0 24 13
    if spans s e.parties && hn != s.node then evnewFar s2 n d a ea w0 hn e
    else if s.late && !go then .ok (.wait s (.answer (.evnew d a)))
    else match createEvent s2 e with
      | none => writeDone s2 n d 0
      | some (r, s3) => writeDone s3 n d (BitVec.ofNat 64 (nameOf s3 n r))

/-- EVNEW (R192). -/
def execEvnew (d a : Nat) (s : State) := plain (released (evnew d a false)) s

/-- Whether a name stands for a live event of the slot's tenant; for one homed on another node that home's answer. -/
def validName (s : State) (n nm : Nat) : Bool :=
  let r := refOfName s n nm
  if r.away then bit (farEvent s nm) 0
  else match evOf s r with
    | some e => e.vi == (s.slot n).vi
    | none => false

/-- EVFREE (R193). -/
def execEvfree (a : Nat) (s : State) :=
  plain (fun t n =>
    let nm := ((t.slot n).rs a).toNat % 2 ^ 32
    let r := refOfName t n nm
    if nm / 2 ^ 30 = 0 ∨ validName t n nm = false then .error eventTrap
    else if r.away then
      let t1 := freeFarChans t fun f => f.name == nm
      .ok (.done (((sendFrom t1 n { packetOf t n 5 8 (r.home - 1000) r.idx 8 with data := nm }).map Prod.snd).getD t1))
    else .ok (.done (freeEv t r))) s

/-- Whether event slot `e` is in a pending offer of the slot: its standing offer, or one that its handler has yet to arm. A
suspended offer is not pending (R190). -/
def inOffer (x : Slot) (e : Nat) : Bool :=
  ([x.stand, x.armNext].filterMap id).any fun o => o.pos.any fun p => p.es == e

/-- An offer that is suspended remembers, by the name 0, that event slot `e` has been dropped or rebound (R190). -/
def Offer.lose (o : Offer) (e : Nat) : Offer := { o with pos := o.pos.map fun p => if p.es = e then { p with name := 0 } else p }

/-- What a new binding of event slot `e` takes with it: a Mace slot's delivered block is done (24 R351). -/
def rebind (s : State) (n e nm : Nat) : State :=
  let s1 := if e = 30 ∧ isMace n then blockDone s n else s
  s1.modSlot n fun x =>
    { x with evb := if nm = 0 then SMap.del x.evb e else x.evb.set e nm, susp := x.susp.map fun o => o.lose e }

/-- EVBIND (R193). -/
def execEvbind (e a : Nat) (s : State) :=
  plain (fun t n =>
    let x := t.slot n
    let nm := (x.rs a).toNat % 2 ^ 32
    if inOffer x e ∨ nm / 2 ^ 30 = 0 ∨ validName t n nm = false then .error eventTrap
    else .ok (.done (rebind t n e nm))) s

/-- EVDROP (R193). -/
def execEvdrop (e : Nat) (s : State) :=
  plain (fun t n => if inOffer (t.slot n) e then .error eventTrap else .ok (.done (rebind t n e 0))) s

/-- EVBREAK (R193): an event of another node's package is broken by a message. -/
def execEvbreak (e : Nat) (s : State) :=
  plain (fun t n =>
    let nm := (t.slot n).bound e
    if nm = 0 then .error eventTrap else .ok (.done (breakName t n nm))) s

/-- The EVSTAT word (R194). -/
def evstatWord (s : State) (n nm : Nat) : Word :=
  if nm = 0 then 0
  else match evOf s (refOfName s n nm) with
    | none => BitVec.ofNat 64 (3 * 2 ^ 62)
    | some e => BitVec.ofNat 64 ((if e.broken then 2 else 1) * 2 ^ 62 + nm / 2 ^ 30 * 2 ^ 60 + e.plan * 2 ^ 57 +
        e.parties.length * 2 ^ 32 + e.occ % 2 ^ 32)

/-- EVSTAT (R193, R194). -/
def evstat (d e : Nat) (go : Bool) (s : State) (n : Nat) : Except Trap Res :=
  let nm := (s.slot n).bound e
  let r := refOfName s n nm
  if nm ≠ 0 ∧ r.away then
    remoteAsk s n (.evstat d e) 0 8 0 { packetOf s n 5 10 (r.home - 1000) r.idx 8 with data := nm }
  else if s.late && !go then .ok (.wait s (.answer (.evstat d e)))
  else writeDone s n d (evstatWord s n nm)

/-- EVSTAT (R192). -/
def execEvstat (d e : Nat) (s : State) := plain (evstat d e false) s

end Sys2Proof.Machine
end

