-- ==== Sys2Proof/Machine/Offers.lean ====
section
/-!
DEFINITION. The instructions of major 0x35 (10 R195 to R201) and of major 0x36 (14 R257, R258), the items of channels
(10 R179), the folded GET and PUT (14 R250), and the entry of a standing offer's handler (10 R190).

Readings and choices of the model (log): DESIGN CHOICE 104; DEDUCED 16, 18, 25, 38, 62, 164.
-/

namespace Sys2Proof.Machine

open Sys2Proof

/-! ### Items of channels -/

/-- Bytes of an item (R179). -/
def itemSize (tile : Bool) : Nat := if tile then 8 else 288

/-- The hand-over set of a slot as one number (R179). -/
def itemOf (x : Slot) (tile : Bool) : Nat :=
  if tile then (x.rs 48).toNat
  else (x.rs 48).toNat + (x.rs 49).toNat * 2 ^ 64 + (x.rs 50).toNat * 2 ^ 128 + (x.rs 51).toNat * 2 ^ 192 +
    (x.rv 28).toNat * 2 ^ 256 + (x.rv 29).toNat * 2 ^ 1280

/-- The hand-over set loaded from an item. -/
def loadItem (x : Slot) (tile : Bool) (w : Nat) : Slot :=
  if tile then x.ws 48 (BitVec.ofNat 64 w)
  else ((((((x.ws 48 (BitVec.ofNat 64 w)).ws 49 (BitVec.ofNat 64 (w / 2 ^ 64))).ws 50 (BitVec.ofNat 64 (w / 2 ^ 128))).ws 51
    (BitVec.ofNat 64 (w / 2 ^ 192))).wv 28 (BitVec.ofNat 1024 (w / 2 ^ 256))).wv 29 (BitVec.ofNat 1024 (w / 2 ^ 1280)))

/-- Whether a channel carries tile items. -/
def Ev.tile (e : Ev) : Bool := e.efmt == 1

/-- The ring block's cell of a channel. -/
def Ev.ringCell (e : Ev) : Nat := tarnBase e.cl + e.mrb

/-- An item written as entry P of a ring, and P advanced (R147, R179). -/
def pushItem (s : State) (p off size w : Nat) : State :=
  let b := tarnBase p + off
  let i := mrbProd s b
  let c := mrbEntry s p b i
  (writeCells s ((List.range size).map fun j => c + j) (bytesOf size w)).put (b + 8) 4 (inc32 i)

/-- A push of slot `n`: its accesses to the ring block and to the entry are subject to the guard map (R144). -/
def guardedPush (s : State) (n kind : Nat) (pc : Option Nat) (p off size w : Nat) : State :=
  let b := tarnBase p + off
  pushItem (ringGuard (ringGuard s n kind pc p b 16) n kind pc p (mrbEntry s p b (mrbProd s b)) size) p off size w

/-- Slot `n` puts its hand-over set into a channel's ring. -/
def putItem (s : State) (e : Ev) (n : Nat) : State :=
  guardedPush s n 2 none e.cl e.mrb (itemSize e.tile) (itemOf (s.slot n) e.tile)

/-- Slot `n` takes the oldest entry of a channel's ring, and its core's release count passes it (R147, R179). -/
def getItem (s : State) (e : Ev) (n : Nat) : State :=
  let b := e.ringCell
  let i := mrbFree s b
  let c := mrbEntry s e.cl b i
  let size := itemSize e.tile
  let core := coreOf n % 16
  let rel := b + 64 + 4 * core
  let s1 := ringGuard (ringGuard (ringGuard s n 1 none e.cl b 16) n 1 none e.cl c size) n 2 none e.cl rel 4
  relCount ((s1.modSlot n fun x => loadItem x e.tile (s.seen c size)).put rel 4 (inc32 i)) e.cl e.mrb core (inc32 i)

/-! ### Chains -/

/-- The chain of which slot `n` runs a stage. -/
def chainOf (s : State) (n : Nat) : Option Chain := (s.slot n).task.bind (chainOfTask s)

/-- The channel of a chain that an event is. -/
def channelOf (c : Chain) (r : EvRef) : Option Nat := c.evs.findIdx? fun e => e == r

/-- Whether a stage of the chain lives. -/
def stageLive (c : Chain) (i : Nat) : Bool := c.live.contains i

/-- The park code of a stage (R248). -/
def parkOf (s : State) (c : Chain) (i : Nat) : Nat :=
  match stageSlot s c i with
  | some m => ((s.slot m).task.map (·.park)).getD 0
  | none => 0

/-- A folded GET or PUT completes with a status (R251). -/
def foldedDone (s : State) (n d status : Nat) : State :=
  retire (s.modSlot n fun x =>
    { (x.ws d (BitVec.ofNat 64 (resultWord 0 status))) with last := 0, lstat := status }) n false

/-- An item handed over to the stage on slot `m`: into its registers, or, while its resident handler has still to restore them, into the
context that it keeps (R250, R255). -/
def handOver (s : State) (m : Nat) (tile : Bool) (w : Nat) : State :=
  let s1 := if (s.slot m).inh then
      { s with pre := s.pre.map fun e => if !e.out && e.home == m then { e with slot := loadItem e.slot tile w } else e }
    else s
  s1.modSlot m fun y => loadItem y tile w

/-- FoldedPut (R250): slot `n` is stage `ch` and puts on channel `ch`. -/
def foldedPut (s : State) (c : Chain) (e : Ev) (ch d n : Nat) : State :=
  let k := chanCount s e
  if !stageLive c (ch + 1) || e.broken then foldedDone s n d 1
  else if k = 0 ∧ parkOf s c (ch + 1) = 3 then
    let s1 := match stageSlot s c (ch + 1) with
      | some m => handOver s m e.tile (itemOf (s.slot n) e.tile)
      | none => s
    let s2 := modChain s1 c.vi c.id fun q => { q with held := q.held ++ [ch] }
    passTo (setPark (foldedDone s2 n d 0) n 5) c (ch + 1)
  else if k < mrbDepth s e.ringCell then passTo (setPark (foldedDone (putItem s e n) n d 0) n 5) c (ch + 1)
  else passTo (setPark s n 4) c (ch + 1)

/-- FoldedGet (R250): slot `n` is stage `ch + 1` and gets on channel `ch`. -/
def foldedGet (s : State) (c : Chain) (e : Ev) (ch d n : Nat) : State :=
  if 0 < chanCount s e then foldedDone (getItem s e n) n d 0
  else if c.held.contains ch then
    foldedDone (modChain s c.vi c.id fun q => { q with held := q.held.filter (· != ch) }) n d 0
  else if !stageLive c ch || e.broken then foldedDone s n d 1
  else passTo (setPark s n 3) c ch

/-- A folded GET or PUT of slot `n` (R250, R253): while a switch is pending the active stage parks at it, unless the chain runs
on after a failed attempt. -/
def foldedOp (s : State) (c : Chain) (e : Ev) (ch d n : Nat) (put : Bool) : State :=
  if c.pend.isSome && c.openWin.isNone then setPark s n (if put then 4 else 3)
  else
    let s1 := modChain s c.vi c.id fun q => { q with openWin := none }
    if put then foldedPut s1 c e ch d n else foldedGet s1 c e ch d n

/-! ### Offers -/

/-- Whether an address lies in the own-TCM or own-Tarn window. -/
def inOwn (ea : Nat) : Bool :=
  let o := ea % 2 ^ 52 - winBase
  decide (winBase ≤ ea % 2 ^ 52) && (decide (o < 0x10000) || (decide (0x1000000 ≤ o) && decide (o < 0x1400000)))

/-- The descriptor at `a` (R176): role and buffer; EVENT for a reserved role or bit, or a buffer out of place. -/
def readDesc (s : State) (n a : Nat) : Except Trap (Nat × Nat × State) :=
  if a % 8 ≠ 0 then .error (accTrap 0x03 a 1 8 0)
  else match readLocal s n a 8 1 0 with
    | .error t => .error t
    | .ok (w, s1) =>
      let role := bits w 63 61
      if 4 < role ∨ bits w 60 52 ≠ 0 ∨ w % 8 ≠ 0 ∨ inOwn (w % 2 ^ 52) = false then .error eventTrap
      else .ok (role, w % 2 ^ 52, s1)

/-- The side of a channel that a descriptor's role offers (R176, R200): EVENT where the slot is not the party of that side. -/
def roleSide (role : Nat) (get put : Bool) : Except Trap Nat :=
  if role = 3 ∧ get = true then .ok 1 else if role = 4 ∧ put = true then .ok 2 else .error eventTrap

/-- The descriptor of position `i` in an offer of an event with this plan (R176, R198); `get` and `put` say of which side of a channel
the slot is the party, `folded` that R259 keeps the channel from an OFFER. -/
def describe (s : State) (n i e nm descs plan : Nat) (r : EvRef) (get put folded : Bool) : Except Trap (OPos × State) := do
  if plan = 0 then .ok (⟨i, e, nm, r, 0, 0, 0⟩, s)
  else
    let (role, buf, s1) ← readDesc s n ((descs + 8 * i) % 2 ^ 64)
    if plan ≠ 4 then .ok (⟨i, e, nm, r, 0, role, buf⟩, s1)
    else if folded then .error eventTrap
    else (roleSide role get put).map fun side => (⟨i, e, nm, r, side, role, buf⟩, s1)

/-- Position `i` of an offer names event slot `e` (R198): EVENT when the slot is unbound, when its live event lacks the slot as a
party, or names a channel otherwise than R200 and R259 allow. What another node's home knows is its answer. -/
def position (s : State) (n i e descs : Nat) : Except Trap (OPos × State) :=
  let nm := (s.slot n).bound e
  let r := refOfName s n nm
  let self := selfParty s n
  let far := farEvent s nm
  if nm = 0 then .error eventTrap
  else if r.away then
    (if farStranger s nm then .error eventTrap
     else describe s n i e nm descs (if bit far 0 then bits far 4 2 % 5 else 0) r (bit far 5) (bit far 5) false)
  else match evOf s r with
    | none => .ok (⟨i, e, nm, r, 0, 0, 0⟩, s)
    | some v =>
      if !v.parties.contains self then .error eventTrap
      else describe s n i e nm descs v.plan r (v.parties[1]? == some self) (v.parties[0]? == some self)
        ((chainOf s n).any fun c => !c.fixed && (channelOf c r).isSome)

/-- The valid positions of a position list (R196), each checked in turn (R198): its event slot named once, its name named once, not in
the standing offer; then its event and its descriptor. -/
def positions (s : State) (n list descs : Nat) : Except Trap (List OPos × State) :=
  let V := (List.range 8).filter fun i => bit list (8 * i + 7)
  let slotAt := fun (i : Nat) => bits list (8 * i + 4) (8 * i)
  let x := s.slot n
  if V = [] ∨ (List.range 8).any (fun i => bits list (8 * i + 6) (8 * i + 5) != 0) then .error eventTrap
  else
    V.foldlM (fun (acc : List OPos × State) i =>
      let e := slotAt i
      if (V.any fun j => j != i && (slotAt j == e || x.bound (slotAt j) == x.bound e)) || inOffer x e then .error eventTrap
      else (position acc.2 n i e descs).map fun q => (acc.1 ++ [q.1], q.2)) ([], s)

/-- A new offer of slot `n`, with its number. -/
def newOffer (s : State) (n cause d : Nat) (pos : List OPos) (left : Option Nat) (handler : Nat) : Offer × State :=
  ({ id := s.nextOff, cause := cause, d := d, pos := pos, left := left, from_ := slotCycles s n, handler := handler, claim := none,
     next := none, waiters := [], since := s.time }, { s with nextOff := s.nextOff + 1 })

/-- The slot blocks in an offer, whose registrations leave for their homes (R198). -/
def blockOn (s : State) (n : Nat) (o : Offer) : State :=
  sendOffer (s.modSlot n fun x => { x with offer := some o, st := .offering, again := none }) n o

/-- OFFER and OFFERT (R198): `limit` is none for OFFER; a limit of 0 expires at issue (R188). An OFFERT uses up what a pre-emption
has put by of its limit. -/
def offerOp (cause d a b : Nat) (limit : Option Nat) (s : State) (n : Nat) : Except Trap Res := do
  deliverGuard s n
  let x := s.slot n
  let (ps, s1) ← positions s n (x.rs a).toNat (x.rs b).toNat
  let spent := fun (y : Slot) => if cause = 1 then { y with limit := none } else y
  if limit = some 0 then
    .ok (.done (s1.modSlot n fun y =>
      spent { (y.ws d (BitVec.ofNat 64 (resultWord 0 2))) with last := 0, lstat := 2 }))
  else
    let (o, s2) := newOffer s1 n cause d ps limit 0
    .ok (.keep ((blockOn s2 n o).modSlot n spent))

/-- OFFER (R195). -/
def execOffer (d a b : Nat) (s : State) := plain (released (offerOp 0 d a b none)) s

/-- The limit of an OFFERT (R195): bits 31–0 of s[d], or what remained of it when a pre-emption withdrew this offer (20 R306). -/
def offertLimit (x : Slot) (d : Nat) : Nat :=
  match x.limit with
  | some (pc, l) => if pc = x.pc then l else (x.rs d).toNat % 2 ^ 32
  | none => (x.rs d).toNat % 2 ^ 32

/-- OFFERT (R195). -/
def execOffert (d a b : Nat) (s : State) :=
  plain (released fun t n => offerOp 1 d a b (some (offertLimit (t.slot n) d)) t n) s

/-- OFFERS (R199): a standing offer; inside a handler it is armed only at OFCAN.RET. -/
def offersOp (d a b : Nat) (s : State) (n : Nat) : Except Trap Res := do
  deliverGuard s n
  let x := s.slot n
  if x.stand.isSome ∨ x.ready.isSome ∨ x.armNext.isSome then .error eventTrap
  else
    let (ps, s1) ← positions s n (x.rs a).toNat (x.rs b).toNat
    let (o, s2) := newOffer s1 n 2 0 ps none ((x.rs d).toNat % 2 ^ 52)
    if x.soh then .ok (.done (s2.modSlot n fun y => { y with armNext := some o }))
    else .ok (.done (sendOffer (s2.modSlot n fun y => { y with stand := some o }) n o))

/-- OFFERS (R199). -/
def execOffers (d a b : Nat) (s : State) := plain (released (offersOp d a b)) s

/-- OFCAN (R199): a commit that has reached the unit stands; one that is still under way then finds no offer (R191). -/
def execOfcan (d : Nat) (s : State) :=
  plain (fun t n => do
    deliverGuard t n
    match (t.slot n).stand with
    | none => writeDone t n d 0
    | some o => .ok (.done ((withdrawOffer t n o).modSlot n fun y => { (y.ws d 1) with lstat := 3 }))) s

/-- s52 to s59 exchanged with the shadow bank (R190). -/
def swapShadow (x : Slot) : Slot :=
  (List.range 8).foldl (fun y j =>
    let r := 52 + j
    { (y.ws r (x.shadow.get r 0)) with shadow := y.shadow.set r (x.rs r) }) x

/-- Whether the bindings of a suspended offer still stand (R190). -/
def bindingsStand (o : Offer) : Bool := o.pos.all fun p => p.es = 32 || p.name != 0

/-- OFCAN.RET (R190): back to the main bank and to s53; an OFFERS of the handler is armed; a suspended offer goes on, or resolves
CANCELLED when one of its bindings has changed. -/
def execOfcanRet (s : State) :=
  plain (released fun t n => do
    deliverGuard t n
    let x := t.slot n
    if x.soh = false then .error eventTrap
    else
      let pc := bits (x.rs 53).toNat 51 2 * 4
      let t1 := retireTo (t.modSlot n fun y =>
        { swapShadow y with soh := false, stand := y.armNext, armNext := none, offer := y.susp, susp := none }) n pc
      let t2 := match x.armNext with
        | some o => sendOffer t1 n o
        | none => t1
      match x.susp with
      | none => .ok (.keep t2)
      | some o =>
        if bindingsStand o then
          let t3 := t2.modSlot n fun y =>
            { y with st := .offering, offer := some { o with waiters := [], since := t.time } }
          .ok (.keep (o.waiters.foldl (fun u c => send u ⟨n, homeSrc c.ev.home, .free c.ev.idx c.side⟩) t3))
        else .ok (.keep (completeBlocking (sendWithdraw t2 n o) n o.d 0 3))) s

/-- GET and PUT (R200; 14 R250, R259): the one event slot must be bound to a channel whose consumer, or producer, the slot is; a
stale name passes and resolves BROKEN; for a name of another node its home answers. An event slot named in a pending standing offer raises
EVENT (DEDUCED, log 18). -/
def chanOp (put : Bool) (d e : Nat) (s : State) (n : Nat) : Except Trap Res := do
  deliverGuard s n
  let x := s.slot n
  let nm := x.bound e
  let r := refOfName s n nm
  let side := if put then 2 else 1
  if nm = 0 ∨ inOffer x e then .error eventTrap
  else
    let block :=
      let (o, s1) := newOffer s n (if put then 4 else 3) d [⟨0, e, nm, r, side, if put then 4 else 3, 0⟩] none 0
      Res.keep (blockOn s1 n o)
    let far := farEvent s nm
    match evOf s r with
    | none =>
      if r.away && bit far 0 && !(bit far 1 && bits far 4 2 % 5 == 4 && bit far 5) then .error eventTrap else .ok block
    | some v =>
      if v.plan ≠ 4 ∨ v.parties[if put then 0 else 1]? ≠ some (selfParty s n) then .error eventTrap
      else match chainOf s n with
        | none => .ok block
        | some c =>
          match channelOf c r with
          | some ch => if c.folded then .ok (.keep (foldedOp s c v ch d n put)) else .ok block
          | none => .ok block

/-- GET (R200). -/
def execGet (d e : Nat) (s : State) := plain (released (chanOp false d e)) s

/-- PUT (R200). -/
def execPut (d e : Nat) (s : State) := plain (released (chanOp true d e)) s

/-- The domain barrier that slot `n` means with a DOMAIN value: its launch, its instance, the value (R201). -/
def syncKey (x : Slot) (dom : Nat) : Nat × Nat × Nat :=
  match x.task with
  | some k => (k.vi * 2 ^ 32 + k.id, if k.kind = 1 then k.inst + 1 else 0, dom)
  | none => (0, 0, dom)

/-- The pending instance of a barrier that has `self` as a party, or the first SYNC of it that is still under way: its home and its
party set (R201). -/
def pendingBarrier (s : State) (key : Nat × Nat × Nat) (self : Nat) : Option (Nat × List Nat) :=
  (s.homes.findSome? fun (e : Nat × Resolver) =>
    (e.2.evs.find? fun v => v.2.live && v.2.barrier == some key && v.2.parties.contains self).map fun v => (e.1, v.2.parties)).or
  (s.msgs.findSome? fun m => match m.body with
    | .barrier _ _ k ps => if k == key && ps.contains self then some (m.dst - homeSrc 0, ps) else none
    | _ => none)

/-- The home and the party set of the barrier that slot `n` joins with a DOMAIN value: those of the pending instance, or those that its
SYNC fixes now (R43, R201). -/
def syncParties (s : State) (n dom : Nat) : Except Trap (Nat × List Nat) :=
  match pendingBarrier s (syncKey (s.slot n) dom) (partyOf s 0 n) with
  | some q => .ok q
  | none => (domainParties s n dom).map fun q => (homeOfParties s q.1, q.1)

/-- SYNC (R201): the domain barrier of the launch, or of the instance, and the DOMAIN value. Its party set is fixed by the first SYNC;
the home joins the slot to the pending instance or creates one when the message arrives. -/
def syncOp (d : Nat) (s : State) (n : Nat) : Except Trap Res := do
  deliverGuard s n
  let x := s.slot n
  let dom := x.domain.toNat
  let cores ← domainCores s n dom
  let (h, ps) ← syncParties s n dom
  if cores.contains (coreOf n) = false ∨ ps.contains (partyOf s 0 n) = false then .error eventTrap
  else
    let (o, s1) := newOffer s n 5 d [⟨0, 32, 0, ⟨h, 0, 16⟩, 0, 0, dom⟩] none 0
    let s2 := s1.modSlot n fun y => { y with offer := some o, st := .offering, again := none }
    .ok (.keep (send s2 ⟨n, homeSrc h, .barrier n o.id (syncKey x dom) ps⟩))

/-- SYNC (R195). -/
def execSync (d : Nat) (s : State) := plain (released (syncOp d)) s

/-- An offer leaves for its homes again after a pre-emption (R189): a SYNC joins a barrier anew (R201). -/
def resendOffer (s : State) (n : Nat) (o : Offer) : State :=
  if o.cause = 5 then
    let dom := (o.pos.map (·.buf)).headD 0
    match syncParties s n dom with
    | .error _ => s
    | .ok (h, ps) =>
      let s1 := modOffer s n o.id fun q => { q with pos := q.pos.map fun p => { p with ev := ⟨h, 0, 16⟩ } }
      send s1 ⟨n, homeSrc h, .barrier n o.id (syncKey (s.slot n) dom) ps⟩
  else sendOffer s n o

/-! ### Handler entry -/

/-- Whether the handler of slot `n` may be entered now (R190). It is deferred besides while the commit of the blocking offer is on its way or
its withdrawal pending (DEDUCED, log 164). -/
def handlerDue (s : State) (n : Nat) : Bool :=
  let x := s.slot n
  x.ready.isSome && x.frame.isNone && x.pfx.isNone && !x.soh && x.dorm.isNone && !haltedCore s (coreOf n) && stageActive s x &&
    (x.st == .running || x.st == .offering) &&
    !(x.offer.any fun o => commitSent s n o.id || o.wdr.isSome)

/-- HANDLER_ENTRY (R190): a recorded GUARD report is raised instead (08 R144); a blocking offer is suspended; a stage that is parked runs
its handler, and then comes to its parking place again (14 R248). -/
def handlerEntry (n : Nat) (s : State) : State :=
  let x := s.slot n
  if !handlerDue s n then s
  else match deliverGuard s n with
    | .error t => takeTrap s n t
    | .ok _ => setPark (s.setSlot n
        { ((swapShadow x).ws 52 (BitVec.ofNat 64 (x.ready.getD 0))).ws 53 (BitVec.ofNat 64 x.pc) with
          soh := true, ready := none, susp := x.offer, offer := none, st := .running, pc := x.readyPc, again := none }) n 0

/-- HANDLER_ENTRY (R190). -/
def execHandlerEntry (slot : Nat) (s : State) := event (handlerEntry slot) s

/-- The withdrawal of an offer is issued: it stays until each home has taken the withdrawal, and an occurrence that a home commits
before then stands (R183, R188, R189). -/
def startWithdraw (s : State) (n : Nat) (o : Offer) : State :=
  if o.wdr.isSome then s
  else modOffer (sendWithdraw s n o) n o.id fun q => { q with wdr := some q.homes.length }

/-- OFFERT_EXPIRY (R188): the limit has run down and the offer is withdrawn; once every home has taken the withdrawal and none has
committed, TIMEOUT. -/
def offertExpiry (n : Nat) (s : State) : State :=
  match (s.slot n).offer with
  | none => s
  | some o =>
    if o.left ≠ some 0 ∨ commitSent s n o.id then s
    else if o.wdr = some 0 then completeBlocking s n o.d 0 2
    else startWithdraw s n o

/-- OFFERT_EXPIRY (R188). -/
def execOffertExpiry (slot : Nat) (s : State) := event (offertExpiry slot) s

/-! ### Chain instructions -/

/-- The pending state of a chain is cleared: stages parked only because of it go on (R252, R253), an EQP by being executed again. -/
def clearPending (s : State) (c : Chain) : State :=
  let s1 := modChain s c.vi c.id fun q => { q with pend := none, openWin := none }
  (List.range (c.nstage + 1)).foldl (fun t i =>
    match stageSlot t c i with
    | none => t
    | some m => if c.folded && i != c.active then t else setPark t m 0) s1

/-- A request for a form (R252, R257): the code that a hint returns, and the state. -/
def requestForm (s : State) (c : Chain) (fold : Bool) : Nat × State :=
  if c.fixed then (2, s)
  else if c.folded == fold then (1, clearPending s c)
  else if !fold && c.budget < c.nstage + 1 then (3, s)
  else (0, modChain s c.vi c.id fun q => { q with pend := some fold })

/-- A hint (R257). -/
def hintOp (fold : Bool) (d : Nat) (s : State) (n : Nat) : Except Trap Res :=
  match chainOf s n with
  | none => writeDone s n d 2
  | some c =>
    let (k, s1) := requestForm s c fold
    writeDone s1 n d (BitVec.ofNat 64 k)

/-- CHFOLD (R257). -/
def execChfold (d : Nat) (s : State) := plain (hintOp true d) s

/-- CHSPREAD (R257). -/
def execChspread (d : Nat) (s : State) := plain (hintOp false d) s

/-- EQP (R253, R257): with a switch pending the stage is parked here. -/
def execEqp (s : State) :=
  plain (fun t n =>
    match chainOf t n with
    | some c => if c.pend.isSome && !c.fixed then .ok (.keep (setPark t n 2)) else .ok (.done t)
    | none => .ok (.done t)) s

/-- The CHSTAT word (R258). -/
def chstatWord (s : State) (n : Nat) : Word :=
  match chainOf s n, (s.slot n).task with
  | some c, some k => BitVec.ofNat 64
      ((if c.folded then 1 else 0) * 2 ^ 62 + (if c.pend.isSome then 2 ^ 61 else 0) + (if c.fixed then 0 else 2 ^ 60) +
        2 ^ 59 + c.nstage * 2 ^ 56 + k.part * 2 ^ 48 + c.held.foldl (fun a h => a + 2 ^ (40 + h)) 0 + c.switches % 2 ^ 32)
  | _, _ => 0

/-- CHSTAT (R257). -/
def execChstat (d : Nat) (s : State) := plain (fun t n => writeDone t n d (chstatWord t n)) s

end Sys2Proof.Machine
end

