-- ==== Sys2Proof/Machine/VecInt.lean ====
section
/-!
DEFINITION. Integer vector arithmetic, compares and selects, lane moves, predicate operations (06 R114, R117 to R120, R131).
-/

namespace Sys2Proof.Machine

open Sys2Proof

/-- The instruction writes vector register `d` and completes. -/
def vecDone (s : State) (n d : Nat) (v : Vec) : Except Trap Res := .ok (.done (s.modSlot n fun x => x.wv d v))

/-- The instruction writes vector register `d`, raises flags and completes. -/
def vecFlagsDone (s : State) (n d : Nat) (r : Vec × Nat) : Except Trap Res :=
  .ok (.done (s.modSlot n fun x => (x.wv d r.1).raiseFlags r.2))

/-- A VINT member with two sources (R114): sources are read before the destination is written. -/
def vint2 (f : Nat → Nat → Nat → Nat) (d a b k w : Nat) (s : State) (n : Nat) : Except Trap Res :=
  let x := s.slot n
  let u := x.rv a
  let v := x.rv b
  let e := ewBits w
  vecDone s n d (mergeElems e (x.rk k) (x.rv d) fun j => f e (elem e u j) (elem e v j))

/-- A VINT member with one source (R114). -/
def vint1 (f : Nat → Nat → Nat) (d a k w : Nat) (s : State) (n : Nat) : Except Trap Res :=
  let x := s.slot n
  let u := x.rv a
  let e := ewBits w
  vecDone s n d (mergeElems e (x.rk k) (x.rv d) fun j => f e (elem e u j))

/-- Signed minimum or maximum of two elements of width `w`. -/
def signedPick (gt : Bool) (w a b : Nat) : Nat := if (decide (sx w a ≤ sx w b)) != gt then a else b

/-- Natural minimum or maximum. -/
def naturalPick (gt : Bool) (a b : Nat) : Nat := if (decide (a ≤ b)) != gt then a else b

/-- VADD (R114). -/
def execVadd (d a b k w : Nat) (s : State) := plain (vint2 (fun _w x y => x + y) d a b k w) s

/-- VSUB (R114). -/
def execVsub (d a b k w : Nat) (s : State) := plain (vint2 (fun w x y => x + 2 ^ w - y) d a b k w) s

/-- VMUL (R114). -/
def execVmul (d a b k w : Nat) (s : State) := plain (vint2 (fun _w x y => x * y) d a b k w) s

/-- VMULH (R114). -/
def execVmulh (d a b k w : Nat) (s : State) := plain (vint2 (fun w x y => wrap w (sx w x * sx w y / 2 ^ w)) d a b k w) s

/-- VMIN (R114). -/
def execVmin (d a b k w : Nat) (s : State) := plain (vint2 (fun w x y => signedPick false w x y) d a b k w) s

/-- VMAX (R114). -/
def execVmax (d a b k w : Nat) (s : State) := plain (vint2 (fun w x y => signedPick true w x y) d a b k w) s

/-- VMINN (R114). -/
def execVminn (d a b k w : Nat) (s : State) := plain (vint2 (fun _w x y => naturalPick false x y) d a b k w) s

/-- VMAXN (R114). -/
def execVmaxn (d a b k w : Nat) (s : State) := plain (vint2 (fun _w x y => naturalPick true x y) d a b k w) s

/-- VAND (R114). -/
def execVand (d a b k w : Nat) (s : State) := plain (vint2 (fun _w x y => x &&& y) d a b k w) s

/-- VOR (R114). -/
def execVor (d a b k w : Nat) (s : State) := plain (vint2 (fun _w x y => x ||| y) d a b k w) s

/-- VXOR (R114). -/
def execVxor (d a b k w : Nat) (s : State) := plain (vint2 (fun _w x y => x ^^^ y) d a b k w) s

/-- VANDN (R114). -/
def execVandn (d a b k w : Nat) (s : State) := plain (vint2 (fun w x y => x &&& (2 ^ w - 1 - y)) d a b k w) s

/-- VSHL (R114). -/
def execVshl (d a b k w : Nat) (s : State) := plain (vint2 (fun w x y => x * 2 ^ (y % w)) d a b k w) s

/-- VSHR (R114). -/
def execVshr (d a b k w : Nat) (s : State) := plain (vint2 (fun w x y => x / 2 ^ (y % w)) d a b k w) s

/-- VSAR (R114). -/
def execVsar (d a b k w : Nat) (s : State) := plain (vint2 (fun w x y => wrap w (sx w x / 2 ^ (y % w))) d a b k w) s

/-- VABS (R114). -/
def execVabs (d a k w : Nat) (s : State) := plain (vint1 (fun w x => (sx w x).natAbs) d a k w) s

/-- VNEG (R114). -/
def execVneg (d a k w : Nat) (s : State) := plain (vint1 (fun w x => 2 ^ w - x) d a k w) s

/-- VPOPC (R114). -/
def execVpopc (d a k w : Nat) (s : State) := plain (vint1 (fun _w x => ((List.range 64).filter fun i => bit x i).length) d a k w) s

/-! ### Compare and select -/

/-- Every byte lane of element `j` of width `w` gets `b j`, for active elements; the other bits of kd stay (R117). -/
def mergePred (w : Nat) (k old : Pred) (b : Nat → Bool) : Pred :=
  BitVec.ofNat 128 (((List.range 128).map fun i =>
    let j := i * 8 / w
    if (if active k w j then b j else bit old.toNat i) then 2 ^ i else 0).foldl (· + ·) 0)

/-- The conditions of VCMPI (R117). -/
def intCond (c w a b : Nat) : Bool :=
  match c with
  | 0 => a == b
  | 1 => a != b
  | 2 => decide (sx w a < sx w b)
  | 3 => decide (sx w a ≤ sx w b)
  | 4 => decide (a < b)
  | 5 => decide (a ≤ b)
  | 6 => decide (sx w b < sx w a)
  | _ => decide (sx w b ≤ sx w a)

/-- The conditions of VCMPF and the flag they raise (R117): NV for a signalling NaN, and for any NaN under a signalling
condition. -/
def floatCond (c : Nat) (a b : FVal) : Bool × Nat :=
  let un := a.isNan || b.isNan
  let sigl := 2 ≤ c && c ≤ 5
  let fl := if sigl && un then flNV else sigFlag [a, b]
  let r := match c with
    | 0 => eqV a b
    | 1 => !eqV a b
    | 2 => ltV a b
    | 3 => ltV a b || eqV a b
    | 4 => ltV b a
    | 5 => ltV b a || eqV a b
    | 6 => un
    | _ => !un
  (r, fl)

/-- VCMPI (R117). -/
def execVcmpi (d a b k w c : Nat) (s : State) :=
  plain (fun t n =>
    let x := t.slot n
    let e := ewBits w
    let p := mergePred e (x.rk k) (x.rk d) fun j => intCond c e (elem e (x.rv a) j) (elem e (x.rv b) j)
    .ok (.done (t.setSlot n (x.wk d p)))) s

/-- VCMPF (R117): a result for k0 is discarded, its flags are raised. -/
def execVcmpf (d a b k c : Nat) (s : State) :=
  formatted (fun t n => do
    let x := t.slot n
    let g ← fmtsNoSr x
    let f ← floatFr g.fr
    let r := fun j => floatCond c (fdec f (elem f.w (x.rv a) j)) (fdec f (elem f.w (x.rv b) j))
    let p := mergePred f.w (x.rk k) (x.rk d) fun j => (r j).1
    let fl := (List.range (1024 / f.w)).foldl (fun m j => if active (x.rk k) f.w j then orFlags m (r j).2 else m) 0
    .ok (.done (t.setSlot n ((x.wk d p).raiseFlags fl)))) s

/-- VSEL writes every element (R117). -/
def execVsel (d a b k w : Nat) (s : State) :=
  plain (fun t n =>
    let x := t.slot n
    let e := ewBits w
    vecDone t n d (mergeElems e (x.rk k) (x.rv b) fun j => elem e (x.rv a) j)) s

/-! ### Reductions, scans and lane moves -/

/-- The operator of VRED and VSCAN, its element width, and its identity (R119). FADD, FMIN and FMAX are float width members. -/
def redOp (x : Slot) (o w : Nat) : Except Trap ((Nat → Nat → Nat × Nat) × Nat × Nat) := do
  let g ← fmtsNoSr x
  let e := ewBits w
  let flt := o = 1 ∨ o = 6 ∨ o = 7
  if flt ∧ w ≠ 0 then .error illegal
  else if flt then
    let f ← floatFr g.fr
    if o = 1 then .ok (fadd f (modeOf x g), f.w, 0)
    else if o = 6 then .ok (fminmax f false, f.w, infCode f false)
    else .ok (fminmax f true, f.w, infCode f true)
  else match o with
    | 0 => .ok (fun a b => ((a + b) % 2 ^ e, 0), e, 0)
    | 2 => .ok (fun a b => (signedPick false e a b, 0), e, 2 ^ (e - 1) - 1)
    | 3 => .ok (fun a b => (signedPick true e a b, 0), e, 2 ^ (e - 1))
    | 4 => .ok (fun a b => (naturalPick false a b, 0), e, 2 ^ e - 1)
    | _ => .ok (fun a b => (naturalPick true a b, 0), e, 0)

/-- VRED (R119): every element of vd is written. -/
def execVred (d a _b k w o : Nat) (s : State) :=
  formatted (fun t n => do
    let x := t.slot n
    let (op, e, ident) ← redOp x o w
    let l := ((List.range (1024 / e)).filter fun j => active (x.rk k) e j).map fun j => elem e (x.rv a) j
    let (r, fl) := combine op 8 l
    vecFlagsDone t n d (BitVec.ofNat 1024 (r.headD ident % 2 ^ e), fl)) s

/-- The running results of VSCAN (R119) from element `j` on. -/
def scanGo (op : Nat → Nat → Nat × Nat) (k : Pred) (e : Nat) (js : List Nat) (va vd : Vec) (acc : Option Nat) :
    List Nat × Nat :=
  match js with
  | [] => ([], 0)
  | j :: t =>
    if active k e j then
      let (r, f) := match acc with
        | none => (elem e va j, 0)
        | some c => op c (elem e va j)
      let (l, g) := scanGo op k e t va vd (some r)
      (r :: l, orFlags f g)
    else
      let (l, g) := scanGo op k e t va vd acc
      (elem e vd j :: l, g)

/-- VSCAN (R119): inactive elements stay. -/
def execVscan (d a _b k w o : Nat) (s : State) :=
  formatted (fun t n => do
    let x := t.slot n
    let (op, e, _) ← redOp x o w
    let (l, fl) := scanGo op (x.rk k) e (List.range (1024 / e)) (x.rv a) (x.rv d) none
    vecFlagsDone t n d (packElems e l, fl)) s

/-- VPERM (R120). -/
def execVperm (d a b k w : Nat) (s : State) :=
  plain (fun t n =>
    let x := t.slot n
    let e := ewBits w
    vecDone t n d (mergeElems e (x.rk k) (x.rv d) fun j =>
      elem e (x.rv a) (elem e (x.rv b) j % (1024 / e)))) s

/-- VBCAST (R120); bit 5 of the scalar number stands in `h` (R113). -/
def execVbcast (d a k w h : Nat) (s : State) :=
  plain (fun t n =>
    let x := t.slot n
    let e := ewBits w
    vecDone t n d (mergeElems e (x.rk k) (x.rv d) fun _ => (x.rs (h * 32 + a)).toNat)) s

/-- VGETL (R120): ew W or D, and a lane that exists. -/
def execVgetl (d a l w h : Nat) (s : State) :=
  plain (fun t n =>
    let x := t.slot n
    let e := ewBits w
    if w < 2 ∨ 1024 / e ≤ l then .error illegal
    else writeDone t n (h * 32 + d) (BitVec.ofNat 64 (elem e (x.rv a) l))) s

/-- VSETL (R120): the other elements are unchanged. -/
def execVsetl (d a l w h : Nat) (s : State) :=
  plain (fun t n =>
    let x := t.slot n
    let e := ewBits w
    if w < 2 ∨ 1024 / e ≤ l then .error illegal
    else vecDone t n d (packElems e ((List.range (1024 / e)).map fun j =>
      if j = l then (x.rs (h * 32 + a)).toNat else elem e (x.rv d) j))) s

/-- A slide by a literal amount, down or up (R120). -/
def slide (up : Bool) (d a m k w : Nat) (s : State) (n : Nat) : Except Trap Res :=
  let x := s.slot n
  let e := ewBits w
  vecDone s n d (mergeElems e (x.rk k) (x.rv d) fun j =>
    if up then (if m ≤ j then elem e (x.rv a) (j - m) else 0)
    else if j + m < 1024 / e then elem e (x.rv a) (j + m) else 0)

/-- VSLIDE.DN (R120). -/
def execVslideDn (d a m k w : Nat) (s : State) := plain (slide false d a m k w) s

/-- VSLIDE.UP (R120). -/
def execVslideUp (d a m k w : Nat) (s : State) := plain (slide true d a m k w) s

/-- VIOTA: the index (R120). -/
def execViota (d k w : Nat) (s : State) :=
  plain (fun t n =>
    let x := t.slot n
    vecDone t n d (mergeElems (ewBits w) (x.rk k) (x.rv d) fun j => j)) s

/-- VIOTA.CNT: the number of active elements with index below j (R120). -/
def execViotaCnt (d k w : Nat) (s : State) :=
  plain (fun t n =>
    let x := t.slot n
    let e := ewBits w
    vecDone t n d (mergeElems e (x.rk k) (x.rv d) fun j =>
      ((List.range j).filter fun i => active (x.rk k) e i).length)) s

/-! ### Predicate operations -/

/-- The instruction writes predicate register `d` and completes (R131); k0 discards it. -/
def predDone (f : Slot → Pred) (d : Nat) (s : State) (n : Nat) : Except Trap Res :=
  .ok (.done (s.modSlot n fun x => x.wk d (f x)))

/-- KAND (R131). -/
def execKand (d a b : Nat) (s : State) := plain (predDone (fun x => x.rk a &&& x.rk b) d) s
/-- KOR (R131). -/
def execKor (d a b : Nat) (s : State) := plain (predDone (fun x => x.rk a ||| x.rk b) d) s
/-- KXOR (R131). -/
def execKxor (d a b : Nat) (s : State) := plain (predDone (fun x => x.rk a ^^^ x.rk b) d) s
/-- KNOT (R131). -/
def execKnot (d a : Nat) (s : State) := plain (predDone (fun x => ~~~(x.rk a)) d) s
/-- KMOV (R131). -/
def execKmov (d a : Nat) (s : State) := plain (predDone (fun x => x.rk a) d) s

/-- The indices of the elements of width `w` that are active in a predicate. -/
def activeIdx (k : Pred) (w : Nat) : List Nat := (List.range (1024 / w)).filter fun j => active k w j

/-- KPOPC (R131); bit 5 of d stands in `h`. -/
def execKpopc (d a w h : Nat) (s : State) :=
  plain (fun t n => writeDone t n (h * 32 + d)
    (BitVec.ofNat 64 (activeIdx ((t.slot n).rk a) (ewBits w)).length)) s

/-- KFIRST: the lowest active index, or the number of elements (R131). -/
def execKfirst (d a w h : Nat) (s : State) :=
  plain (fun t n => writeDone t n (h * 32 + d)
    (BitVec.ofNat 64 ((activeIdx ((t.slot n).rk a) (ewBits w)).headD (1024 / ewBits w)))) s

end Sys2Proof.Machine
end

