-- ==== Sys2Proof/Machine/VecFp.lean ====
section
/-!
DEFINITION. Floating-point vector arithmetic, fused multiply-add, special functions (06 R115, R116, R129, R130).
-/

namespace Sys2Proof.Machine

open Sys2Proof

/-- A float width member with two sources (R112, R115). -/
def vflt2 (op : Fmt → Rnd → Nat → Nat → Nat × Nat) (d a b k : Nat) (s : State) (n : Nat) : Except Trap Res := do
  let x := s.slot n
  let g ← fmtsNoSr x
  let f ← floatFr g.fr
  vecFlagsDone s n d (mergeFlags f.w (x.rk k) (x.rv d) fun j =>
    op f (modeOf x g) (elem f.w (x.rv a) j) (elem f.w (x.rv b) j))

/-- A float width member with one source (R112, R115, R129). -/
def vflt1 (op : Fmt → Rnd → Nat → Nat × Nat) (d a k : Nat) (s : State) (n : Nat) : Except Trap Res := do
  let x := s.slot n
  let g ← fmtsNoSr x
  let f ← floatFr g.fr
  vecFlagsDone s n d (mergeFlags f.w (x.rk k) (x.rv d) fun j => op f (modeOf x g) (elem f.w (x.rv a) j))

/-- VFADD (R115). -/
def execVfadd (d a b k : Nat) (s : State) := formatted (vflt2 fadd d a b k) s
/-- VFSUB (R115). -/
def execVfsub (d a b k : Nat) (s : State) := formatted (vflt2 fsub d a b k) s
/-- VFMUL (R115). -/
def execVfmul (d a b k : Nat) (s : State) := formatted (vflt2 fmul d a b k) s
/-- VFMIN (R115). -/
def execVfmin (d a b k : Nat) (s : State) := formatted (vflt2 (fun f _ => fminmax f false) d a b k) s
/-- VFMAX (R115). -/
def execVfmax (d a b k : Nat) (s : State) := formatted (vflt2 (fun f _ => fminmax f true) d a b k) s
/-- VFABS: sign bit 0, no flag (R115, R97). -/
def execVfabs (d a k : Nat) (s : State) := formatted (vflt1 (fun f _ x => (x % 2 ^ (f.w - 1), 0)) d a k) s
/-- VFNEG: sign bit inverted, no flag (R115, R97). -/
def execVfneg (d a k : Nat) (s : State) := formatted (vflt1 (fun f _ x => (x ^^^ 2 ^ (f.w - 1), 0)) d a k) s

/-- A fused multiply-add (R116): the product exact, one rounding. -/
def vfma (np nc : Bool) (d a b c k : Nat) (s : State) (n : Nat) : Except Trap Res := do
  let x := s.slot n
  let g ← fmtsNoSr x
  let f ← floatFr g.fr
  vecFlagsDone s n d (mergeFlags f.w (x.rk k) (x.rv d) fun j =>
    fma f (modeOf x g) np nc (elem f.w (x.rv a) j) (elem f.w (x.rv b) j) (elem f.w (x.rv c) j))

/-- VFMA (R116). -/
def execVfma (d a b c k : Nat) (s : State) := formatted (vfma false false d a b c k) s
/-- VFMS (R116). -/
def execVfms (d a b c k : Nat) (s : State) := formatted (vfma false true d a b c k) s
/-- VFNMA (R116). -/
def execVfnma (d a b c k : Nat) (s : State) := formatted (vfma true false d a b c k) s
/-- VFNMS (R116). -/
def execVfnms (d a b c k : Nat) (s : State) := formatted (vfma true true d a b c k) s

/-- An integer multiply-add on 32-bit elements (R116). -/
def vmacc (f : Nat → Nat → Nat → Nat) (d a b c k : Nat) (s : State) (n : Nat) : Except Trap Res :=
  let x := s.slot n
  vecDone s n d (mergeElems 32 (x.rk k) (x.rv d) fun j => f (elem 32 (x.rv a) j) (elem 32 (x.rv b) j) (elem 32 (x.rv c) j))

/-- VMADD (R116). -/
def execVmadd (d a b c k : Nat) (s : State) := plain (vmacc (fun x y z => x * y + z) d a b c k) s
/-- VMSUB (R116). -/
def execVmsub (d a b c k : Nat) (s : State) := plain (vmacc (fun x y z => x * y + 2 ^ 32 - z) d a b c k) s

/-- VRCP ignores the rounding mode (R130). -/
def execVrcp (d a k : Nat) (s : State) := formatted (vflt1 (fun f _ => frcp f) d a k) s
/-- VRSQ (R130). -/
def execVrsq (d a k : Nat) (s : State) := formatted (vflt1 (fun f _ => frsq f) d a k) s
/-- VEXP2 (R130). -/
def execVexp2 (d a k : Nat) (s : State) := formatted (vflt1 (fun f _ => fexp2 f) d a k) s
/-- VLOG2 (R130). -/
def execVlog2 (d a k : Nat) (s : State) := formatted (vflt1 (fun f _ => flog2 f) d a k) s
/-- VSQRT is correctly rounded (R130). -/
def execVsqrt (d a k : Nat) (s : State) := formatted (vflt1 fsqrt d a k) s
/-- VDIV is correctly rounded (R130). -/
def execVdiv (d a b k : Nat) (s : State) := formatted (vflt2 fdiv d a b k) s

end Sys2Proof.Machine
end

