-- ==== Sys2Proof/Machine/Resolve.lean ====
section
/-!
DEFINITION. Occurrences and their data plans (10 R177 to R182), the resolvers (10 R183 to R186), and the messages between
homes and offer units (10 R184).

Readings and choices of the model (log): DESIGN CHOICE 9, 12, 14; DEDUCED 15, 16, 17, 25, 26, 58, 86, 87, 88, 99, 105,
163.
-/

namespace Sys2Proof.Machine

open Sys2Proof

/-! ### Data plans -/

/-- `n` bytes that nothing determines, and the state that has drawn them (log 9). -/
def freeBytes (s : State) (n : Nat) : List Nat × State :=
  ((List.range n).map fun k => (Config.freeValue (s.fresh + k)).toNat % 256, { s with fresh := s.fresh + n })

/-- LEN bytes at the buffer of a party's offer (R177); a buffer that the slot's own windows and regions do not reach gives free
bytes (log 14). -/
def planRead (s : State) (n buf len : Nat) : List Nat × State :=
  match blockCells s n buf len 1 with
  | .error _ => freeBytes s len
  | .ok cells => (readCells s cells, noteGuard s n buf 1 0 none cells)

/-- Bytes written at the buffer of a party's offer; nothing is written where the slot's own windows and regions do not reach. -/
def planWrite (s : State) (n buf : Nat) (data : List Nat) : State :=
  match blockCells s n buf data.length 2 with
  | .error _ => s
  | .ok cells => performStore s n buf 2 0 none cells data

/-- The element format of a SUM (R174): 0 FP32, 1 BF16, 2 S32, and the bytes of an element. -/
def sumWidth (efmt : Nat) : Nat := if efmt = 1 then 2 else 4

/-- BF16. -/
def bf16 : Fmt := ⟨16, 7, 127, 255, 0⟩

/-- The sum of one element's contributions in party order, combined as VRED combines (R178): value and flags. -/
def sumElem (efmt : Nat) (l : List Nat) : Nat × Nat :=
  let r := combine (fun a b =>
    if efmt = 2 then ((a + b) % 2 ^ 32, 0) else fadd (if efmt = 1 then bf16 else fp32) .rne a b) l.length l
  (r.1.headD 0, r.2)

/-- SUM of the contributions, each a list of bytes (R178). -/
def sumPlan (efmt len : Nat) (l : List (List Nat)) : List Nat × Nat :=
  let w := sumWidth efmt
  let es := (List.range (len / w)).map fun i => sumElem efmt (l.map fun c => numOf ((c.drop (i * w)).take w))
  (es.flatMap fun e => bytesOf w e.1, es.foldl (fun a e => orFlags a e.2) 0)

/-- The side of a channel that a party of another node takes (R179): the item that it puts is free bytes, the one that it gets leaves
this node (log 26). -/
def farItem (s : State) (e : Ev) (side : Nat) : State :=
  if side = 1 then
    let i := mrbFree s e.ringCell
    match (List.range 16).find? fun j => bit (bits (mrbCfg s e.ringCell) 63 48) j with
    | some c => relCount (s.put (e.ringCell + 64 + 4 * c) 4 (inc32 i)) e.cl e.mrb c (inc32 i)
    | none => s
  else
    let (b, s1) := freeBytes s (itemSize e.tile)
    pushItem s1 e.cl e.mrb b.length (numOf b)

/-- The side of a channel whose ring lies on another node, that slot `n` takes: the item that it gets is free bytes, the one that it puts
leaves this node (log 26). -/
def farRing (s : State) (e : Ev) (side n : Nat) : State :=
  if side = 1 then
    let (b, s1) := freeBytes s (itemSize e.tile)
    s1.modSlot n fun x => loadItem x e.tile (numOf b)
  else s

/-- What slot party `p` contributes, given its slot where that is of this node; of a party elsewhere it is free bytes (log 26). -/
def partyRead (s : State) (p : Option Nat × Reg) (len : Nat) : List Nat × State :=
  match p.1 with
  | some n => planRead s n p.2.buf len
  | none => freeBytes s len

/-- What slot party `p` is given; what a party elsewhere is given leaves this node (log 26). -/
def partyWrite (s : State) (p : Option Nat × Reg) (data : List Nat) : State :=
  match p.1 with
  | some n => planWrite s n p.2.buf data
  | none => s

/-- Every contribution of the slot parties, read before anything is written (R177). -/
def contributions (s : State) (len : Nat) (l : List (Option Nat × Reg)) : List (List Nat) × State :=
  l.foldl (fun (acc : List (List Nat) × State) p =>
    let (b, t) := partyRead acc.2 p len
    (acc.1 ++ [b], t)) ([], s)

/-- The flags of a SUM raised in a party's slot (R178). -/
def partyFlags (s : State) (p : Option Nat × Reg) (fl : Nat) : State :=
  match p.1 with
  | some n => s.modSlot n fun x => x.raiseFlags fl
  | none => s

/-- The movement of a plan at an occurrence (R177 to R179). `l` holds the slot parties in party order, each with its slot where that
is of this node and its registration. -/
def movePlan (s : State) (e : Ev) (side : Nat) (l : List (Option Nat × Reg)) : State :=
  if e.plan = 1 then
    match l.find? fun p => p.2.role == 1 with
    | none => s
    | some g =>
      let (b, s1) := partyRead s g e.len
      (l.filter fun p => p.2.role == 2).foldl (fun t p => partyWrite t p b) s1
  else if e.plan = 2 then
    let (cs, s1) := contributions s e.len l
    let (b, fl) := sumPlan e.efmt e.len cs
    let dest := if e.rooted then (l[e.root]?).toList else l
    dest.foldl (fun t p => partyFlags (partyWrite t p b) p fl) s1
  else if e.plan = 3 then
    let (cs, s1) := contributions s e.len l
    l.foldl (fun t p => partyWrite t p cs.flatten) s1
  else if e.plan = 4 then
    match l with
    | (some n, _) :: _ => if e.cl = farCluster then farRing s e side n else if side = 1 then getItem s e n else putItem s e n
    | (none, _) :: _ => if e.cl = farCluster then s else farItem s e side
    | [] => s
  else s

/-! ### Occurrences -/

/-- The arbiter's lease begins at the occurrence of a grant event (12 R203). -/
def beginLease (s : State) (p n : Nat) : State :=
  s.modCluster p fun c =>
    if c.lease.reqs.any fun r => r.1 == n then
      { c with lease := { c.lease with
          holder := some n, count := 0, from_ := clusterCycles s p,
          reqs := c.lease.reqs.filter fun r => r.1 != n, offered := none } }
    else { c with lease := { c.lease with offered := none } }

/-- The flags of a slot's completed matrix commands are delivered (12 R214), also to the context that its resident handler has still to
restore. -/
def deliverMatrixFlags (s : State) (n : Nat) : State :=
  let fl := (s.slot n).mflags
  let s1 := s.modSlot n fun x => { x.raiseFlags x.mflags with mflags := 0 }
  { s1 with pre := s1.pre.map fun e => if !e.out && e.home == n then { e with slot := e.slot.raiseFlags fl } else e }

/-- The same for the task that was pre-empted as number `order` and is off its core: its context gains them. -/
def deliverAwayFlags (s : State) (order : Nat) : State :=
  { s with pre := s.pre.map fun e =>
      if e.out && e.order == order then { e with slot := { e.slot.raiseFlags e.slot.mflags with mflags := 0 } } else e }

/-- The oldest published block of slot `n` is delivered (24 R350). -/
def deliverBlock (s : State) (d n : Nat) : State :=
  match (s.die d).blocks.find? fun b => b.slot == n with
  | none => s
  | some b =>
    (s.modDie d fun x => { x with blocks := x.blocks.erase b }).modSlot n fun x =>
      { ((x.ws 48 (BitVec.ofNat 64 b.lva)).ws 49 (BitVec.ofNat 64 b.len)).ws 50 (BitVec.ofNat 64 b.idx) with
        blockDue := some (b.ring * 2 ^ 64 + b.start) }

/-- What the occurrence of an event with party `p` does besides its plan; `n` is the slot party. -/
def partyEffect (s : State) (h n p : Nat) : State :=
  let k := p % 2 ^ 32 / 2 ^ 28
  if k = 5 then beginLease s (bits p 12 6) n
  else if k = 3 then
    if 2 ^ 32 ≤ p then deliverAwayFlags s (p / 2 ^ 32 - 1)
    else match slotOfParty s p with
      | some m => deliverMatrixFlags s m
      | none => s
  else if k = 13 then deliverBlock s (dieOfHome h) n
  else s

/-- A consumed offer of a slot party: one whose every event has this home is done at once, another learns by a commit message
(R184); its registrations leave this home. -/
def consumeOffer (s : State) (h : Nat) (g : Reg) (status : Nat) : State :=
  let s1 := dropRegs s h g.offId
  match slotOfParty s g.party with
  | some n =>
    if g.single then completeOffer s1 n g.offId g.pos status else toUnit s1 h n (.commit n g.offId g.pos status)
  | none => toUnit s1 h (unitOf s g.party) (.commit (unitOf s g.party) g.offId g.pos status)

/-- The registration of an engine offer consumed: the earliest of its agent for this event (R180). -/
def consumeEngine (s : State) (h : Nat) (g : Reg) : State :=
  s.modHome h fun r => { r with regs := r.regs.erase g }

/-- AN OCCURRENCE of event `i` of home `h` with the registrations `regs` (R182): the plan moves its data, the count advances, one
offer of each party is consumed, a domain barrier is freed (R201). -/
def occur (s : State) (h i side : Nat) (regs : List Reg) : State :=
  match (s.home h).evs.get i {} with
  | e =>
    let slots := (regs.filter fun g => isSlotParty g.party).map fun g => (slotOfParty s g.party, g)
    let s1 := movePlan s e side slots
    let s2 := modEv s1 h i fun v => { v with occ := inc32 v.occ }
    let s3 := e.parties.foldl (fun t p => partyEffect t h ((slots.filterMap Prod.fst).headD 0) p) s2
    let s4 := regs.foldl (fun t g => if isSlotParty g.party then consumeOffer t h g 0 else consumeEngine t h g) s3
    if e.barrier.isSome then freeEv s4 ⟨h, i, e.gen⟩ else s4

/-! ### The selection of a window -/

/-- Whether a registered offer of a slot enables events: it is not suspended (R190). One that its slot has withdrawn does so until the
withdrawal reaches the home (R183). -/
def offerActive (x : Slot) (offId : Nat) : Bool := !x.susp.any fun o => o.id == offId

/-- A candidate of a window: event, side, the registrations that enable it, and the cycle from which its key counts. -/
structure Cand where
  idx  : Nat
  side : Nat
  regs : List Reg
  arr  : Nat

/-- What a window's selection keeps: offers committed or set aside, channels whose get side has occurred, how things stood
at its start. -/
structure Sel where
  used : List Nat
  got  : List Nat
  snap : Option Snap

/-- The registration with which party `p` takes part for event `i`, the earliest that is active (R180, R183). -/
def pickReg (s : State) (h last : Nat) (q : Sel) (i gen side p : Nat) : Option Reg :=
  (s.home h).regs.find? fun g =>
    g.idx == i && g.gen == gen && g.party == p && g.side == side && decide (g.arr ≤ last) &&
      (g.offId == 0 || !q.used.contains g.offId) &&
      (!isSlotParty p || match slotOfParty s p with
        | some n => offerActive (s.slot n) g.offId
        | none => true)

/-- How things stood at the start of window `w` of a home; none where its agents offered nothing. -/
def snapOf (r : Resolver) (w : Nat) : Option Snap := (r.snaps.filter fun q => decide (q.window ≤ w)).getLast?

/-- Since when the trap agent, or the reduction queue agent for one of `slots`, has offered at the start of a window; none where it does
not (20 R303; 24 R350). -/
def agentOffers (q : Option Snap) (p : Nat) (slots : List Nat) : Option Nat :=
  if p / 2 ^ 28 = 12 then q.bind (·.trap)
  else (q.bind fun u => u.blocks.find? fun b => slots.contains b.1).map Prod.snd

/-- Since when the queue agent of channel `i` has offered a side by the counts at the start of a window; none where it does not (R179). -/
def queueOffers (q : Option Snap) (e : Ev) (i side : Nat) : Option Nat :=
  let (n, full, room) := (q.bind fun u => (u.cnt.find? fun c => c.1 == i).map Prod.snd).getD (0, 0, 0)
  if side = 1 then (if 0 < n then some full else none) else (if n < e.depth then some room else none)

/-- The slots of an event's slot parties on this node. -/
def Ev.slots (e : Ev) (s : State) : List Nat := e.parties.filterMap fun p => if isSlotParty p then slotOfParty s p else none

/-- The registrations that enable an event without sides; none where a party does not offer it. The agents of a die need none. -/
def gather (s : State) (h last : Nat) (q : Sel) (i : Nat) (e : Ev) : Option (List Reg) :=
  e.parties.foldlM (fun (acc : List Reg) p =>
    if p / 2 ^ 28 = 12 ∨ p / 2 ^ 28 = 13 then (if (agentOffers q.snap p (e.slots s)).isSome then some acc else none)
    else (pickReg s h last q i e.gen 0 p).map fun g => acc ++ [g]) []

/-- Whether the roles of a GIVE are one give and takes (R177, R181). -/
def rolesMatch (e : Ev) (regs : List Reg) : Bool :=
  e.plan != 1 ||
    (let rs := (regs.filter fun g => isSlotParty g.party).map (·.role)
     (rs.filter (· == 1)).length == 1 && (rs.filter (· == 2)).length + 1 == rs.length)

/-- Whether the queue agent of a channel is silent in the window that ends with cycle `last`: a switch of its chain is pending (14 R253). -/
def queueSilent (s : State) (h last i gen : Nat) : Bool :=
  s.chains.any fun c => c.evs.contains ⟨h, i, gen⟩ && c.pend.isSome && c.openWin != some (last / windowLen h)

/-- Whether an attempt for this event and side is under way or waits. -/
def trying (r : Resolver) (i side : Nat) : Bool := r.tries.any fun y => y.idx == i && y.side == side

/-- The cycle from which the key of a candidate counts: its oldest offer (R183); an agent's offer of this window counts from the
window's start. -/
def keyOf (first : Nat) (agent : Bool) (regs : List Reg) : Nat :=
  regs.foldl (fun a g => min a g.arr) (if agent then first else 2 ^ 200)

/-- Whether the queue agent of channel `i` offers a side in the window of a selection (R179): the put side of a ring that was full only
with a get of this window. -/
def queueAgent (q : Sel) (e : Ev) (i side : Nat) : Bool :=
  (queueOffers q.snap e i side).isSome || (side == 2 && q.got.contains i)

/-- The candidates of event `i`: enabled (R181), not set aside. -/
def candidates (s : State) (h last : Nat) (q : Sel) (i : Nat) : List Cand :=
  let r := s.home h
  let e := r.evs.get i {}
  let first := last + 1 - windowLen h
  if !e.live || e.broken then []
  else if e.plan = 4 then
    let one := fun (side pi : Nat) (ok : Bool) =>
      match e.parties[pi]? with
      | some p =>
        if ok && queueAgent q e i side && !queueSilent s h last i e.gen && !trying r i side && !(e.takers side).any (heldParty s) then
          ((pickReg s h last q i e.gen side p).map fun g => ⟨i, side, [g], keyOf first true [g]⟩).toList
        else []
      | none => []
    one 1 1 (!q.got.contains i) ++ one 2 0 true
  else if trying r i 0 || e.parties.any (heldParty s) then []
  else match gather s h last q i e with
    | none => []
    | some regs =>
      if rolesMatch e regs then [⟨i, 0, regs, keyOf first (e.parties.any fun p => p / 2 ^ 28 == 12 || p / 2 ^ 28 == 13) regs⟩]
      else []

/-- Whether candidate `a` is selected before `b` (R183): the greater key, then the lesser distance from the pointer; of one
channel the get side first (R179). -/
def before (h ptr : Nat) (a b : Cand) : Bool :=
  let cap := homeCap h
  let da := (a.idx + cap - ptr) % cap
  let db := (b.idx + cap - ptr) % cap
  decide (a.arr < b.arr ∨ (a.arr = b.arr ∧ (da < db ∨ (da = db ∧ a.side ≤ b.side))))

/-- The candidate selected, if any; a put side gives way to the get side of its channel. -/
def selected (h ptr : Nat) (cs : List Cand) : Option Cand :=
  match cs with
  | [] => none
  | c :: t =>
    let b := t.foldl (fun a x => if before h ptr x a then x else a) c
    if b.side = 2 then some ((cs.find? fun x => x.idx == b.idx && x.side == 1).getD b) else some b

/-- The name by which a claim orders its event (R184). -/
def claimName (h i gen : Nat) : Nat :=
  (if h < 128 then 1 else if h < 132 then 2 else 3) * 2 ^ 30 + gen * 2 ^ 26 +
    (if h < 128 then h else if h < 132 then h - 128 else 0) * 2 ^ 14 + i

/-- A claim leaves for the offer of party `p`. -/
def askClaim (s : State) (h i side stamp p : Nat) : State :=
  let gen := ((s.home h).evs.get i {}).gen
  let u := unitOf s p
  toUnit s h u (.claim u (offIdOf s h i p) ⟨⟨h, i, gen⟩, side, claimName h i gen, stamp⟩)

/-- Parties whose offers must be claimed, in ascending order (R184). -/
def claimed (regs : List Reg) : List Nat :=
  sortParties ((regs.filter fun g => isSlotParty g.party && !g.single).map (·.party))

/-- The timestamp at which a candidate became enabled (R184): the latest of the arrivals of its offers, of the ends of a halt or a
suspension of its parties, and of the start of the windows since which its agents have offered. -/
def enableStamp (s : State) (h : Nat) (q : Sel) (c : Cand) : Nat :=
  let e := (s.home h).evs.get c.idx {}
  let active := fun (g : Reg) => match slotOfParty s g.party with
    | some n => ((offerById (s.slot n) g.offId).map (·.since)).getD 0
    | none => 0
  let regs := c.regs.foldl (fun a g => max a (max g.time (active g))) 0
  let free := (e.takers c.side).foldl (fun a p => max a (partyFreed s p)) regs
  let agents := e.parties.foldl (fun a p =>
    if p / 2 ^ 28 = 12 ∨ p / 2 ^ 28 = 13 then max a ((agentOffers q.snap p (e.slots s)).getD 0) else a) free
  if e.plan = 4 then max agents ((queueOffers q.snap e c.idx c.side).getD 0) else agents

/-- A claim attempt starts (R184): the event is set aside, its first claim is sent. -/
def startTry (s : State) (h : Nat) (q : Sel) (c : Cand) : State :=
  match claimed c.regs with
  | [] => s
  | p :: _ =>
    let stamp := enableStamp s h q c
    askClaim (s.modHome h fun r => { r with tries := r.tries ++ [⟨c.idx, c.side, stamp, [p], [], false⟩] }) h c.idx c.side stamp p

/-- The counts of a channel after a side has occurred, with the times since when it has not been empty and since when not full. -/
def countAfter (now depth side : Nat) (u : Nat × Nat × Nat) : Nat × Nat × Nat :=
  if side = 1 then (u.1 - 1, u.2.1, if u.1 < depth then u.2.2 else now) else (u.1 + 1, if u.1 = 0 then now else u.2.1, u.2.2)

/-- The window starts after window `w` with a side of channel `i` counted that occurs at the end of window `w`: they may have passed
before the home comes to resolve it (R179). -/
def amendSnaps (r : Resolver) (w i depth side now : Nat) : Resolver :=
  let next : List Snap :=
    if r.snaps.any (fun q => q.window == w + 1) then []
    else ((snapOf r w).toList).map fun q => { q with window := w + 1 }
  let old := r.snaps.filter fun q => decide (q.window ≤ w)
  let new := next ++ r.snaps.filter fun q => decide (w < q.window)
  { r with snaps := old ++ new.map fun q =>
      { q with cnt := q.cnt.map fun e => if e.1 = i then (i, countAfter now depth side e.2) else e } }

/-- A commit of candidate `c` in the window with last cycle `last`, and the pointer after it (R183 step 3). -/
def commitCand (s : State) (h last : Nat) (c : Cand) : State :=
  let e := (s.home h).evs.get c.idx {}
  (occur s h c.idx c.side c.regs).modHome h fun r =>
    let q := if e.plan = 4 then amendSnaps r (last / windowLen h) c.idx e.depth c.side s.time else r
    { q with ptr := (c.idx + 1) % homeCap h }

/-- A selection goes on with the offers of `c` taken or set aside. -/
def Sel.take (q : Sel) (c : Cand) : Sel := { q with used := q.used ++ (c.regs.map (·.offId)).filter (· != 0) }

/-- The same after a commit: a channel's put side may follow its get side (R179). -/
def Sel.commit (q : Sel) (c : Cand) : Sel :=
  { q.take c with got := if c.side = 1 then q.got ++ [c.idx] else q.got }

/-- The steps of R183 repeated until no enabled event remains; `fuel` bounds them by the registrations. -/
def selectLoop (fuel : Nat) (s : State) (h last : Nat) (q : Sel) : State :=
  match fuel with
  | 0 => s
  | k + 1 =>
    let idxs := distinct ((s.home h).regs.map (·.idx))
    match selected h (s.home h).ptr (idxs.flatMap (candidates s h last q)) with
    | none => s
    | some c =>
      if (claimed c.regs).isEmpty then selectLoop k (commitCand s h last c) h last (q.commit c)
      else selectLoop k (startTry s h q c) h last (q.take c)

/-- The registrations behind an attempt, as they stand now; none where its event is no longer enabled. -/
def tryRegs (s : State) (h last : Nat) (q : Sel) (y : Try) : Option Cand :=
  let r := s.home h
  let e := r.evs.get y.idx {}
  if !e.live || e.broken then none
  else if e.plan = 4 then
    if queueSilent s h last y.idx e.gen || !queueAgent q e y.idx y.side then none
    else (e.parties[if y.side = 1 then 1 else 0]?).bind fun p =>
      (pickReg s h last q y.idx e.gen y.side p).map fun g => ⟨y.idx, y.side, [g], g.arr⟩
  else (gather s h last q y.idx e).map fun regs => ⟨y.idx, 0, regs, 0⟩

/-- The attempts at the end of a window (R184): one with every grant commits, one whose event is no longer enabled ends, the offers
of the rest stay set aside. -/
def settleTries (s : State) (h last : Nat) (q : Sel) : State × Sel :=
  ((s.home h).tries.filter fun y => !y.waits).foldl (fun (acc : State × Sel) y =>
    match tryRegs acc.1 h last acc.2 y with
    | none => (failAttempt acc.1 h y.idx y.side false, acc.2)
    | some c =>
      let held := (((acc.1.home h).evs.get y.idx {}).takers y.side).any (heldParty acc.1)
      if !held && (claimed c.regs).all fun p => y.granted.any fun g => g.1 == p && decide (g.2 ≤ last) then
        let s1 := acc.1.modHome h fun r => { r with tries := r.tries.filter fun z => !(z.idx == y.idx && z.side == y.side) }
        (commitCand s1 h last c, acc.2.commit c)
      else (acc.1, acc.2.take c)) (s, q)

/-- Events whose parties all offer with a wrong mix of roles break (R181). -/
def breakMismatched (s : State) (h last : Nat) (q : Sel) : State :=
  (distinct ((s.home h).regs.map (·.idx))).foldl (fun t i =>
    let e := (t.home h).evs.get i {}
    if e.live && !e.broken && e.plan == 1 then
      match gather t h last q i e with
      | some regs => if rolesMatch e regs then t else modEv t h i fun v => { v with broken := true }
      | none => t
    else t) s

/-- Whether a registration names a broken, stale or freed event (R172, R186). -/
def regBroken (s : State) (h : Nat) (g : Reg) : Bool :=
  let e := (s.home h).evs.get g.idx {}
  !e.live || e.gen != g.gen || e.broken

/-- Offers that include a broken event resolve BROKEN, at their lowest broken position; engine offers for it are discarded
(R186, R197). -/
def resolveBroken (s : State) (h last : Nat) : State :=
  let bad := (s.home h).regs.filter fun g => decide (g.arr ≤ last) && regBroken s h g
  let offs := distinct ((bad.filter fun g => isSlotParty g.party).map (·.offId))
  let s1 := offs.foldl (fun t o =>
    let mine := bad.filter fun g => g.offId == o
    match mine with
    | [] => t
    | g :: r =>
      let w := r.foldl (fun a x => if x.pos < a.pos then x else a) g
      match slotOfParty t w.party with
      | some n => if offerActive (t.slot n) o then consumeOffer t h w 1 else t
      | none => consumeOffer t h w 1) s
  s1.modHome h fun r => { r with regs := r.regs.filter fun g => isSlotParty g.party || !(decide (g.arr ≤ last) && bad.contains g) }

/-- The selection of a home at the end of the window whose last cycle is `last` (R183). -/
def resolveWindow (s : State) (h last : Nat) : State :=
  let r := s.home h
  let q : Sel := ⟨[], [], snapOf r (last / windowLen h)⟩
  let s1 := breakMismatched s h last q
  let (s2, q2) := settleTries s1 h last q
  let s3 := selectLoop (2 * r.regs.length + 2) s2 h last q2
  resolveBroken s3 h last

/-- Whether a home's resolver runs: its cluster is in C0, its die is on (24 R365). -/
def homeRuns (s : State) (h : Nat) : Bool :=
  if h < 128 then (s.cluster h).cur == 0 && !(s.die (h / 32)).off else if h < 132 then !(s.die (h - 128)).off else h == 132

/-- Whether the queue agents of a chain of cluster `h` offer in some window before `w` (14 R253). -/
def opened (h w : Nat) (c : Chain) : Bool := c.cl == h && !c.folded && c.openWin.any fun o => decide (o < w)

/-- The windows of home `h` before `w` are over. -/
def windowsOver (s : State) (h w : Nat) : State :=
  { s.modHome h fun q => { q with window := w } with
    chains := s.chains.map fun c => if opened h w c then { c with openWin := none } else c }

/-- RESOLVER_WINDOW (R183): the earliest window that has ended, not been resolved, and may hold an offer. -/
def resolverWindow (h : Nat) (s : State) : State :=
  let r := s.home h
  let len := windowLen h
  let ended := homeCycles s h / len
  if !homeRuns s h || ended ≤ r.window then s
  else
    let w := match r.regs with
      | [] => ended
      | g :: t => max r.window (t.foldl (fun a x => min a x.arr) g.arr / len)
    if ended ≤ w then windowsOver s h ended
    else windowsOver (resolveWindow s h (w * len + len - 1)) h (w + 1)

/-- RESOLVER_WINDOW (R183). -/
def execResolverWindow (home : Nat) (s : State) := event (resolverWindow home) s

/-! ### Messages -/

/-- The home that a message goes to. -/
def homeDst (m : Msg) : Nat := m.dst - 50000

/-- Whether a message goes to a home. -/
def goesHome (m : Msg) : Bool := 50000 ≤ m.dst && m.dst < 100000

/-- The tenant of an event message (22 R331): that of the slot, or of the agent's slot, that sends it; what a home sends to a unit of another
node carries the one under which that unit last offered, so that the messages of one pair stay in one queue (24 R345). -/
def msgVi (s : State) (m : Msg) : Nat :=
  if m.src < 8384 then (s.slot m.src).vi
  else if 2 ^ 32 ≤ m.dst then s.unitVi.get (m.dst - 2 ^ 32) 0
  else match m.body with
    | .engine p _ _ => ((slotOfParty s p).map fun n => (s.slot n).vi).getD 0
    | _ => 0

/-- An event message as a packet of class E (24 R345): its kind in `sub`, its receiver in `tag`, its numbers in the other fields; units
cross nodes as party entries. -/
def shipPacket (s : State) (node : Nat) (m : Msg) : Packet :=
  let base : Packet := ⟨5, 11, node, m.src % 2 ^ 25, msgVi s m, 0, if goesHome m then 0 else m.dst % 2 ^ 32, m.dst, 0, 0, 0, 0⟩
  match m.body with
  | .register p i g sd o one pos role buf =>
      { base with
        sub := 0, addr := i + g * 2 ^ 14, size := o + s.node * 2 ^ 40, cmp := buf,
        data := p + sd * 2 ^ 32 + pos * 2 ^ 40 + role * 2 ^ 48 + (if one then 2 ^ 60 else 0) }
  | .engine p i g => { base with sub := 1, addr := i + g * 2 ^ 14, data := p }
  | .barrier u o k ps => { base with sub := 2, addr := k.2.2, size := o + s.node * 2 ^ 40, data := u, cmp := ps.length }
  | .withdraw u o => { base with sub := 3, size := o + s.node * 2 ^ 40, data := selfParty s u }
  | .gone u o => { base with sub := 11, size := o % 2 ^ 40, data := u }
  | .pull p i g => { base with sub := 4, addr := i + g * 2 ^ 14, data := p }
  | .claim u o c =>
      { base with
        sub := 5, addr := c.ev.idx + c.ev.gen * 2 ^ 14, size := o % 2 ^ 40, data := u,
        cmp := c.name + c.side * 2 ^ 32 + c.stamp * 2 ^ 40 }
  | .answer i sd u ok told =>
    { base with sub := 6, addr := i, data := selfParty s u, cmp := sd * 4 + (if told then 2 else 0) + if ok then 1 else 0 }
  | .revoke i sd u => { base with sub := 7, addr := i, data := selfParty s u, cmp := sd }
  | .release u o e sd => { base with sub := 8, addr := e.idx + e.gen * 2 ^ 14, size := o % 2 ^ 40, data := u, cmp := sd }
  | .commit u o pos st => { base with sub := 9, size := o % 2 ^ 40, data := u, cmp := pos + st * 8 }
  | .free i sd => { base with sub := 10, addr := i, cmp := sd }
  | .denied u o => { base with sub := 12, size := o % 2 ^ 40, data := u }

/-- The event message that a packet of class E carries to this node; `from_` is the sending node. -/
def shipped (s : State) (q : Packet) : Option Msg :=
  let from_ := q.src / 2 ^ 13
  let far := 1000 + from_
  let ev : EvRef := ⟨132, q.addr % 2 ^ 14, q.addr / 2 ^ 14 % 16⟩
  let src := 200000000 + from_
  let toHome := fun (b : MsgBody) => some (⟨src, homeSrc 132, b⟩ : Msg)
  let unit := 2 ^ 32 + q.data % 2 ^ 32
  let toSlot := fun (b : Nat → MsgBody) => (slotOfParty s (q.data % 2 ^ 32)).map fun n => (⟨homeSrc far, n, b n⟩ : Msg)
  match q.sub with
  | 0 => toHome (.register (q.data % 2 ^ 32) ev.idx ev.gen (bits q.data 39 32) q.size (bit q.data 60) (bits q.data 47 40)
          (bits q.data 59 48) q.cmp)
  | 1 => toHome (.engine (q.data % 2 ^ 32) ev.idx ev.gen)
  | 3 => toHome (.withdraw unit q.size)
  | 4 => toHome (.pull (q.data % 2 ^ 32) ev.idx ev.gen)
  | 5 => toSlot fun n => .claim n q.size ⟨⟨far, ev.idx, ev.gen⟩, bits q.cmp 39 32, q.cmp % 2 ^ 32, q.cmp / 2 ^ 40⟩
  | 6 => toHome (.answer q.addr (q.cmp / 4) unit (bit q.cmp 0) (bit q.cmp 1))
  | 7 => toHome (.revoke q.addr q.cmp unit)
  | 8 => toSlot fun n => .release n q.size ⟨far, ev.idx, ev.gen⟩ q.cmp
  | 9 => toSlot fun n => .commit n q.size (q.cmp % 8) (q.cmp / 8)
  | 10 => toHome (.free q.addr q.cmp)
  | 11 => toSlot fun n => .gone n q.size
  | 12 => toSlot fun n => .denied n q.size
  | _ => none

/-- The node that a message leaves for, if it leaves the package. -/
def awayNode (m : Msg) : Option Nat :=
  if goesHome m then (if 1000 ≤ homeDst m then some (homeDst m - 1000) else none)
  else if 2 ^ 32 ≤ m.dst then some (bits (m.dst - 2 ^ 32) 24 13)
  else none

/-- A home has taken the withdrawal of an offer of slot `n`. -/
def takeGone (s : State) (n offId : Nat) : State := modOffer s n offId fun o => { o with wdr := o.wdr.map (· - 1) }

/-- A message that leaves the package: it is sent in class E; without a route the event it names breaks, and an offer of it resolves
BROKEN (20 R312). -/
def shipAway (s : State) (i node : Nat) (m : Msg) : State :=
  let s1 := dropMsg s i
  match transmit s1 (shipPacket s node m) with
  | some s2 => s2
  | none =>
    match m.body with
    | .register _ _ _ _ o _ pos _ _ =>
      match offerById (s1.slot m.src) o with
      | some q => completeOffer (sendWithdraw s1 m.src q) m.src o pos 1
      | none => s1
    | .barrier u o _ _ =>
      match offerById (s1.slot u) o with
      | some q => completeOffer (sendWithdraw s1 u q) u o 0 1
      | none => s1
    | .withdraw u o => takeGone s1 u o
    | _ => s1

/-- A Mace slot's offer of its block event has reached the home: its delivered block is done (24 R351). -/
def blockOffered (s : State) (h i p : Nat) : State :=
  match slotOfParty s p with
  | some n => if isMace n ∧ ((s.home h).evs.get i {}).parties.any (fun q => q / 2 ^ 28 == 13) then blockDone s n else s
  | none => s

/-- A registration added to a home with the time of its arrival. -/
def addReg (s : State) (h : Nat) (g : Reg) : State :=
  s.modHome h fun r => { r with regs := r.regs ++ [{ g with arr := homeCycles s h, time := s.time }] }

/-- The pending instance of a domain barrier, wherever it is homed (R201). -/
def barrierOf (s : State) (key : Nat × Nat × Nat) : Option (EvRef × Ev) :=
  s.homes.findSome? fun (e : Nat × Resolver) =>
    (e.2.evs.find? fun v => v.2.live && v.2.barrier == some key).map fun v => (⟨e.1, v.1, v.2.gen⟩, v.2)

/-- A barrier offer reaches its home (R201): it joins the pending instance that has the slot as a party; it waits while an instance
without it is pending, or while no index is free; otherwise it creates the instance. -/
def joinBarrier (s : State) (h i slot offId : Nat) (key : Nat × Nat × Nat) (ps : List Nat) : State :=
  let self := selfParty s slot
  let join := fun (t : State) (r : EvRef) =>
    addReg (modOffer (dropMsg t i) slot offId fun o => { o with pos := o.pos.map fun p => { p with ev := r } }) r.home
      ⟨self, r.idx, r.gen, 0, 0, 0, offId, true, 0, 0, 0⟩
  match barrierOf s key with
  | some (r, e) => if e.parties.contains self then join s r else s
  | none =>
    let dead := ps.any fun p => match slotOfParty s p with
      | some m => decide ((s.slot m).st = .lingering)
      | none => false
    let k := (s.slot slot).task
    match newEv s h { parties := ps, barrier := some key, broken := dead, vi := (s.slot slot).vi,
                      launch := (k.map (·.id)).getD 0 } with
    | some (r, t) => join t r
    | none => s

/-- A withdrawal reaches a home (R183): the registrations of the offer are gone, the attempts that use it end, and its slot learns of
it. A barrier offer that waited there is gone too. -/
def takeWithdraw (s : State) (h u offId : Nat) : State :=
  let s1 := ((s.home h).regs.filter fun g => g.offId == offId).foldl (fun t g => failAttempt t h g.idx g.side false) s
  let s2 := { s1 with msgs := s1.msgs.filter fun m => match m.body with
      | .barrier _ o _ _ => o != offId
      | _ => true }
  toUnit (dropRegs s2 h offId) h u (.gone u offId)

/-- Whether the router of home `h` admits an offer of slot `n` or of an agent of it (22 R331): its tenant is enabled and the home within its
reach. The home of the slot's own cluster is reached without a router. -/
def homeAdmits (s : State) (h : Nat) (n : Option Nat) : Bool :=
  n.all fun n => !isWorker n || h == clusterOf n ||
    (if h < 128 then admits s n h else enabledVi s (s.slot n).vi && (decide (132 ≤ h) || dieAdmits s n (h - 128)))

/-- A router has dropped a message of slot `n`'s offer: TENANT is raised there (22 R331). -/
def deny (s : State) (n offId : Nat) : State :=
  if (offerById (s.slot n) offId).isSome then takeTrap s n (raise 0x0D) else s

/-- A message that goes to a home and is no part of a claim takes effect there (R183), if a router does not drop it. -/
def reachHome (s : State) (i h : Nat) (b : MsgBody) : State :=
  match b with
  | .register p j gen side offId single pos role buf =>
    if homeAdmits s h (slotOfParty s p) then
      addReg (blockOffered (dropMsg s i) h j p) h ⟨p, j, gen, side, 0, 0, offId, single, pos, role, buf⟩
    else deny (dropMsg s i) ((slotOfParty s p).getD 0) offId
  | .engine p j gen =>
    if p < 2 ^ 32 ∧ homeAdmits s h (slotOfParty s p) = false then takeTrap (dropMsg s i) ((slotOfParty s p).getD 0) (raise 0x0D)
    else addReg (dropMsg s i) h ⟨p, j, gen, 0, 0, 0, 0, true, 0, 0, 0⟩
  | .barrier slot offId key ps =>
    if homeAdmits s h (some slot) then joinBarrier s h i slot offId key ps else deny (dropMsg s i) slot offId
  | .withdraw u offId => takeWithdraw (dropMsg s i) h u offId
  | .pull p j gen => (dropMsg s i).modHome h fun r =>
      { r with regs := r.regs.filter fun g => !(g.party == p && g.idx == j && g.gen == gen) }
  | _ => s

/-- Whether the offer unit of a slot runs: its cluster is in C0, its die is on (24 R365). A number that is no slot's is of another node. -/
def unitRuns (s : State) (u : Nat) : Bool :=
  if u < 8192 then clusterRuns s (clusterOf u) else decide (8384 ≤ u) || !(s.die (dieOfSlot u)).off

/-- The message with number `i`, where it may be delivered now and its receiver runs. -/
def arriving (s : State) (i : Nat) : Option Msg :=
  (deliverable s i).filter fun m => if goesHome m then decide (1000 ≤ homeDst m) || homeRuns s (homeDst m) else unitRuns s m.dst

/-- OFFER_REGISTRATION (R183): a registration, an engine offer, a barrier offer or a withdrawal reaches its home, or leaves the
package; a slot learns that a home has taken its withdrawal, or that a router has dropped its offer (22 R331). -/
def offerRegistration (i : Nat) (s : State) : State :=
  match arriving s i with
  | none => s
  | some m =>
    match awayNode m with
    | some node => shipAway s i node m
    | none =>
      if goesHome m then reachHome s i (homeDst m) m.body
      else match m.body with
        | .gone n offId => takeGone (dropMsg s i) n offId
        | .denied n offId => deny (dropMsg s i) n offId
        | _ => s

/-- OFFER_REGISTRATION (R183). -/
def execOfferRegistration (i : Nat) (s : State) := event (offerRegistration i) s

/-- Whether claim `a` is older than claim `b` (R184): an earlier stamp, or the same stamp and a lower name. -/
def older (a b : Claim) : Bool := decide (a.stamp < b.stamp ∨ (a.stamp = b.stamp ∧ a.name < b.name))

/-- An answer of the unit of slot `n` leaves for the home of claim `c`; `told` says that a refused home will be told when the offer
is free. -/
def answerClaim (s : State) (n : Nat) (c : Claim) (ok told : Bool) : State :=
  send s ⟨n, homeSrc c.ev.home, .answer c.ev.idx c.side n ok told⟩

/-- A claim refused now, its home to be told when the offer is free (R184). -/
def refuseClaim (s : State) (n offId : Nat) (c : Claim) : State :=
  answerClaim (modOffer s n offId fun o => { o with waiters := o.waiters ++ [c] }) n c false true

/-- The unit of slot `n` answers a claim on offer `offId` (R184); a suspended offer is not free (R190), and that of a slot that is
being pre-empted, or an offer withdrawn, is refused (R189, R191). -/
def takeClaim (s : State) (n offId : Nat) (c : Claim) : State :=
  let x := s.slot n
  match offerById x offId with
  | none => answerClaim s n c false false
  | some o =>
    if o.wdr.isSome || x.dorm.isSome then answerClaim s n c false false
    else if commitSent s n offId then refuseClaim s n offId c
    else if x.susp.any fun q => q.id == offId then refuseClaim s n offId c
    else match o.claim with
      | none => answerClaim (modOffer s n offId fun q => { q with claim := some c }) n c true true
      | some f =>
        if !older c f then refuseClaim s n offId c
        else match o.next with
          | none => send (modOffer s n offId fun q => { q with next := some c })
              ⟨n, homeSrc f.ev.home, .revoke f.ev.idx f.side n⟩
          | some g =>
            if older c g then refuseClaim (modOffer s n offId fun q => { q with next := some c }) n offId g
            else refuseClaim s n offId c

/-- CLAIM (R184): while its slot is held, a claim is neither granted nor refused (R187). -/
def claimStep (i : Nat) (s : State) : State :=
  match arriving s i with
  | none => s
  | some m =>
    match m.body, awayNode m with
    | .claim _ _ _, some node => shipAway s i node m
    | .claim n offId c, none => if heldParty s (selfParty s n) then s else takeClaim (dropMsg s i) n offId c
    | _, _ => s

/-- CLAIM (R184). -/
def execClaim (i : Nat) (s : State) := event (claimStep i) s

/-- The party by which a home knows the unit `u`. -/
def partyOfUnit (s : State) (u : Nat) : Nat := if 2 ^ 32 ≤ u then u - 2 ^ 32 else selfParty s u

/-- A grant or a refusal at the claiming home (R184): after a grant the next offer is claimed; a refusal ends the attempt, and the
event waits for the announcement when one will come. An answer that finds no attempt is released. -/
def takeAnswer (s : State) (h idx side u : Nat) (ok told : Bool) : State :=
  let p := partyOfUnit s u
  match (s.home h).tries.find? fun y => y.idx == idx && y.side == side && !y.waits && y.asked.contains p with
  | none =>
    if ok then toUnit s h u (.release u (offIdOf s h idx p) ⟨h, idx, ((s.home h).evs.get idx {}).gen⟩ side) else s
  | some y =>
    if ok then
      let regs := (s.home h).regs.filter fun g => g.idx == idx && g.side == side
      let next := ((claimed regs).filter fun q => decide (p < q) && !y.asked.contains q).head?
      let s1 := s.modHome h fun r =>
        { r with tries := r.tries.map fun z => if z.idx == idx && z.side == side then
            { z with granted := z.granted ++ [(p, homeCycles s h)], asked := z.asked ++ next.toList } else z }
      match next with
      | some q => askClaim s1 h idx side y.stamp q
      | none => s1
    else failAttempt (s.modHome h fun r =>
        { r with tries := r.tries.map fun z => if z.idx == idx && z.side == side then
            { z with asked := z.asked.filter (· != p) } else z }) h idx side told

/-- CLAIM_ANSWER (R184). -/
def claimAnswer (i : Nat) (s : State) : State :=
  match arriving s i with
  | none => s
  | some m =>
    match m.body, awayNode m with
    | .answer _ _ _ _ _, some node => shipAway s i node m
    | .answer idx side u ok told, none => takeAnswer (dropMsg s i) (homeDst m) idx side u ok told
    | _, _ => s

/-- CLAIM_ANSWER (R184). -/
def execClaimAnswer (i : Nat) (s : State) := event (claimAnswer i) s

/-- CLAIM_REVOKE (R184): a home that has not sent its commit releases every claim of the attempt. -/
def claimRevoke (i : Nat) (s : State) : State :=
  match arriving s i with
  | none => s
  | some m =>
    match m.body, awayNode m with
    | .revoke _ _ _, some node => shipAway s i node m
    | .revoke idx side _, none => failAttempt (dropMsg s i) (homeDst m) idx side false
    | _, _ => s

/-- CLAIM_REVOKE (R184). -/
def execClaimRevoke (i : Nat) (s : State) := event (claimRevoke i) s

/-- A release at the unit of slot `n`: the claim ends; the event that waits behind it is granted, or the homes that were refused
are told (R184). -/
def takeRelease (s : State) (n offId : Nat) (ev : EvRef) (side : Nat) : State :=
  match offerById (s.slot n) offId with
  | none => s
  | some o =>
    if o.claim.any fun c => c.ev == ev && c.side == side then
      match o.next with
      | some c =>
        if o.wdr.isSome then answerClaim (modOffer s n offId fun q => { q with claim := none, next := none }) n c false false
        else answerClaim (modOffer s n offId fun q => { q with claim := some c, next := none }) n c true true
      | none =>
        o.waiters.foldl (fun t c => send t ⟨n, homeSrc c.ev.home, .free c.ev.idx c.side⟩)
          (modOffer s n offId fun q => { q with claim := none, waiters := [] })
    else s

/-- CLAIM_RELEASE (R184). -/
def claimRelease (i : Nat) (s : State) : State :=
  match arriving s i with
  | none => s
  | some m =>
    match m.body, awayNode m with
    | .release _ _ _ _, some node => shipAway s i node m
    | .release n offId ev side, none => takeRelease (dropMsg s i) n offId ev side
    | _, _ => s

/-- CLAIM_RELEASE (R184). -/
def execClaimRelease (i : Nat) (s : State) := event (claimRelease i) s

/-- A commit at the unit of slot `n` (R184): the offer is consumed and its other events are withdrawn. A BROKEN (status 1) that
meets a commit on its way gives way to it (R186, R191). -/
def takeCommit (s : State) (n offId pos status : Nat) : State :=
  match offerById (s.slot n) offId with
  | none => s
  | some o =>
    if status = 1 ∧ commitSent s n offId then s
    else
      completeOffer (sendWithdraw s n o) n offId pos status

/-- COMMIT_NOTIFY (R184). -/
def commitNotify (i : Nat) (s : State) : State :=
  match arriving s i with
  | none => s
  | some m =>
    match m.body, awayNode m with
    | .commit _ _ _ _, some node => shipAway s i node m
    | .commit n offId pos status, none => takeCommit (dropMsg s i) n offId pos status
    | _, _ => s

/-- COMMIT_NOTIFY (R184). -/
def execCommitNotify (i : Nat) (s : State) := event (commitNotify i) s

/-- FREE_ANNOUNCE (R184): the waiting event may be claimed for again. -/
def freeAnnounce (i : Nat) (s : State) : State :=
  match arriving s i with
  | none => s
  | some m =>
    match m.body, awayNode m with
    | .free _ _, some node => shipAway s i node m
    | .free idx side, none => (dropMsg s i).modHome (homeDst m) fun r =>
        { r with tries := r.tries.filter fun y => !(y.idx == idx && y.side == side && y.waits) }
    | _, _ => s

/-- FREE_ANNOUNCE (R184). -/
def execFreeAnnounce (i : Nat) (s : State) := event (freeAnnounce i) s

end Sys2Proof.Machine
end

