-- ==== Sys2Proof/Machine/VecConv.lean ====
section
/-!
DEFINITION. Conversions, block quantisation and the decode tables (06 R102 to R108, R121 to R128).

Readings and choices of the model (log): DESIGN CHOICE 146, 147; DEDUCED 60.
-/

namespace Sys2Proof.Machine

open Sys2Proof

/-- The launch that a slot's tables and rings belong to (06 R106); the slots that run no task of a launch, Mace and Sumac, share one owner
(DEDUCED, log 60). -/
def launchKey (x : Slot) : Nat × Nat := match x.task with
  | some k => (k.vi, k.id)
  | none => (64, 0)

/-- Whether a code names a T8A or T8B format. -/
def isT8 (c : Nat) : Bool := c == 0xD || c == 0xE

/-- One value converted from format `fa` to format `fr` (R102). -/
def convert (fa fr : Nat) (md : Rnd) (x : Nat) : Nat × Nat :=
  match fmtOf fa, fmtOf fr, intFmt fa, intFmt fr with
  | some a, some r, _, _ => fround r md (fdec a x)
  | some a, none, _, some (n, sg) => floatToInt n sg md (fdec a x)
  | none, some r, some (n, sg), _ => intToFloat r md (if sg then sx n x else (x % 2 ^ n : Nat))
  | none, none, some (n, sg), some (m, rg) =>
    let v : Int := if sg then sx n x else (x % 2 ^ n : Nat)
    (wrap m (max (intLo m rg) (min (intHi m rg) v)), 0)
  | _, _, _, _ => (0, 0)

/-- The element loop of R122 for formats of widths `wa` and `wr` and part `p`: the register and the flags. -/
def convLoop (k : Pred) (wa wr p : Nat) (va vd : Vec) (f : Nat → Nat × Nat) : Vec × Nat :=
  let wm := max wa wr
  let n := 1024 / wm
  let rs := (List.range n).map fun j =>
    if active k wm j then some (f (elem wa va (if wa < wr then p * n + j else j))) else none
  let off := if wr < wa then p * n else 0
  let out := (List.range (1024 / wr)).map fun j =>
    if off ≤ j ∧ j < off + n then
      match rs[j - off]? with
      | some (some r) => r.1
      | _ => elem wr vd j
    else elem wr vd j
  (packElems wr out, rs.foldl (fun a r => match r with
    | some q => orFlags a q.2
    | none => a) 0)

/-- The part of R122: below wmax / wmin, which must not be 16. -/
def partOk (wa wr p : Nat) : Bool := max wa wr / min wa wr != 16 && p < max wa wr / min wa wr

/-- VCVT (R102, R122). -/
def execVcvt (d a k p : Nat) (s : State) :=
  formatted (fun t n => do
    let x := t.slot n
    let g ← fmtsNoSr x
    if isT8 g.fa || isT8 g.fr then .error illegal
    else
      let wa := fmtWidth g.fa
      let wr := fmtWidth g.fr
      if !partOk wa wr p then .error illegal
      else vecFlagsDone t n d (convLoop (x.rk k) wa wr p (x.rv a) (x.rv d) (convert g.fa g.fr (modeOf x g)))) s

/-! ### Blocks -/

/-- The formats of block-scaled rows (R104). -/
def blockFmt (c : Nat) : Bool := c == 4 || c == 5 || c == 6 || c == 7 || c == 9

/-- Blocks of a row: three in an 8-bit format, six in a 4-bit one (R104). -/
def blockCount (c : Nat) : Nat := if fmtWidth c = 8 then 3 else 6

/-- Code `j` of block `b` of a row (R104). -/
def rowCode (c : Nat) (v : Vec) (b j : Nat) : Nat := elem (fmtWidth c) v (32 * b + j)

/-- The scale of block `b` of a row (R103, R104). -/
def rowScale (v : Vec) (b : Nat) : Nat := elem 16 v (48 + b) % 2 ^ 12

/-- A row with the codes and the scale of block `b` replaced. -/
def putBlock (c : Nat) (v : Vec) (b sc : Nat) (codes : List Nat) : Vec :=
  let w := fmtWidth c
  let v1 := packElems w ((List.range (1024 / w)).map fun j =>
    if 32 * b ≤ j ∧ j < 32 * b + 32 then codes.getD (j - 32 * b) 0 else elem w v j)
  packElems 16 ((List.range 64).map fun j => if j = 48 + b then sc else elem 16 v1 j)

/-- The rounding of code `j` of block `b`: under stochastic rounding the old content of its place gives ρ (R125). -/
def blockMode (x : Slot) (g : Fmts) (old : Vec) (b j : Nat) : Rnd :=
  if g.rnd = 3 then .sr (rowCode g.fr old b j) (fmtWidth g.fr) else modeOf x g

/-- VQUANT (R125). -/
def execVquant (d a p : Nat) (s : State) :=
  formatted (fun t n =>
    let x := t.slot n
    let g := fmtsOf x
    if g.fa ≠ 0 || !blockFmt g.fr || blockCount g.fr ≤ p then .error illegal
    else
      let v := (elems 32 (x.rv a)).map (fdec fp32)
      let (sc, cs, fl) := quantise g.fr (blockMode x g (x.rv d) p) v
      vecFlagsDone t n d (putBlock g.fr (x.rv d) p sc cs, fl)) s

/-- VDEQ (R126). -/
def execVdeq (d a k p : Nat) (s : State) :=
  formatted (fun t n => do
    let x := t.slot n
    let g ← fmtsNoSr x
    if g.fr ≠ 0 || !blockFmt g.fa || blockCount g.fa ≤ p then .error illegal
    else
      let sc := scaleVal (rowScale (x.rv a) p)
      vecFlagsDone t n d (mergeFlags 32 (x.rk k) (x.rv d) fun j =>
        roundWith fp32 (modeOf x g) (mulV (elemVal g.fa (rowCode g.fa (x.rv a) p j)) sc))) s

/-- One block of VBADD (R127): the exact sums, requantised. DESIGN CHOICE (log 146): the exact sum zero of opposite terms is +0 in every
rounding. -/
def baddBlock (x : Slot) (g : Fmts) (va vb old : Vec) (b : Nat) : Nat × List Nat × Nat :=
  let ys := (List.range 32).map fun j =>
    let (p, f) := mulV (elemVal g.fr (rowCode g.fr va b j)) (scaleVal (rowScale va b))
    let (q, h) := mulV (elemVal g.fr (rowCode g.fr vb b j)) (scaleVal (rowScale vb b))
    let (y, i) := addV false p q
    (y, orFlags f (orFlags h i))
  let (sc, cs, fl) := quantise g.fr (blockMode x g old b) (ys.map Prod.fst)
  (sc, cs, ys.foldl (fun m y => orFlags m y.2) fl)

/-- VBADD (R127): the spare sideband is written as zero. -/
def execVbadd (d a b : Nat) (s : State) :=
  formatted (fun t n =>
    let x := t.slot n
    let g := fmtsOf x
    if !blockFmt g.fr then .error illegal
    else
      let r := (List.range (blockCount g.fr)).foldl (fun (acc : Vec × Nat) i =>
        let (sc, cs, fl) := baddBlock x g (x.rv a) (x.rv b) (x.rv d) i
        (putBlock g.fr acc.1 i sc cs, orFlags acc.2 fl)) ((0 : Vec), 0)
      vecFlagsDone t n d r) s

/-! ### Decode tables -/

/-- The table that a T8 format names. -/
def tableOf (s : State) (n c : Nat) : Table := if c = 0xD then (s.core (coreOf n)).tabA else (s.core (coreOf n)).tabB

/-- The table, or PROT when its owner is not the executing task's launch (R106). -/
def ownTable (s : State) (n c : Nat) : Except Trap Table :=
  let t := tableOf s n c
  if t.owner = some (launchKey (s.slot n)) then .ok t else .error (raise 0x05)

/-- W19. -/
def w19 : Fmt := ⟨19, 10, 127, 255, 0⟩

/-- A table entry as a W19 code. -/
def Table.entry (t : Table) (c : Nat) : Nat := t.entries.get (c % 256) 0

/-- VDEC (R123): the entry, or the entry widened to FP32. -/
def execVdec (d a k p : Nat) (s : State) :=
  formatted (fun t n => do
    let x := t.slot n
    let g ← fmtsNoSr x
    if !isT8 g.fa || !(g.fr == 0 || g.fr == 0xF) || !partOk 8 32 p then .error illegal
    else
      let tb ← ownTable t n g.fa
      vecFlagsDone t n d (convLoop (x.rk k) 8 32 p (x.rv a) (x.rv d) fun c =>
        if g.fr = 0xF then (tb.entry c, 0) else fround fp32 .rne (fdec w19 (tb.entry c)))) s

/-- The search of R124: the largest index found by halving, exactly as written. -/
def encSearch (val : Nat → FVal) (t : FVal) (fuel lo hi : Nat) : Nat :=
  match fuel with
  | 0 => lo
  | k + 1 =>
    if lo < hi then
      let mid := (lo + hi + 1) / 2
      if ltV (val mid) t || eqV (val mid) t then encSearch val t k mid hi else encSearch val t k lo (mid - 1)
    else lo

/-- The distance of two values, as a magnitude. -/
def distV (a b : FVal) : FVal := match (addV false a b.negated).1 with
  | .fin _ m e => .fin false m e
  | .inf _ => .inf false
  | v => v

/-- A value without its sign. -/
def absV (a : FVal) : FVal := match a with
  | .fin _ m e => .fin false m e
  | .inf _ => .inf false
  | v => v

/-- VENC of one value (R124): the code and the flags. DESIGN CHOICE (log 147): what Pick takes of two magnitudes that are
equal, beside an entry that is a NaN, and outside the encode range. -/
def encode8 (tb : Table) (md : Rnd) (x : FVal) (neg : Bool) : Nat × Nat :=
  let lo8 := bits tb.desc 7 0
  let hi8 := bits tb.desc 15 8
  let l := (hi8 + 256 - lo8) % 256 + 1
  let sgn := bit tb.desc 24
  let code := fun i => (lo8 + i) % 256
  let val := fun i => fdec w19 (tb.entry (code i))
  if x.isNan then (bits tb.desc 23 16, flNV)
  else
    let t := if sgn then absV x else x
    let f := encSearch val t 9 0 (l - 1)
    let down := sgn && neg
    let (i, fl) :=
      if ltV t (val 0) then (0, flNX)
      else if ltV (val (l - 1)) t then (l - 1, flOF + flNX)
      else if eqV (val f) t then (f, 0)
      else
        let near := distV t (val f)
        let far := distV (val (f + 1)) t
        let low := ltV (absV (val (f + 1))) (absV (val f))
        let j := match md with
          | .rtz => if low then f + 1 else f
          | .rup => if down && !low then f else f + 1
          | .rdn => if down && !low then f + 1 else f
          | _ =>
            if ltV near far then f
            else if ltV far near then f + 1
            else if code f % 2 = 0 then f else f + 1
        (j, flNX)
    ((if sgn && neg then code i ||| 0x80 else code i), fl)

/-- VENC (R124). -/
def execVenc (d a k p : Nat) (s : State) :=
  formatted (fun t n => do
    let x := t.slot n
    let g ← fmtsNoSr x
    if !isT8 g.fr || !(g.fa == 0 || g.fa == 0xF) || !partOk 32 8 p then .error illegal
    else
      let tb ← ownTable t n g.fr
      let f := if g.fa = 0 then fp32 else w19
      vecFlagsDone t n d (convLoop (x.rk k) 32 8 p (x.rv a) (x.rv d) fun c =>
        encode8 tb (modeOf x g) (fdec f c) (signBit f c))) s

/-- The standard tables that TBLLD can load (R108): the entries and the descriptor. -/
def stdTable (src : Nat) : SMap Nat × Nat :=
  let mk := fun (f : Nat → Nat) => (List.range 256).map fun c => (c, f c)
  match src with
  | 1 => (mk fun c => (fround w19 .rne (fdec ⟨8, 3, 7, 15, 1⟩ c)).1, 0x017F7E00)
  | 2 => (mk fun c => (fround w19 .rne (fdec ⟨8, 2, 15, 31, 0⟩ c)).1, 0x017E7B00)
  | 3 => (mk fun c => (intToFloat w19 .rne (sx 8 c)).1, 0x00007F80)
  | _ => (mk fun c => (intToFloat w19 .rne c).1, 0x0000FF00)

/-- TBLLD: entries, descriptor and owner replaced in one step (R106, R128); the reserved bits of the descriptor are ignored (R108). -/
def execTblld (src tb a b h : Nat) (s : State) :=
  plain (fun t n =>
    let x := t.slot n
    if 5 ≤ src ∨ (src ≠ 0 ∧ (a ≠ 0 ∨ b ≠ 0 ∨ h ≠ 0)) then .error illegal
    else
      let (es, dsc) :=
        if src = 0 then
          ((List.range 256).map fun c => (c, elem 32 (x.rv (a + c / 32)) (c % 32) % 2 ^ 19), (x.rs (h * 32 + b)).toNat % 2 ^ 25)
        else stdTable src
      let new : Table := { entries := es, desc := dsc, owner := some (launchKey x), age := t.nextOff }
      let t1 := { t with nextOff := t.nextOff + 1 }
      .ok (.done (t1.modCore (coreOf n) fun c => if tb = 0 then { c with tabA := new } else { c with tabB := new }))) s

end Sys2Proof.Machine
end

