-- ==== Sys2Proof/Machine/Mxe.lean ====
section
/-!
DEFINITION. The matrix engine: leases (12 R203 to R206), rings (R209 to R212), the command queue (R213, R214), the
instructions of majors 0x30 and 0x31 (R218 to R232), and the steps of the engine and of the lease arbiter.

Readings and choices of the model (log): DESIGN CHOICE 27, 173; DEDUCED 61, 89, 90, 91, 92, 93, 99, 142, 154.
-/

namespace Sys2Proof.Machine

open Sys2Proof

/-- LEASE. -/
def leaseTrap : Trap := raise 0x09
/-- PROT of an engine command that concerns no address. -/
def protTrap : Trap := raise 0x05

/-! ### Leases -/

/-- Whether a lease has run its 1024 cycles (R205). -/
def leaseOver (s : State) (p : Nat) : Bool := 1024 ≤ clusterCycles s p - (s.cluster p).lease.from_

/-- Whether slot `n` holds a live lease (R203, R205). -/
def leaseLive (s : State) (n : Nat) : Bool :=
  (s.cluster (clusterOf n)).lease.holder == some n && !leaseOver s (clusterOf n)

/-- RequireLease: a leased command accepted without a live lease raises LEASE (R205). -/
def requireLease (s : State) (n : Nat) : Except Trap Unit := if leaseLive s n then .ok () else .error leaseTrap

/-- One leased command accepted; the 32nd ends the lease (R205). -/
def countLease (s : State) (n : Nat) : State :=
  s.modCluster (clusterOf n) fun c =>
    let l := c.lease
    { c with lease := if 32 ≤ l.count + 1 then { l with holder := none, count := 0 } else { l with count := l.count + 1 } }

/-- MLEASE (R203, R219). A Mace or Sumac slot has no cluster, so no event of its has the arbiter that R219 asks for. -/
def mlease (e : Nat) (s : State) (n : Nat) : Except Trap Res :=
  let nm := (s.slot n).bound e
  let r := refOfName s n nm
  let p := clusterOf n
  if nm = 0 || !isWorker n then .error eventTrap
  else match evOf s r with
    | none => .error eventTrap
    | some v =>
      let l := (s.cluster p).lease
      if v.parties ≠ [partyOf s 0 n, arbiterParty s p] ∨ v.plan ≠ 0 then .error eventTrap
      else if leaseLive s n ∨ l.reqs.any (fun q => q.1 == n) then .error leaseTrap
      else .ok (.done (s.modCluster p fun c => { c with lease := { c.lease with reqs := c.lease.reqs ++ [(n, r)] } }))

/-- MLEASE (R219). -/
def execMlease (e : Nat) (s : State) := plain (mlease e) s

/-- MFREE (R219). -/
def execMfree (s : State) := plain (fun t n => .ok (.done (dropLease t n))) s

/-- The first requesting position after the pointer, ascending with wrap (R204). -/
def nextRequest (l : Lease) : Option (Nat × EvRef) :=
  ((List.range 64).map fun j => (l.ptr + 1 + j) % 64).findSome? fun q => l.reqs.find? fun e => e.1 % 64 == q

/-- LEASE_GRANT_OFFER (R204): with no live lease and no offer out, withdrawn ones that have still to leave their home among them, the arbiter offers the next request's event; a request that the
dispatcher made on a slot's behalf (home 9000) is granted at once (R206). -/
def leaseGrantOffer (p : Nat) (s : State) : State :=
  let l := (s.cluster p).lease
  if !clusterRuns s p || (l.holder.isSome && !leaseOver s p) || l.offered.isSome || arbiterOut s p then s
  else match nextRequest l with
    | none => s
    | some (n, r) =>
      if r.home = 9000 then s.modCluster p fun c =>
        { c with lease := { l with
            ptr := n % 64, holder := some n, count := 0, from_ := clusterCycles s p, reqs := l.reqs.filter fun e => e.1 != n } }
      else
        let s1 := s.modCluster p fun c =>
          { c with lease := { l with ptr := n % 64, holder := none, count := 0, offered := some (n, clusterCycles s p) } }
        engineOffer s1 (arbiterParty s p) (some r)

/-- LEASE_GRANT_OFFER (R204). -/
def execLeaseGrantOffer (cl : Nat) (s : State) := event (leaseGrantOffer cl) s

/-- LEASE_OFFER_TIMEOUT (R204): 64 cycles after the offer reached the home the arbiter withdraws it; an offer that an event broken
or freed has discarded counts from its sending. -/
def leaseOfferTimeout (p : Nat) (s : State) : State :=
  let l := (s.cluster p).lease
  match l.offered with
  | none => s
  | some (n, sent) =>
    match l.reqs.find? fun e => e.1 == n with
    | none => s.modCluster p fun c => { c with lease := { c.lease with offered := none } }
    | some (_, r) =>
      let party := arbiterParty s p
      let late := match (s.home r.home).regs.find? fun g => g.party == party && g.idx == r.idx && g.gen == r.gen with
        | some g => decide (64 ≤ homeCycles s r.home - g.arr)
        | none => !(s.msgs.any fun m => m.body == .engine party r.idx r.gen) && decide (64 ≤ clusterCycles s p - sent)
      if clusterRuns s p && late then
        send (s.modCluster p fun c => { c with lease := { c.lease with offered := none } })
          ⟨agentSrc party, homeSrc r.home, .pull party r.idx r.gen⟩
      else s

/-- LEASE_OFFER_TIMEOUT (R204). -/
def execLeaseOfferTimeout (cl : Nat) (s : State) := event (leaseOfferTimeout cl) s

/-- LEASE_EXPIRY (R205). -/
def leaseExpiry (p : Nat) (s : State) : State :=
  if (s.cluster p).lease.holder.isSome && leaseOver s p then
    s.modCluster p fun c => { c with lease := { c.lease with holder := none, count := 0 } }
  else s

/-- LEASE_EXPIRY (R205). -/
def execLeaseExpiry (cl : Nat) (s : State) := event (leaseExpiry cl) s

/-! ### Rings -/

/-- Ring `r` of the cluster of slot `n`. -/
def ringOf (s : State) (n r : Nat) : Ring := (s.cluster (clusterOf n)).rings.get r {}

/-- Ring `r` of cluster `p` changed. -/
def modRing (s : State) (p r : Nat) (f : Ring → Ring) : State :=
  s.modCluster p fun c => { c with rings := c.rings.set r (f (c.rings.get r {})) }

/-- A count more by `m`, modulo 2^32. -/
def addCount (a m : Nat) : Nat := (a + m) % 2 ^ 32

/-- The Tarn offset of entry `i` of a ring (R209). -/
def panelOff (r : Ring) (i : Nat) : Nat := r.base + i % r.depth * 8192

/-- Unreserved panels of a ring: P′ − C′ (R211). -/
def unreserved (r : Ring) : Nat := dist32 r.pr r.cr

/-- A ring of the executing task's launch; PROT when another launch owns it (R221, R223). -/
def ownRing (s : State) (n r : Nat) : Except Trap Ring :=
  let g := ringOf s n r
  if g.kind ≠ 0 ∧ g.owner ≠ some (launchKey (s.slot n)) then .error protTrap else .ok g

/-- Panels that a ring stream has pushed (R234). -/
def panelsPushed (t : Stream) : Nat := if t.st = 4 then t.moved / 32 - 1 else t.moved / 32

/-- Whether a copy or stream push into ring `r` that slot `n` issued before `born` has not completed (R211); a stream's push is issued
with its 32nd beat. -/
def pushPending (s : State) (n r born : Nat) : Bool :=
  ((s.cluster (clusterOf n)).copies.any fun e => e.2.any fun c =>
    c.slot == n && c.dkind == 1 && c.ring == r && c.st != 4 && decide (c.born < born)) ||
  (s.slot n).streams.any fun e =>
    e.2.kind == 1 && e.2.ring == r && (e.2.st == 1 || e.2.st == 4) && (e.2.given.drop (panelsPushed e.2)).any (· < born)

/-- Whether `m` unreserved panels are there: RING when they are not and no push of the slot is under way; `false` says that the
command is interlocked (R211). -/
def panelsReady (s : State) (n r m : Nat) : Except Trap Bool :=
  if m ≤ unreserved (ringOf s n r) then .ok true
  else if pushPending s n r ((s.slot n).instret + 1) then .ok false
  else .error ringTrap

/-! ### Acceptance -/

/-- The agents of a cluster serve its slots only: an engine instruction on a Mace or Sumac slot is ILLEGAL (log 27). -/
def clusterSlot (n : Nat) : Except Trap Unit := if isWorker n then .ok () else .error illegal

/-- A matrix operation on other physical tiles (R208). -/
def MxOp.retile (o : MxOp) (g : Nat → Nat) : MxOp :=
  match o with
  | .mma keep acc ra rb fa fb fr bsm => .mma keep (g acc) ra rb fa fb fr bsm
  | .mzero acc => .mzero (g acc)
  | .mlda acc off => .mlda (g acc) off
  | .msta acc off fr rnd => .msta (g acc) off fr rnd
  | _ => o

/-- An accepted command whose task has been granted the tiles `new` for its tiles `old` (R208, R215). -/
def MxCmd.retile (c : MxCmd) (old new : List Nat) : MxCmd :=
  let g := fun (t : Nat) => new.getD (old.idxOf t) t
  { c with op := c.op.retile g, tiles := c.tiles.map g }

/-- Whether the command queue of the slot's cluster has no room for a command of the slot (R213): it is full, or earlier commands of the slot
wait for room (R215; log 154). -/
def mxFull (s : State) (n : Nat) : Bool := decide (64 ≤ (s.cluster (clusterOf n)).mx.length) ||
    (!(s.slot n).inh && !(s.slot n).held.isEmpty)

/-- The first `k` held commands of a slot whose task goes on enter the queue of its cluster (R215). -/
def queueHeld (s : State) (n k : Nat) : State :=
  let l := (s.slot n).held
  (s.modCluster (clusterOf n) fun c => { c with mx := c.mx ++ (l.take k).map fun m => { m with slot := n } }).modSlot n fun x =>
    { x with held := l.drop k }

/-- Held commands of slots whose tasks have gone on enter the queue of cluster `p` as far as it has room (R213, R215). -/
def admitHeld (s : State) (p : Nat) : State :=
  (List.range 64).foldl (fun t j =>
    let n := 64 * p + j
    if (t.slot n).held.isEmpty || (t.slot n).inh then t else queueHeld t n (64 - (t.cluster p).mx.length)) s

/-- A command accepted at the end of the queue (R213). -/
def acceptMx (s : State) (n : Nat) (op : MxOp) (tiles : List Nat) (ev : Option EvRef) : State :=
  let x := s.slot n
  s.modCluster (clusterOf n) fun c =>
    { c with mx := c.mx ++
      [⟨op, n, tiles, x.pc, ev, x.instret, (s.core (coreOf n)).tabA, (s.core (coreOf n)).tabB⟩] }

/-- The tiles of a slot's task, in its own naming (R207). -/
def tilesOf (x : Slot) : List Nat := (x.task.map (·.tiles)).getD []

/-- s of the wide mode that the accepted commands leave (R227). -/
def wideOf (x : Slot) : Option Nat := x.task.bind (·.wide)

/-- Wide mode as the accepted commands leave it. -/
def setWide (s : State) (n : Nat) (w : Option Nat) : State :=
  s.modSlot n fun x => { x with task := x.task.map fun k => { k with wide := w } }

/-- Wide mode as the executed commands leave it. -/
def setWideNow (s : State) (n : Nat) (w : Option Nat) : State :=
  s.modSlot n fun x => { x with task := x.task.map fun k => { k with wideNow := w } }

/-- The tile `acc`, PROT when the task does not hold it, or when it is part of a wide tile (R223). -/
def plainTile (x : Slot) (acc : Nat) : Except Trap Nat :=
  match (tilesOf x)[acc]? with
  | none => .error protTrap
  | some t => if (wideOf x).isSome then .error protTrap else .ok t

/-- The offset of an own-Tarn window block of `len` bytes at `ea`, 128-byte aligned (R223). -/
def tarnBlock (ea len align : Nat) : Except Trap Nat :=
  let o := ea % 2 ^ 52 - winBase
  if ea % align ≠ 0 then .error (accTrap 0x03 ea 8 len 0)
  else if ea % 2 ^ 52 < winBase ∨ o < 0x1000000 ∨ 0x1400000 < o + len then .error (accTrap 0x05 ea 8 len 0)
  else .ok (o - 0x1000000)

/-! ### The queue's own instructions -/

/-- Whether an accepted command names ring `r` (R220). -/
def namesRing (r : Nat) (c : MxCmd) : Bool :=
  match c.op with
  | .mrpub n _ => n == r
  | .mrpop n _ => n == r
  | .mma _ _ ra rb _ _ _ _ => ra == r || rb == r
  | .msplit _ _ n _ => n == r
  | .msmm par _ _ _ _ => bits par 3 0 == r || bits par 7 4 == r
  | _ => false

/-- The commands that are held for slots of cluster `p`, in them or in the contexts of their tasks (R215). -/
def heldCommands (s : State) (p : Nat) : List MxCmd :=
  (s.slots.filter fun (e : Nat × Slot) => isWorker e.1 && clusterOf e.1 == p).flatMap (fun e => e.2.held) ++
    (s.pre.filter fun e => clusterOf e.home == p && (e.out || (s.slot e.home).inh)).flatMap fun e => e.slot.held

/-- Whether a configuration word breaks R209 or R143: KIND 11, a reserved bit, a misplaced BASE, an end past the Tarn. -/
def ringBad (w : Nat) : Bool :=
  let k := bits w 63 62
  let b := bits w 21 0
  let d := bits w 39 32
  k == 3 || bits w 61 40 != 0 || bits w 31 22 != 0 || (k == 1 && b % 8192 != 0) || (k == 2 && b % 8192 != 4096) ||
    (k != 0 && decide (2 ^ 22 < b + d * 8192 + 4096))

/-- MRING (R220). -/
def mring (a r : Nat) (s : State) (n : Nat) : Except Trap Res := do
  clusterSlot n
  let x := s.slot n
  let w := (x.rs a).toNat
  let c := s.cluster (clusterOf n)
  if ringBad w then .error ringTrap
  else
    let _ ← ownRing s n r
    if (c.mx ++ heldCommands s (clusterOf n)).any (namesRing r) then .ok (.wait s .busy)
    else .ok (.done (modRing s (clusterOf n) r fun _ =>
      if bits w 63 62 = 0 then {}
      else { kind := bits w 63 62, depth := bits w 39 32 + 1, base := bits w 21 0, owner := some (launchKey x) }))

/-- MRING (R220). -/
def execMring (a n : Nat) (s : State) := plain (released (mring a n)) s

/-- The counts that MRPUB and MRPOP write to s[d] (R221). -/
def ringWord (r : Ring) : Word := BitVec.ofNat 64 (r.cr * 2 ^ 32 + r.pr)

/-- MRPUB and MRPOP (R221). -/
def mrCount (pub : Bool) (d a r : Nat) (s : State) (n : Nat) : Except Trap Res := do
  clusterSlot n
  let m := ((s.slot n).rs a).toNat % 2 ^ 32
  let g := ringOf s n r
  if mxFull s n then .ok (.wait s .busy)
  else if g.kind = 0 ∨ g.owner ≠ some (launchKey (s.slot n)) then .error protTrap
  else if m = 0 ∨ 256 < m then .error ringTrap
  else
    let go := fun (f : Ring → Ring) (op : MxOp) =>
      let s1 := acceptMx (modRing s (clusterOf n) r f) n op [] none
      writeDone s1 n d (ringWord (f g))
    if pub then
      if g.depth < unreserved g + m then .error ringTrap
      else go (fun q => { q with pr := addCount q.pr m }) (.mrpub r m)
    else
      let ready ← panelsReady s n r m
      if !ready then .ok (.wait s .busy)
      else go (fun q => { q with cr := addCount q.cr m }) (.mrpop r m)

/-- MRPUB (R221). -/
def execMrpub (d a n : Nat) (s : State) := plain (released (mrCount true d a n)) s

/-- MRPOP (R221). -/
def execMrpop (d a n : Nat) (s : State) := plain (released (mrCount false d a n)) s

/-! ### Matrix products -/

/-- The class of an operand format of MMA (R222): 4, 8 or 16 bits, 0 for every other. -/
def mmaClass (c : Nat) : Nat :=
  if c = 6 ∨ c = 9 then 4
  else if c = 4 ∨ c = 5 ∨ c = 7 ∨ c = 8 ∨ c = 0xD ∨ c = 0xE then 8
  else if c = 2 ∨ c = 3 ∨ c = 0xA then 16
  else 0

/-- Whether a format code is an integer format. -/
def isIntFmt (c : Nat) : Bool := (intFmt c).isSome

/-- CheckFormats of MMA (R222, R223). -/
def mmaFormats (g : Fmts) : Except Trap Unit :=
  let w := mmaClass g.fa
  if w = 0 ∨ mmaClass g.fb ≠ w ∨ (g.fr ≠ 0 ∧ g.fr ≠ 0xB) ∨ 3 < g.bsm ∨ (g.bsm ≠ 0 ∧ w = 16) ∨
      (g.fr = 0xB ∧ (g.bsm ≠ 0 ∨ isIntFmt g.fa = false ∨ isIntFmt g.fb = false)) then .error illegal
  else .ok ()

/-- MMA and MMAH at acceptance (R222, R223). -/
def mmaOp (hold : Bool) (x e ra acc rb : Nat) (s : State) (n : Nat) : Except Trap Res := do
  clusterSlot n
  let y := s.slot n
  let g ← fmtsNoSr y
  let ev ← eventField s n x e 3
  if mxFull s n then .ok (.wait s .busy)
  else
    requireLease s n
    let tile ← plainTile y acc
    mmaFormats g
    if isT8 g.fa then (ownTable s n g.fa).map fun _ => () else .ok ()
    if isT8 g.fb then (ownTable s n g.fb).map fun _ => () else .ok ()
    let a ← ownRing s n ra
    let b ← ownRing s n rb
    if a.kind ≠ 1 ∨ b.kind ≠ 2 then .error ringTrap
    else
      let okA ← panelsReady s n ra 1
      let okB ← panelsReady s n rb 1
      if !okA || !okB then .ok (.wait s .busy)
      else
        let p := clusterOf n
        let s1 := modRing s p ra fun q => { q with cr := addCount q.cr 1 }
        let s2 := if hold then s1 else modRing s1 p rb fun q => { q with cr := addCount q.cr 1 }
        .ok (.done (countLease (acceptMx s2 n (.mma hold tile ra rb g.fa g.fb g.fr g.bsm) [tile] ev) n))

/-- MMA (R222). -/
def execMma (x e r c s : Nat) (t : State) := formatted (released (mmaOp false x e r c s)) t

/-- MMAH (R222). -/
def execMmah (x e r c s : Nat) (t : State) := formatted (released (mmaOp true x e r c s)) t

/-- MZERO (R223). -/
def mzero (x e acc : Nat) (s : State) (n : Nat) : Except Trap Res := do
  clusterSlot n
  let y := s.slot n
  let ev ← eventField s n x e 3
  if mxFull s n then .ok (.wait s .busy)
  else
    requireLease s n
    match (tilesOf y)[acc]? with
    | none => .error protTrap
    | some t =>
      let ts := if (wideOf y).isSome then tilesOf y else [t]
      .ok (.done (countLease (acceptMx (setWide s n none) n (.mzero t) ts ev) n))

/-- MZERO (R223). -/
def execMzero (x e c : Nat) (s : State) := plain (released (mzero x e c)) s

/-- MLDA (R223). -/
def mlda (x e acc b : Nat) (s : State) (n : Nat) : Except Trap Res := do
  clusterSlot n
  let y := s.slot n
  let ev ← eventField s n x e 3
  if mxFull s n then .ok (.wait s .busy)
  else
    requireLease s n
    let tile ← plainTile y acc
    let off ← tarnBlock (y.rs b).toNat 4096 128
    .ok (.done (countLease (acceptMx s n (.mlda tile off) [tile] ev) n))

/-- MLDA (R223). -/
def execMlda (x e c b : Nat) (s : State) := plain (released (mlda x e c b)) s

/-- The code of the rounding mode in force (R71, R77). -/
def rndCode (y : Slot) (g : Fmts) : Nat := if g.rnd = 1 then 0 else if g.rnd = 2 then 1 else y.rmode.toNat % 4

/-- MSTA (R223). -/
def msta (x e acc b : Nat) (s : State) (n : Nat) : Except Trap Res := do
  clusterSlot n
  let y := s.slot n
  let g ← fmtsNoSr y
  let ev ← eventField s n x e 3
  if mxFull s n then .ok (.wait s .busy)
  else
    requireLease s n
    let tile ← plainTile y acc
    if g.fr ≠ 0 ∧ g.fr ≠ 0xB ∧ g.fr ≠ 3 ∧ g.fr ≠ 2 then .error illegal
    else
      let off ← tarnBlock (y.rs b).toNat (if g.fr = 0 ∨ g.fr = 0xB then 4096 else 2048) 128
      .ok (.done (countLease (acceptMx s n (.msta tile off g.fr (rndCode y g)) [tile] ev) n))

/-- MSTA (R223). -/
def execMsta (x e c b : Nat) (s : State) := formatted (released (msta x e c b)) s

/-! ### Slices -/

/-- Bytes of an element of an operand of MSCALE and MSPLIT (R225). -/
def sliceElem (fa : Nat) : Nat := if fa = 1 then 8 else 4

/-- The Tarn offset of element (i, k) that a slice descriptor block describes (R225). -/
def sdbElem (sdb i k : Nat) : Int :=
  (bits sdb 21 0 : Int) + i * sx 32 (sdb / 2 ^ 64) + k * sx 32 (sdb / 2 ^ 96)

/-- Rows, elements per row, offset of the exponents. -/
def sdbRows (sdb : Nat) : Nat := bits sdb 52 48 + 1
/-- Elements per row. -/
def sdbK (sdb : Nat) : Nat := bits (sdb / 2 ^ 128) 16 0
/-- Offset of the exponents. -/
def sdbExp (sdb : Nat) : Nat := bits (sdb / 2 ^ 192) 21 0

/-- Whether R225 or R232 refuses a slice descriptor block for elements of `w` bytes. So does a SRC that is no multiple of `w` (DESIGN CHOICE,
log 173). -/
def sdbBad (sdb w : Nat) : Bool :=
  let k := sdbK sdb
  let out := fun i j => let o := sdbElem sdb i j
    decide (o < 0 ∨ (2 ^ 22 : Int) < o + w)
  let r := sdbRows sdb - 1
  bits sdb 63 53 != 0 || bits sdb 47 22 != 0 || bits (sdb / 2 ^ 128) 63 17 != 0 || bits (sdb / 2 ^ 192) 63 22 != 0 ||
    k == 0 || decide (65536 < k) || bits sdb 21 0 % w != 0 || sx 32 (sdb / 2 ^ 64) % w != 0 || sx 32 (sdb / 2 ^ 96) % w != 0 ||
    sdbExp sdb % 64 != 0 || decide (2 ^ 22 < sdbExp sdb + 64) || out 0 0 || out r 0 || out 0 (k - 1) || out r (k - 1)

/-- The slice descriptor block at `ea`, read at acceptance (R225, R232). -/
def readSdb (s : State) (n ea : Nat) : Except Trap (Nat × State) := do
  let off ← tarnBlock ea 32 8
  let (bs, s1) ← loadCells s n ea 1 0 ((List.range 32).map fun j => tarnBase (clusterOf n) + off + j)
  .ok (numOf bs, s1)

/-- MSCALE at acceptance (R226, R232). -/
def mscale (x e a : Nat) (s : State) (n : Nat) : Except Trap Res := do
  clusterSlot n
  let y := s.slot n
  let g ← fmtsNoSr y
  let ev ← eventField s n x e 3
  if mxFull s n then .ok (.wait s .busy)
  else if 1 < g.fa then .error illegal
  else
    requireLease s n
    let (sdb, s1) ← readSdb s n (y.rs a).toNat
    if sdbBad sdb (sliceElem g.fa) then .error ringTrap
    else .ok (.done (countLease (acceptMx s1 n (.mscale sdb g.fa) [] ev) n))

/-- MSCALE (R226). -/
def execMscale (x e a : Nat) (s : State) := formatted (released (mscale x e a)) s

/-- K blocks of 96 elements (R226). -/
def kBlocks (k : Nat) : Nat := (k + 95) / 96

/-- MSPLIT at acceptance (R211, R226, R232). -/
def msplit (x e a b : Nat) (s : State) (n : Nat) : Except Trap Res := do
  clusterSlot n
  let y := s.slot n
  let g ← fmtsNoSr y
  let ev ← eventField s n x e 3
  let w := (y.rs b).toNat
  let r := w % 16
  let k := bits w 10 8 + 1
  if mxFull s n then .ok (.wait s .busy)
  else if 1 < g.fa then .error illegal
  else
    requireLease s n
    let (sdb, s1) ← readSdb s n (y.rs a).toNat
    let q ← ownRing s n r
    let m := k * kBlocks (sdbK sdb)
    if sdbBad sdb (sliceElem g.fa) ∨ (g.fa = 0 ∧ 4 < k) ∨ bits w 63 11 ≠ 0 ∨ bits w 7 4 ≠ 0 ∨ q.kind = 0 ∨
        q.depth < unreserved q + m then .error ringTrap
    else
      let s2 := modRing s1 (clusterOf n) r fun q => { q with pr := addCount q.pr m }
      .ok (.done (countLease (acceptMx s2 n (.msplit sdb g.fa r k) [] ev) n))

/-- MSPLIT (R226). -/
def execMsplit (x e a b : Nat) (s : State) := formatted (released (msplit x e a b)) s

/-- Bytes of a pass save area, and of an accumulator save area (R208, R228). -/
def saveSize : Nat := 16512

/-- s of an MSMM parameter word (R228). -/
def parS (par : Nat) : Nat := bits par 10 8 + 1

/-- MSMM at acceptance (R228). -/
def msmm (x e a b : Nat) (s : State) (n : Nat) : Except Trap Res := do
  clusterSlot n
  let y := s.slot n
  let ev ← eventField s n x e 3
  let par := (y.rs a).toNat
  let ea := (y.rs b).toNat
  let k := parS par
  if mxFull s n then .ok (.wait s .busy)
  else
    requireLease s n
    if (tilesOf y).length < 4 ∨ (bit par 11 ∧ wideOf y ≠ some k) then .error protTrap
    else if bits par 63 26 ≠ 0 ∨ bits par 15 12 ≠ 0 then .error ringTrap
    else
      let ra ← ownRing s n (bits par 3 0)
      let rb ← ownRing s n (bits par 7 4)
      if ra.kind ≠ 1 ∨ rb.kind ≠ 2 ∨ ra.depth < k ∨ rb.depth < k then .error ringTrap
      else if ea % 128 ≠ 0 then .error (accTrap 0x03 ea 2 saveSize 0)
      else
        let cells ← localCells s n y.mode ea saveSize 2 0
        if cells.any fun c => !isDev c then .error (accTrap 0x05 ea 2 saveSize 0)
        else
          let okA ← panelsReady s n (bits par 3 0) k
          let okB ← panelsReady s n (bits par 7 4) k
          if !okA || !okB then .ok (.wait s .busy)
          else
            let p := clusterOf n
            let adv := fun (t : State) (r : Nat) => modRing t p r fun q => { q with cr := addCount q.cr k }
            let s1 := setWide (adv (adv s (bits par 3 0)) (bits par 7 4)) n (some k)
            .ok (.done (countLease (acceptMx s1 n (.msmm par ea 0 0 false) (tilesOf y) ev) n))

/-- MSMM (R228). -/
def execMsmm (x e a b : Nat) (s : State) := plain (released (msmm x e a b)) s

/-- MSFIN at acceptance (R230, R232). -/
def msfin (x e a b : Nat) (s : State) (n : Nat) : Except Trap Res := do
  clusterSlot n
  let y := s.slot n
  let g ← fmtsNoSr y
  let ev ← eventField s n x e 3
  let wa := (y.rs a).toNat
  let wb := (y.rs b).toNat
  if mxFull s n then .ok (.wait s .busy)
  else if 1 < g.fr then .error illegal
  else
    requireLease s n
    match wideOf y with
    | none => .error protTrap
    | some k =>
      let out := bits wa 21 0
      let ea := bits wb 21 0
      let eb := bits wb 53 32
      if bits wa 63 22 ≠ 0 ∨ bits wb 63 54 ≠ 0 ∨ bits wb 31 22 ≠ 0 ∨ out % 128 ≠ 0 ∨ ea % 64 ≠ 0 ∨ eb % 64 ≠ 0 ∨
          2 ^ 22 < out + 1024 * sliceElem g.fr ∨ 2 ^ 22 < ea + 64 ∨ 2 ^ 22 < eb + 64 then .error ringTrap
      else
        let s1 := setWide s n none
        .ok (.done (countLease (acceptMx s1 n (.msfin out ea eb g.fr (rndCode y g) k) (tilesOf y) ev) n))

/-- MSFIN (R230). -/
def execMsfin (x e a b : Nat) (s : State) := formatted (released (msfin x e a b)) s

/-! ### Execution -/

/-- `len` bytes of the Tarn of slot `n`'s cluster as the engine reads them for the command issued at `pc` (R144). -/
def tarnRead (s : State) (n pc off len : Nat) : Except Trap (List Nat × State) :=
  loadCells s n (winBase + 0x1000000 + off) 4 0 ((List.range len).map fun j => tarnBase (clusterOf n) + off + j) (some pc)

/-- Bytes of the Tarn of slot `n`'s cluster written by the engine for the command issued at `pc` (R144). -/
def tarnWrite (s : State) (n pc off : Nat) (data : List Nat) : State :=
  performStore s n (winBase + 0x1000000 + off) 5 0 (some pc)
    ((List.range data.length).map fun j => tarnBase (clusterOf n) + off + j) data

/-- Row `i` of a panel (R143). -/
def panelRow (bs : List Nat) (i : Nat) : Vec := BitVec.ofNat 1024 (numOf ((bs.drop (128 * i)).take 128))

/-- The value of an operand element (R222): T8A and T8B through the tables of the command. -/
def opValue (c : MxCmd) (code x : Nat) : FVal :=
  if code = 0xD then fdec w19 (c.tabA.entry x) else if code = 0xE then fdec w19 (c.tabB.entry x) else elemVal code x

/-- Element `k` of a row with its scale, as factors (R222). -/
def opFactors (c : MxCmd) (code : Nat) (scaled : Bool) (row : Vec) (k : Nat) : List FVal :=
  opValue c code (elem (mmaClass code) row k) :: (if scaled then [scaleVal (rowScale row (k / 32))] else [])

/-- The exact product of factors, with the flag of 0 × ∞ (R109). -/
def exactProduct (l : List FVal) : FVal × Nat :=
  if l.any FVal.isNan then (.nan false, 0)
  else l.foldl (fun a v => let r := mulV a.1 v; (r.1, orFlags a.2 r.2)) (.fin false 1 0, 0)

/-- The integer that an element of an integer format stands for. -/
def elemInt (code x : Nat) : Int :=
  match elemVal code x with
  | .fin b m _ => if b then -(m : Int) else m
  | _ => 0

/-- Elements of a row in a class (R222). -/
def rowLen (w : Nat) : Nat := 768 / w

/-- One element of the product of two panels with the tile's element `t`: value and flags (R222). -/
def mmaElem (c : MxCmd) (fa fb fr bsm : Nat) (ra rb : Vec) (t : Nat) : Nat × Nat :=
  let w := mmaClass fa
  let ks := List.range (rowLen w)
  if fr = 0 then
    dotSum (ks.map fun k => exactProduct (opFactors c fa (bit bsm 0) ra k ++ opFactors c fb (bit bsm 1) rb k)) (fdec fp32 t)
  else (wrap 32 (ks.foldl (fun a k => a + elemInt fa (elem w ra k) * elemInt fb (elem w rb k)) (t : Int)), 0)

/-- The cell of element (i, j) of a tile (R207). -/
def tileCell (p tile i j : Nat) : Nat := accBase p tile + 4 * (32 * i + j)

/-- The pairs (i, j) of a tile, in image order. -/
def tilePairs : List (Nat × Nat) := (List.range 32).flatMap fun i => (List.range 32).map fun j => (i, j)

/-- MMA executed (R222): the flags and the state. -/
def runMma (s : State) (p : Nat) (c : MxCmd) (hold : Bool) (tile ra rb fa fb fr bsm : Nat) : Except Trap (Nat × State) := do
  let ga := (s.cluster p).rings.get ra {}
  let gb := (s.cluster p).rings.get rb {}
  let (a, s1) ← tarnRead s c.slot c.pc (panelOff ga ga.c) 4096
  let (b, s2) ← tarnRead s1 c.slot c.pc (panelOff gb gb.c) 4096
  let r := tilePairs.foldl (fun (acc : Nat × State) ij =>
    let q := tileCell p tile ij.1 ij.2
    let (v, fl) := mmaElem c fa fb fr bsm (panelRow a ij.1) (panelRow b ij.2) (acc.2.raw q 4)
    (orFlags acc.1 fl, acc.2.setRaw q 4 v)) (0, s2)
  let s3 := modRing r.2 p ra fun q => { q with c := addCount q.c 1 }
  .ok (r.1, if hold then s3 else modRing s3 p rb fun q => { q with c := addCount q.c 1 })

/-- MSTA executed (R223). -/
def runMsta (s : State) (p n pc tile off fr rnd : Nat) : Nat × State :=
  let base := accBase p tile
  if fr = 0 ∨ fr = 0xB then (0, tarnWrite s n pc off (bytesOf 4096 (s.raw base 4096)))
  else
    let f : Fmt := if fr = 3 then bf16 else ⟨16, 10, 15, 31, 0⟩
    let rs := (List.range 1024).map fun k => fround f (rndOf rnd) (fdec fp32 (s.raw (base + 4 * k) 4))
    (rs.foldl (fun a r => orFlags a r.2) 0, tarnWrite s n pc off (rs.flatMap fun r => bytesOf 2 r.1))

/-- The elements of row `i` of a slice operand (R225). -/
def sdbRow (s : State) (n pc sdb fa i : Nat) : Except Trap (List FVal × State) :=
  let w := sliceElem fa
  let cells := (List.range (sdbK sdb)).flatMap fun k =>
    (List.range w).map fun j => tarnBase (clusterOf n) + (sdbElem sdb i k).toNat + j
  (loadCells s n (winBase + 0x1000000 + bits sdb 21 0) 4 0 cells (some pc)).map fun r =>
    ((List.range (sdbK sdb)).map fun k => fdec (if fa = 1 then fp64 else fp32) (numOf ((r.1.drop (k * w)).take w)), r.2)

/-- Whether a value is finite. -/
def FVal.isFin (v : FVal) : Bool := match v with
  | .fin _ _ _ => true
  | _ => false

/-- The scale exponent of a row (R226), as 16 bits. -/
def rowExp (l : List FVal) : Nat :=
  if l.any fun v => !v.isFin then 0x7FFF
  else match l.filterMap fun v => match v with
      | .fin _ m e => if m = 0 then none else some (magLog m e)
      | _ => none with
    | [] => 0
    | x :: t => wrap 16 (t.foldl max x + 2)

/-- MSCALE executed (R226). -/
def runMscale (s : State) (n pc sdb fa : Nat) : Except Trap State := do
  let (es, s1) ← (List.range (sdbRows sdb)).foldlM (fun (acc : List Nat × State) i =>
    (sdbRow acc.2 n pc sdb fa i).map fun r => (acc.1 ++ [rowExp r.1], r.2)) ([], s)
  .ok (tarnWrite s1 n pc (sdbExp sdb) ((es ++ List.replicate (32 - es.length) 0).flatMap (bytesOf 2)))

/-- The digits d_1 to d_s of a value split with scale exponent α (R224). -/
def digits (α : Int) (w : Nat) (v : FVal) : List Int :=
  match v with
  | .fin neg m e =>
    let g : Nat := max (α - e).toNat (7 * w + 1)
    let x0 : Int := (if neg then -(m : Int) else m) * (2 : Int) ^ (((g : Int) + e - α).toNat)
    ((List.range w).foldl (fun (acc : Int × List Int) (t : Nat) =>
      let q := (roundAt .rne (decide (acc.1 < 0)) acc.1.natAbs (7 * ((t : Int) + 1) - g) 0).1
      let d : Int := if acc.1 < 0 then -(q : Int) else q
      (acc.1 - d * (2 : Int) ^ (g - 7 * (t + 1)), acc.2 ++ [d])) (x0, [])).2
  | _ => List.replicate w 0

/-- Whether a row may be split with exponent α (R226): every element is finite and below 2^(α − 1). -/
def splittable (α : Int) (l : List FVal) : Bool :=
  l.all fun v => match v with
    | .fin _ m e => m == 0 || decide (magLog m e < α - 1)
    | _ => false

/-- The 128 bytes of row `i` of digit panel `t` (from 0) of K block `kb` (R224). -/
def digitRow (ds : List (List Int)) (kb t : Nat) : List Nat :=
  ((List.range 96).map fun c => wrap 8 (((ds[96 * kb + c]?).getD []).getD t 0)) ++ List.replicate 32 0

/-- MSPLIT executed (R226). -/
def runMsplit (s : State) (p n pc sdb fa r w : Nat) : Except Trap State := do
  let (eb, s1) ← tarnRead s n pc (sdbExp sdb) 64
  let exps := (List.range 32).map fun i => numOf ((eb.drop (2 * i)).take 2)
  let (rows, s2) ← (List.range (sdbRows sdb)).foldlM (fun (acc : List (Bool × List (List Int)) × State) i =>
    (sdbRow acc.2 n pc sdb fa i).map fun q =>
      let α := sx 16 (exps.getD i 0)
      let ok := exps.getD i 0 != 0x7FFF && splittable α q.1
      (acc.1 ++ [(ok, if ok then q.1.map (digits α w) else [])], q.2)) ([], s1)
  let newExps := (List.range 32).map fun i =>
    match rows[i]? with
    | some (false, _) => 0x7FFF
    | _ => exps.getD i 0
  let s3 := if newExps = exps then s2 else tarnWrite s2 n pc (sdbExp sdb) (newExps.flatMap (bytesOf 2))
  .ok ((List.range (kBlocks (sdbK sdb))).foldl (fun t kb => (List.range w).foldl (fun u d =>
    let g := (u.cluster p).rings.get r {}
    let data := (List.range 32).flatMap fun i => digitRow ((rows[i]?.map Prod.snd).getD []) kb d
    modRing (tarnWrite u n pc (panelOff g g.p) data) p r fun q => { q with p := addCount q.p 1 }) t) s3)

/-- The cell of W_ij (R227). -/
def wideCell (p : Nat) (tiles : List Nat) (i j : Nat) : Nat :=
  let o := 16 * (32 * i + j)
  accBase p (tiles.getD (o / 4096) 0) + o % 4096

/-- Tiles read as zero. -/
def zeroTiles (s : State) (p : Nat) (tiles : List Nat) : State :=
  tiles.foldl (fun t a => clearRange t (accBase p a) 4096) s

/-- MSFIN executed (R230). -/
def runMsfin (s : State) (p : Nat) (c : MxCmd) (out ea eb fr rnd w : Nat) : Except Trap (Nat × State) := do
  let (ba, s1) ← tarnRead s c.slot c.pc ea 64
  let (bb, s2) ← tarnRead s1 c.slot c.pc eb 64
  let f := if fr = 1 then fp64 else fp32
  let e16 := fun (b : List Nat) (i : Nat) => numOf ((b.drop (2 * i)).take 2)
  let rs := tilePairs.map fun ij =>
    let α := e16 ba ij.1
    let β := e16 bb ij.2
    if α = 0x7FFF ∨ β = 0x7FFF then (canonNaN f, flNV)
    else
      let x := sx 128 (s2.raw (wideCell p c.tiles ij.1 ij.2) 16)
      roundFin f (rndOf rnd) (decide (x < 0)) x.natAbs (sx 16 α + sx 16 β - 7 * ((w : Int) + 1))
  let s3 := tarnWrite s2 c.slot c.pc out (rs.flatMap fun r => bytesOf (sliceElem fr) r.1)
  .ok (rs.foldl (fun a r => orFlags a r.2) 0, setWideNow (zeroTiles s3 p c.tiles) c.slot none)

/-- What the execution of an accepted command other than MSMM does: its flags and the state (R213, R221 to R230). -/
def runMx (s : State) (p : Nat) (c : MxCmd) : Except Trap (Nat × State) :=
  match c.op with
  | .mrpub r m => .ok (0, modRing s p r fun q => { q with p := addCount q.p m })
  | .mrpop r m => .ok (0, modRing s p r fun q => { q with c := addCount q.c m })
  | .mma hold tile ra rb fa fb fr bsm => runMma s p c hold tile ra rb fa fb fr bsm
  | .mzero _ => .ok (0, setWideNow (zeroTiles s p c.tiles) c.slot none)
  | .mlda tile off => (tarnRead s c.slot c.pc off 4096).map fun r => (0, r.2.setRaw (accBase p tile) 4096 (numOf r.1))
  | .msta tile off fr rnd => .ok (runMsta s p c.slot c.pc tile off fr rnd)
  | .mscale sdb fa => (runMscale s c.slot c.pc sdb fa).map fun t => (0, t)
  | .msplit sdb fa r w => (runMsplit s p c.slot c.pc sdb fa r w).map fun t => (0, t)
  | .msfin out ea eb fr rnd w => runMsfin s p c out ea eb fr rnd w
  | .msmm _ _ _ _ _ => .ok (0, s)

/-- The head command of cluster `p` completes (R214): its flags wait for delivery, its agent offers its event. -/
def mxDone (s : State) (p : Nat) (c : MxCmd) (fl : Nat) : State :=
  let s1 := s.modCluster p fun x => { x with mx := x.mx.drop 1 }
  engineOffer (s1.modSlot c.slot fun x => { x with mflags := x.mflags ||| fl }) (partyOf s 3 c.slot) c.ev

/-- The head command of cluster `p`, if the engine runs. -/
def mxHead (s : State) (p : Nat) : Option MxCmd := if clusterRuns s p then (s.cluster p).mx.head? else none

/-- The head command of cluster `p` replaced. -/
def setHead (s : State) (p : Nat) (c : MxCmd) : State := s.modCluster p fun x => { x with mx := c :: x.mx.drop 1 }

/-- MXE_COMMAND_EXECUTE (R213): the next command runs and completes; an MSMM begins. A command of a halted core waits
(20 R313). -/
def mxeCommandExecute (p : Nat) (s0 : State) : State :=
  let s := admitHeld s0 p
  match mxHead s p with
  | none => s
  | some c =>
    if haltedCore s (coreOf c.slot) then s
    else match c.op with
      | .msmm par save kb pass began =>
        if began then s
        else
          let s1 := if bit par 11 then s else zeroTiles s p c.tiles
          setHead (setWideNow s1 c.slot (some (parS par))) p { c with op := .msmm par save kb pass true }
      | _ =>
        match runMx s p c with
        | .error t => engineFault s c.slot c.pc t
        | .ok (fl, s1) => mxDone s1 p c fl

/-- MXE_COMMAND_EXECUTE (R213). -/
def execMxeCommandExecute (cl : Nat) (s : State) := event (mxeCommandExecute cl) s

/-- The passes of a block in order (R227). -/
def passList (w : Nat) : List (Nat × Nat) :=
  (List.range w).flatMap fun m => (List.range (m + 1)).map fun t => (t + 1, m + 1 - t)

/-- One pass added into the wide tile (R227). -/
def addPass (s : State) (p : Nat) (tiles : List Nat) (w t u : Nat) (a b : List Nat) : State :=
  tilePairs.foldl (fun v ij =>
    let q := wideCell p tiles ij.1 ij.2
    let dot := (List.range 96).foldl (fun (x : Int) c =>
      x + sx 8 (a.getD (128 * ij.1 + c) 0) * sx 8 (b.getD (128 * ij.2 + c) 0)) 0
    v.setRaw q 16 (wrap 128 (sx 128 (v.raw q 16) + (2 : Int) ^ (7 * (w + 1 - t - u)) * dot))) s

/-- MSMM_PASS (R227, R228): the next pass of the executing MSMM; after the last pass of a block its panels are popped, after the
last block it completes. -/
def msmmPass (p : Nat) (s : State) : State :=
  match mxHead s p with
  | none => s
  | some c =>
    match c.op with
    | .msmm par save kb pass true =>
      let w := parS par
      match (passList w)[pass]? with
      | none => s
      | some (t, u) =>
        let ra := bits par 3 0
        let rb := bits par 7 4
        let ga := (s.cluster p).rings.get ra {}
        let gb := (s.cluster p).rings.get rb {}
        let r := do
          let (a, s1) ← tarnRead s c.slot c.pc (panelOff ga (addCount ga.c (t - 1))) 4096
          let (b, s2) ← tarnRead s1 c.slot c.pc (panelOff gb (addCount gb.c (u - 1))) 4096
          Except.ok (addPass s2 p c.tiles w t u a b)
        match r with
        | .error f => engineFault s c.slot c.pc f
        | .ok s3 =>
          let s4 := setHead s3 p { c with op := .msmm par save kb (pass + 1) true }
          if pass + 1 < (passList w).length then s4
          else
            let pop := fun (v : State) (x : Nat) => modRing v p x fun q => { q with c := addCount q.c w }
            let s5 := pop (pop s4 ra) rb
            if kb = bits par 25 16 then mxDone s5 p c 0 else s5
    | _ => s

/-- MSMM_PASS (R227). -/
def execMsmmPass (cl : Nat) (s : State) := event (msmmPass cl) s

/-- MSMM_BLOCK_RESERVE (R228): the panels of the next block are reserved; while a push that the slot issued before the MSMM is under
way it waits; otherwise it ends with RING. -/
def msmmBlockReserve (p : Nat) (s : State) : State :=
  match mxHead s p with
  | none => s
  | some c =>
    match c.op with
    | .msmm par save kb pass true =>
      let w := parS par
      let short := fun r => decide (unreserved ((s.cluster p).rings.get r {}) < w)
      let ra := bits par 3 0
      let rb := bits par 7 4
      if pass < (passList w).length ∨ kb = bits par 25 16 then s
      else if (short ra && !pushPending s c.slot ra c.born) || (short rb && !pushPending s c.slot rb c.born) then
        engineFault s c.slot c.pc ringTrap
      else if short ra || short rb then s
      else
        let adv := fun (v : State) (x : Nat) => modRing v p x fun q => { q with cr := addCount q.cr w }
        setHead (adv (adv s ra) rb) p { c with op := .msmm par save (kb + 1) 0 true }
    | _ => s

/-- MSMM_BLOCK_RESERVE (R228). -/
def execMsmmBlockReserve (cl : Nat) (s : State) := event (msmmBlockReserve cl) s

end Sys2Proof.Machine
end

