-- ==== Sys2Proof/Machine/Streams.lean ====
section
/-!
DEFINITION. Streams: the instructions of major 0x32 and the steps of the stream units (12 R233 to R236).

Readings and choices of the model (log): DESIGN CHOICE 170, 171; DEDUCED 92, 97, 98, 142, 172.
-/

namespace Sys2Proof.Machine

open Sys2Proof

/-- STREAM. -/
def streamTrap : Trap := raise 0x0B

/-- Stream register `r` of slot `n`, when it is bound. -/
def streamOf (s : State) (n r : Nat) : Option Stream := ((s.slot n).streams.find? fun e => e.1 == r).map Prod.snd

/-- Stream register `r` of slot `n` changed. -/
def modStream (s : State) (n r : Nat) (f : Stream → Stream) : State :=
  s.modSlot n fun x => { x with streams := x.streams.map fun e => if e.1 == r then (r, f e.2) else e }

/-- STREAM of a write end whose join has failed is raised at the slot's next stream instruction or TEXIT (R234). -/
def deliverStream (s : State) (n : Nat) : Except Trap Unit :=
  if (s.slot n).streams.any fun e => e.2.fault == some 0x1B then .error streamTrap else .ok ()

/-! ### Binding -/

/-- The counts of the levels in use (R233). The fields of the levels above LEVELS are ignored, whatever they hold (DESIGN CHOICE, log 171). -/
def spbCounts (w : Nat) : List Nat := (List.range (bits (w / 2 ^ 64) 60 59 + 1)).map fun l => w / 2 ^ (128 + 64 * l) % 2 ^ 32

/-- The strides of the levels in use (DESIGN CHOICE, log 171). -/
def spbStrides (w : Nat) : List Int := (List.range (bits (w / 2 ^ 64) 60 59 + 1)).map fun l => sx 32 (w / 2 ^ (160 + 64 * l))

/-- Bindings in the quad of slot `n` (01 R8). -/
def quadStreams (s : State) (n : Nat) : List (Nat × Stream) :=
  (List.range 16).flatMap fun j => (s.slot (n / 16 * 16 + j)).streams

/-- The stream that a parameter block describes for register `r` of slot `n`, or STREAM (R233, R234, R236). A join end that has
completed or failed and is still bound counts as live (DEDUCED, log 172). -/
def spbStream (s : State) (n r w : Nat) (ev : Option EvRef) : Except Trap Stream :=
  let c := bits (w / 2 ^ 64) 63 0
  let kind := bits c 63 62
  let dir := bits c 61 61
  let total := (spbCounts w).foldl (· * ·) 1
  let base := w % 2 ^ 64
  let ring := bits c 55 52
  let twin := quadStreams s n |>.any fun e =>
    e.2.kind == 2 && e.2.peerq == bits c 51 50 && e.2.join == bits c 49 44 && e.2.dir == dir
  if kind = 3 ∨ dir ≠ (if r < 4 then 0 else 1) ∨ bits c 58 56 ≠ 0 ∨ bits c 43 0 ≠ 0 ∨ w / 2 ^ 384 % 2 ^ 128 ≠ 0 ∨ total = 0 ∨
      2 ^ 32 ≤ total ∨ (spbStrides w).any (fun d => d % 8 != 0) ∨ (kind = 0 ∧ (base % 8 ≠ 0 ∨ isRemote s base)) ∨
      24 ≤ (quadStreams s n).length ∨ (kind = 2 ∧ twin = true) ∨
      (kind = 1 ∧ (dir = 0 ∨ total % 32 ≠ 0 ∨
        ((ringOf s n ring).kind ≠ 0 ∧ (ringOf s n ring).owner ≠ some (launchKey (s.slot n))))) then .error streamTrap
  else .ok
    { kind := kind, dir := dir, total := total, base := base, ring := ring, peerq := bits c 51 50, join := bits c 49 44,
      strides := spbStrides w, counts := spbCounts w, ev := ev, pc := (s.slot n).pc, moved := 0, used := 0, buf := [],
      panel := [], st := 1, fault := none, offered := false, posted := none, born := (s.slot n).instret }

/-- SBIND (R233, R236). A block at a misaligned address raises ALIGN, one outside the own-TCM and own-Tarn windows PROT (DESIGN CHOICE,
log 170). -/
def sbind (x e a r : Nat) (s : State) (n : Nat) : Except Trap Res := do
  clusterSlot n
  let y := s.slot n
  if 6 ≤ r then .error illegal
  else
    deliverStream s n
    let ev ← eventField s n x e 4
    let ea := (y.rs a).toNat
    if ea % 64 ≠ 0 then .error (accTrap 0x03 ea 1 64 0)
    else
      let cells ← blockCells s n ea 64 1
      let (bs, s1) ← loadCells s n ea 1 0 cells
      if (streamOf s n r).isSome then .error streamTrap
      else
        let t ← spbStream s1 n r (numOf bs) ev
        .ok (.done (s1.modSlot n fun z => { z with streams := z.streams.set r t }))

/-- SBIND (R236). -/
def execSbind (x e a r : Nat) (s : State) := plain (released (sbind x e a r)) s

/-- SFREE (R236). -/
def sfree (r : Nat) (s : State) (n : Nat) : Except Trap Res := do
  clusterSlot n
  if 6 ≤ r then .error illegal
  else
    deliverStream s n
    .ok (.done (freeStream s n r))

/-- SFREE (R236). -/
def execSfree (r : Nat) (s : State) := plain (sfree r) s

/-- The SSTAT word (R236): beats that the slot has still to read or give, beats buffered, state. -/
def sstatWord (t : Option Stream) : Word :=
  match t with
  | none => 0
  | some t =>
    let st := if t.fault.isSome ∨ t.st = 3 then 3 else if t.st = 2 then 2 else 1
    BitVec.ofNat 64 ((t.total - t.used) * 2 ^ 32 + (t.buf.length + t.panel.length) % 256 * 2 ^ 24 + st)

/-- SSTAT (R236). -/
def sstat (d r : Nat) (s : State) (n : Nat) : Except Trap Res := do
  clusterSlot n
  if 6 ≤ r then .error illegal
  else
    deliverStream s n
    writeDone s n d (sstatWord (streamOf s n r))

/-- SSTAT (R236). -/
def execSstat (d r : Nat) (s : State) := plain (sstat d r) s

/-- SRD (R234, R236). -/
def srd (v r : Nat) (s : State) (n : Nat) : Except Trap Res := do
  clusterSlot n
  if 4 ≤ r then .error illegal
  else
    deliverStream s n
    match streamOf s n r with
    | none => .error streamTrap
    | some t =>
      if t.fault.isSome ∨ t.st = 3 ∨ t.total ≤ t.used then .error streamTrap
      else match t.buf with
        | [] => .ok (.wait s .busy)
        | b :: rest => .ok (.done ((modStream s n r fun q => { q with buf := rest, used := q.used + 1 }).modSlot n fun x =>
            x.wv v (BitVec.ofNat 1024 b)))

/-- SRD (R236). -/
def execSrd (v r : Nat) (s : State) := plain (srd v r) s

/-- SWR (R234, R236). -/
def swr (v r : Nat) (s : State) (n : Nat) : Except Trap Res := do
  clusterSlot n
  if r < 4 ∨ 6 ≤ r then .error illegal
  else
    deliverStream s n
    match streamOf s n r with
    | none => .error streamTrap
    | some t =>
      if t.fault.isSome ∨ t.st = 3 ∨ t.total ≤ t.used then .error streamTrap
      else if 32 ≤ t.buf.length then .ok (.wait s .busy)
      else .ok (.done (modStream s n r fun q =>
        { q with
          buf := q.buf ++ [((s.slot n).rv v).toNat]
          used := q.used + 1
          given := if (q.used + 1) % 32 = 0 then q.given ++ [(s.slot n).instret] else q.given }))

/-- SWR (R236). -/
def execSwr (v r : Nat) (s : State) := plain (swr v r) s

/-! ### Beats -/

/-- The address of beat `k` of a memory stream (R233): level 0 runs fastest. -/
def beatAddr (t : Stream) (k : Nat) : Nat :=
  let step := fun (acc : Nat × Int) (l : Nat × Int) => (acc.1 / l.1, acc.2 + (acc.1 % l.1 : Nat) * l.2)
  wrap 64 ((t.base : Int) + ((t.counts.zip t.strides).foldl step (k, 0)).2)

/-- Bytes that an engine of slot `n` writes for the command issued at `pc` (R144; 16 R265). -/
def engineStore (s : State) (n pc ea : Nat) (cells data : List Nat) : State :=
  relStores (bumpLines (noteGuard (writeCells s cells data) n ea 5 0 (some pc) cells) n cells) cells

/-- A fault of an engine command (R235, R242): PAGE and PEER_LOST post a record and the command waits; any other is fatal to the
issuing task. `f` notes the wait in the command. -/
def engineTrap (s : State) (n pc : Nat) (t : Trap) (f : State → Posted → State) : State :=
  if fatalCode t.code then engineFault s n pc t
  else
    let (p, s1) := postOrHold s (engineRec s n pc t)
    f s1 p

/-- A stream waits for the reply to its record. -/
def streamPosted (n r : Nat) (s : State) (p : Posted) : State := modStream s n r fun q => { q with st := 5, posted := some p }

/-- A panel pushed into ring `r` as it is configured now, for the command issued at `pc` (R210): RING when it has been released, PROT
when another launch owns it; `none` while it is full. -/
def pushPanel (s : State) (n pc r : Nat) (data : List Nat) : Except Trap (Option State) :=
  let p := clusterOf n
  let g := ringOf s n r
  if g.kind = 0 then .error ringTrap
  else if g.owner ≠ some (launchKey (s.slot n)) then .error protTrap
  else if dist32 g.p g.c = g.depth then .ok none
  else .ok (some (modRing (tarnWrite s n pc (panelOff g g.p) data) p r fun q =>
    { q with p := addCount q.p 1, pr := addCount q.pr 1 }))

/-- The gathered panel of a ring stream pushed, when there is room. -/
def streamPush (s : State) (n r : Nat) (t : Stream) : State :=
  match pushPanel s n t.pc t.ring (t.panel.flatMap (bytesOf 128)) with
  | .error f => engineFault s n t.pc f
  | .ok none => modStream s n r fun q => { q with st := 4 }
  | .ok (some s1) => modStream s1 n r fun q => { q with st := 1, panel := [] }

/-- A join fails (R234). -/
def failJoin (s : State) (n r m q : Nat) : State :=
  modStream (modStream s n r fun t => { t with fault := some 0x1B, st := 3 }) m q fun t => { t with fault := some 0x0B, st := 3 }

/-- The writer's next beat passes to the read end of its join (R234). -/
def joinBeat (s : State) (n r : Nat) (t : Stream) : State :=
  match joinPeer s n t, t.buf with
  | some (m, q), b :: rest =>
    match streamOf s m q with
    | none => s
    | some u =>
      let k := t.moved + 1
      if 32 ≤ u.buf.length ∨ u.st ≠ 1 then s
      else if decide (k = t.total) != decide (u.moved + 1 = u.total) then failJoin s n r m q
      else
        modStream (modStream s n r fun v => { v with buf := rest, moved := k }) m q fun v =>
          { v with buf := v.buf ++ [b], moved := v.moved + 1 }
  | _, _ => s

/-- STREAM_BEAT (R234; 24 R365): the stream unit moves one beat of a running stream, unless its memory is stopped or off; after the 32nd beat of a panel, or while that push
waits, it pushes. -/
def streamBeat (n r : Nat) (s : State) : State :=
  match streamOf s n r with
  | none => s
  | some t =>
    if !isWorker n || !clusterRuns s (clusterOf n) then s
    else if t.st = 4 then streamPush s n r t
    else if t.st ≠ 1 ∨ t.total ≤ t.moved then s
    else if t.kind = 0 then
      let ea := beatAddr t t.moved
      if t.dir = 0 then
        if 32 ≤ t.buf.length then s
        else if sleeps s n false ea 128 4 then s
        else
          let got := do
            let cells ← localCells s n false ea 128 4 0
            loadCells s n ea 4 0 cells (some t.pc)
          match got with
          | .error f => engineTrap s n t.pc f (streamPosted n r)
          | .ok (bs, s1) => modStream s1 n r fun q => { q with buf := q.buf ++ [numOf bs], moved := q.moved + 1 }
      else match t.buf with
        | [] => s
        | b :: rest =>
          match localCells s n false ea 128 5 0 with
          | .error f => engineTrap s n t.pc f (streamPosted n r)
          | .ok cells =>
            if asleep s cells then s
            else modStream (engineStore s n t.pc ea cells (bytesOf 128 b)) n r fun q => { q with buf := rest, moved := q.moved + 1 }
    else if t.kind = 1 then
      match t.buf with
      | [] => s
      | b :: rest =>
        let t1 := { t with buf := rest, moved := t.moved + 1, panel := t.panel ++ [b] }
        let s1 := modStream s n r fun _ => t1
        if t1.panel.length = 32 then streamPush s1 n r t1 else s1
    else if t.dir = 1 then joinBeat s n r t
    else s

/-- STREAM_BEAT (R234). -/
def execStreamBeat (slot r : Nat) (s : State) := event (streamBeat slot r) s

/-- Whether a running stream has run to its end (R235): a read stream when the slot has read its last beat, a write stream when every
beat has been written, pushed or received. -/
def streamOver (t : Stream) : Bool :=
  t.st == 1 && t.fault.isNone && (if t.dir = 0 then t.used == t.total else t.moved == t.total)

/-- STREAM_COMPLETE (R235): the stream agent offers the bound event. -/
def streamComplete (n r : Nat) (s : State) : State :=
  match streamOf s n r with
  | none => s
  | some t =>
    if streamOver t then
      engineOffer (modStream s n r fun q => { q with st := 2, offered := true }) (partyOf s 4 n) t.ev
    else s

/-- STREAM_COMPLETE (R235). -/
def execStreamComplete (slot r : Nat) (s : State) := event (streamComplete slot r) s

end Sys2Proof.Machine
end

