-- ==== Sys2Proof/Machine/Copy.lean ====
section
/-!
DEFINITION. Copies: the instructions of major 0x33 and the steps of the copy engines (12 R237 to R242; 08 R147).

Readings and choices of the model (log): DESIGN CHOICE 29, 94, 95; DEDUCED 96, 142.
-/

namespace Sys2Proof.Machine

open Sys2Proof

/-! ### Acceptance -/

/-- Queue `q` of cluster `p`. -/
def queueOf (s : State) (p q : Nat) : List CpCmd := (s.cluster p).copies.get q []

/-- Queue `q` of cluster `p` replaced. -/
def setQueue (s : State) (p q : Nat) (l : List CpCmd) : State :=
  s.modCluster p fun c => { c with copies := c.copies.set q l }

/-- Field of a descriptor block: doubleword `i`. -/
def dword (w i : Nat) : Nat := w / 2 ^ (64 * i) % 2 ^ 64

/-- Whether R238, R239 or R242 refuses a descriptor block with RING; `op` 0 CPY, 1 CPYS, 2 CPYG, 3 CPYM. Fields that the member does
not use must be zero. -/
def cdbBad (op w : Nat) : Bool :=
  let nrow := bits (dword w 2) 63 32
  let len := bits (dword w 2) 31 0
  let d3 := dword w 3
  let d5 := dword w 5
  let dk := bits d5 31 30
  let mask := bits d5 15 0
  bits d5 25 16 != 0 || dword w 6 != 0 || dword w 7 != 0 || dk == 3 || nrow == 0 || decide (65536 < nrow) || len == 0 ||
    decide (2 ^ 24 < len) || (op == 0 && (nrow != 1 || d3 != 0)) ||
    (op != 2 && (dword w 4 != 0 || bits d5 63 32 != 0)) || (op == 2 && dword w 4 % 4 != 0) || (op != 3 && mask != 0) ||
    (dk != 1 && bits d5 29 26 != 0) || ((op == 2 || dk != 0) && bits d3 63 32 != 0) || (op == 2 && bits d5 63 32 == 0) || (dk == 1 && (dword w 1 != 0 || nrow * len % 4096 != 0)) ||
    (op == 3 && (dk != 0 || mask == 0 || decide (dword w 1 % 2 ^ 52 < winBase) ||
      decide (winBase + 0x10000 ≤ dword w 1 % 2 ^ 52) ||
      (List.range 16).any fun c => !bit mask c && w / 2 ^ (512 + 32 * c) % 2 ^ 32 != 0))

/-- The multicast ring block of a copy with DKIND 10: its Tarn offset; RING for an address outside the own-Tarn window, a block that
R146 refuses, or a total that does not fill whole entries. -/
def copyRing (s : State) (n ea total : Nat) : Except Trap Nat :=
  match tarnBlock ea 128 128 with
  | .error _ => .error ringTrap
  | .ok off =>
    if mrbBad s (clusterOf n) off || total % mrbSlot s (tarnBase (clusterOf n) + off) != 0 then .error ringTrap
    else .ok off

/-- The events of CPYM by team (R240): EVENT for a live event that lacks the copy agent or the team's slot as a party. -/
def teamEvents (s : State) (n w : Nat) (cs : List Nat) : Except Trap (List (Nat × Option EvRef)) :=
  cs.mapM fun c =>
    let nm := w / 2 ^ (512 + 32 * c) % 2 ^ 32
    if nm = 0 then .ok (c, none)
    else
      let r := refOfName s n nm
      match evOf s r with
      | none => if r.away && farStranger s nm then .error eventTrap else .ok (c, some r)
      | some v =>
        match siblingOf s n c with
        | some m => if v.parties.contains (partyOf s 2 n) && v.parties.contains (partyOf s 0 m) then .ok (c, some r)
            else .error eventTrap
        | none => .error eventTrap

/-- Whether slot `n` runs a team of a co-launch (R240). -/
def isTeam (s : State) (n : Nat) : Bool := (s.slot n).task.any fun k => k.kind == 1

/-- A copy command at acceptance (R237 to R242). -/
def copyOp (op x e a q : Nat) (s : State) (n : Nat) : Except Trap Res := do
  clusterSlot n
  let y := s.slot n
  let ev ← eventField s n x e 2
  let p := clusterOf n
  let ea := (y.rs a).toNat
  let size := if op = 3 then 128 else 64
  if 64 ≤ (queueOf s p q).length then .ok (.wait s .busy)
  else if op = 3 ∧ isTeam s n = false then .error protTrap
  else if ea % 64 ≠ 0 then .error (accTrap 0x03 ea 1 size 0)
  else
    let cells ← blockCells s n ea size 1
    let (bs, s1) ← loadCells s n ea 1 0 cells
    let w := numOf bs
    let d5 := dword w 5
    let nrow := bits (dword w 2) 63 32
    let len := bits (dword w 2) 31 0
    let ring := bits d5 29 26
    if cdbBad op w then .error ringTrap
    else
      if bits d5 31 30 = 1 then (ownRing s1 n ring).map fun _ => () else .ok ()
      let off ← if bits d5 31 30 = 2 then copyRing s1 n (dword w 1) (nrow * len) else .ok (dword w 1)
      let evs ← if op = 3 then teamEvents s1 n w ((List.range 16).filter fun c => bit d5 c) else .ok []
      let s2 := if bits d5 31 30 = 2 then ringGuard (noteMrb s1 p off) n 1 none p (tarnBase p + off) 64 else s1
      let c : CpCmd :=
        { op := op, slot := n, pc := y.pc, ev := ev, src := dword w 0, dst := off, nrow := nrow, len := len,
          dstride := sx 32 (dword w 3 / 2 ^ 32), sstride := sx 32 (dword w 3), idx := dword w 4,
          ibound := bits d5 63 32, dkind := bits d5 31 30, ring := ring, mask := bits d5 15 0, evs := evs, team := 0, st := 0,
          done := 0, fill := [], rowIdx := 0, posted := none, born := y.instret }
      .ok (.done (setQueue s2 p q (queueOf s2 p q ++ [c])))

/-- CPY (R239). -/
def execCpy (x e a q : Nat) (s : State) := plain (released (copyOp 0 x e a q)) s
/-- CPYS (R239). -/
def execCpys (x e a q : Nat) (s : State) := plain (released (copyOp 1 x e a q)) s
/-- CPYG (R239). -/
def execCpyg (x e a q : Nat) (s : State) := plain (released (copyOp 2 x e a q)) s
/-- CPYM (R240). -/
def execCpym (x e a q : Nat) (s : State) := plain (released (copyOp 3 x e a q)) s

/-! ### Execution -/

/-- The head command of a queue replaced. -/
def setCopy (s : State) (p q : Nat) (c : CpCmd) : State := setQueue s p q (c :: (queueOf s p q).drop 1)

/-- A copy waits for the reply to its record (R242). -/
def copyPosted (p q : Nat) (s : State) (r : Posted) : State :=
  match queueOf s p q with
  | [] => s
  | c :: _ => setCopy s p q { c with st := 3, posted := some r }

/-- A fault of the head command of a queue (R242). -/
def copyTrap (s : State) (p q : Nat) (c : CpCmd) (t : Trap) : State := engineTrap s c.slot c.pc t (copyPosted p q)

/-- `len` bytes read by a copy of slot `n`, issued at `pc` (R239). Bytes of another node are free values: nothing in this package determines them
(log 9); PEER_LOST when no route leads there. -/
def copyRead (s : State) (n pc ea len : Nat) : Except Trap (List Nat × State) :=
  if isRemote s ea then
    match sendFrom s n (packetOf s n 1 1 (ea / 2 ^ 52) (ea % 2 ^ 52) len) with
    | none => .error (peerLost ea 4 len 0 (ea / 2 ^ 52))
    | some (_, t) => .ok (freeBytes t len)
  else do
    let cells ← localCells s n false ea len 4 0
    loadCells s n ea 4 0 cells (some pc)

/-- The cells of a chunk whose 128-byte line the row has not written before: the first chunk of a row, or a new line (16 R265). -/
def newLines (ea off : Nat) (cells : List Nat) : List Nat :=
  (cells.zipIdx.filter fun e => decide (off = 0 ∨ (ea + e.2) / 128 ≠ (ea - 1) / 128)).map Prod.fst

/-- Bytes written by a copy of slot `n`, issued at `pc`, at `ea`, `off` bytes into its row (R239; 16 R265). -/
def copyWrite (s : State) (n pc ea off : Nat) (data : List Nat) : Except Trap State :=
  if isRemote s ea then
    match sendFrom s n { packetOf s n 0 0 (ea / 2 ^ 52) (ea % 2 ^ 52) data.length with data := numOf data } with
    | none => .error (peerLost ea 5 data.length 0 (ea / 2 ^ 52))
    | some (_, t) => .ok t
  else
    match localCells s n false ea data.length 5 0 with
    | .error t => .error t
    | .ok cells =>
      .ok (relStores (bumpLines (noteGuard (writeCells s cells data) n ea 5 0 (some pc) cells) n (newLines ea off cells)) cells)

/-- The address of the source of byte `off` of row `r` (R239). -/
def copySrc (c : CpCmd) (r off : Nat) : Nat :=
  wrap 64 ((c.src : Int) + (if c.op = 2 then (c.rowIdx : Int) else r) * c.sstride + off)

/-- The addresses of the destinations of byte `off` of row `r` (R239, R240): one, or one of each team in MASK. -/
def copyDst (c : CpCmd) (r off : Nat) : List Nat :=
  if c.op = 3 then
    c.evs.map fun e => winBase + 0x100000 + e.1 * 0x10000 + wrap 16 (((c.dst % 2 ^ 52 - winBase : Nat) : Int) + r * c.dstride + off)
  else if c.op = 2 then [(c.dst + r * c.len + off) % 2 ^ 64]
  else [wrap 64 ((c.dst : Int) + r * c.dstride + off)]

/-- Whether a CPYM destination leaves the own-TCM window (R240). -/
def teamOut (c : CpCmd) (r off len : Nat) : Bool :=
  let o : Int := ((c.dst % 2 ^ 52 - winBase : Nat) : Int) + r * c.dstride + off
  c.op == 3 && decide (o < 0 ∨ (0x10000 : Int) < o + len)

/-- Bytes of an entry of the ring that a copy fills. -/
def entrySize (s : State) (p : Nat) (c : CpCmd) : Nat := if c.dkind = 1 then 4096 else mrbSlot s (tarnBase p + c.dst)

/-- Everything is moved: each team's event is offered (R240). -/
def copyMoved (s : State) (p q : Nat) (c : CpCmd) : State :=
  c.evs.foldl (fun t e => engineOffer t (partyOf t 2 c.slot) e.2) (setCopy s p q { c with st := 4 })

/-- The command after a push or a chunk: it has moved everything, or runs on. -/
def copyOn (s : State) (p q : Nat) (c : CpCmd) : State :=
  if c.nrow * c.len ≤ c.done then copyMoved s p q c else setCopy s p q { c with st := 1 }

/-- The gathered entry pushed into its ring when there is room (R147, R210); otherwise the command waits (st 2). What has been read of
the next entry stays. -/
def copyPush (s : State) (p q : Nat) (c : CpCmd) : State :=
  let size := entrySize s p c
  let item := c.fill.take size
  let rest := { c with fill := c.fill.drop size }
  if c.dkind = 1 then
    match pushPanel s c.slot c.pc c.ring item with
    | .error t => copyTrap s p q c t
    | .ok none => setCopy s p q { c with st := 2 }
    | .ok (some s1) => copyOn s1 p q rest
  else
    let b := tarnBase p + c.dst
    if dist32 (mrbProd s b) (mrbFree s b) = mrbDepth s b then setCopy s p q { c with st := 2 }
    else copyOn (guardedPush s c.slot 5 (some c.pc) p c.dst size (numOf item)) p q rest

/-- The reads of row `r` that bring `h` gathered bytes at byte `off` to at least `need`: each ends at an aligned 8-byte boundary of the
source or at the end of the row, so that no aligned chunk is read in two steps (08 R151). Two always suffice. -/
def copyPieces (c : CpCmd) (r off h need : Nat) : List (Nat × Nat) :=
  if need ≤ h then []
  else
    let a := off + h
    let k := min (8 - copySrc c r a % 8) (c.len - a)
    if need ≤ h + k then [(a, k)] else [(a, k), (a + k, min 8 (c.len - a - k))]

/-- Pieces of a row read one after the other (R239). -/
def copyReads (s : State) (c : CpCmd) (r : Nat) (ps : List (Nat × Nat)) : Except Trap (List Nat × State) :=
  match ps with
  | [] => .ok ([], s)
  | (a, k) :: t =>
    match copyRead s c.slot c.pc (copySrc c r a) k with
    | .error e => .error e
    | .ok (bs, s1) => (copyReads s1 c r t).map fun x => (bs ++ x.1, x.2)

/-- One chunk of the head command of a queue (R239, R242): at the start of a row CPYG reads its index; a chunk ends at an aligned 8-byte
boundary of the destination, or at the end of the row (08 R151). For a memory destination `done` counts what is written, for a ring
what is gathered. A chunk from or to a unit that is stopped or off waits (24 R365). -/
def copyChunk (s : State) (p q : Nat) (c : CpCmd) : State :=
  let r := c.done / c.len
  let off := c.done % c.len
  let h := if c.dkind = 0 then c.fill.length else 0
  let len := if c.dkind = 0 then min (8 - (copyDst c r off).headD 0 % 8) (c.len - off) else 1
  let index : Except Trap (Nat × State) :=
    if c.op = 2 ∧ off + h = 0 then (copyRead s c.slot c.pc ((c.idx + 4 * r) % 2 ^ 64) 4).map fun b => (numOf b.1, b.2)
    else .ok (c.rowIdx, s)
  if c.op = 2 ∧ off + h = 0 ∧ sleeps s c.slot false ((c.idx + 4 * r) % 2 ^ 64) 4 4 = true then s
  else match index with
  | .error t => copyTrap s p q c t
  | .ok (i, s1) =>
    let c1 := { c with rowIdx := i, st := 1 }
    let ps := copyPieces c1 r off h len
    if c.op = 2 ∧ c.ibound ≤ i then copyTrap s p q c (raise 0x08)
    else if (ps.any fun a => sleeps s1 c.slot false (copySrc c1 r a.1) a.2 4) ||
        (c.dkind == 0 && (copyDst c1 r off).any fun ea => sleeps s1 c.slot false ea len 5) then s
    else match copyReads s1 c1 r ps with
      | .error t => copyTrap s p q c t
      | .ok (data, s2) =>
        let got := c.fill ++ data
        if c.dkind = 0 then
          if teamOut c r off len then copyTrap s p q c protTrap
          else
            match (copyDst c1 r off).foldlM (fun t ea => copyWrite t c.slot c.pc ea off (got.take len)) s2 with
            | .error t => copyTrap s p q c t
            | .ok s3 => copyOn s3 p q { c1 with fill := got.drop len, done := c.done + len }
        else
          let c2 := { c1 with fill := got, done := c.done + data.length }
          if entrySize s p c ≤ got.length then copyPush s2 p q c2 else setCopy s2 p q c2

/-- Whether the head of a queue may move bytes now: it runs, or it starts (R237); a queued command of a halted core waits
(20 R313), and one of a pre-empted task waits for its slot (log 29). -/
def copyReady (s : State) (p : Nat) (c : CpCmd) : Bool :=
  clusterRuns s p && decide (c.slot < 2 ^ 20) && (c.st == 1 || (c.st == 0 && !haltedCore s (coreOf c.slot)))

/-- Up to `k` chunks of queue `q`. -/
def copyRun (p q k : Nat) (s : State) : State :=
  match k with
  | 0 => s
  | k + 1 =>
    match queueOf s p q with
    | [] => s
    | c :: _ => if copyReady s p c then copyRun p q k (copyChunk s p q c) else s

/-- COPY_EXECUTE (R239): the head command of queue `q` starts, or goes on, with up to `n` chunks. -/
def copyExecute (p q n : Nat) (s : State) : State := if 4 ≤ q then s else copyRun p q n s

/-- COPY_EXECUTE (R239). -/
def execCopyExecute (cl q n : Nat) (s : State) := event (copyExecute cl q n) s

/-- RING_PUSH (R147): a push that waited for a free entry takes place. -/
def ringPush (p q : Nat) (s : State) : State :=
  match queueOf s p q with
  | [] => s
  | c :: _ => if clusterRuns s p && decide (c.slot < 2 ^ 20) && c.st == 2 then copyPush s p q c else s

/-- RING_PUSH (R147). -/
def execRingPush (cl q : Nat) (s : State) := event (ringPush cl q) s

/-- COPY_COMPLETE (R237): everything is written and pushed; the copy agent offers the command's event. -/
def copyComplete (p q : Nat) (s : State) : State :=
  match queueOf s p q with
  | [] => s
  | c :: rest =>
    if clusterRuns s p && decide (c.slot < 2 ^ 20) && c.st == 4 then
      engineOffer (setQueue s p q rest) (partyOf s 2 c.slot) c.ev
    else s

/-- COPY_COMPLETE (R237). -/
def execCopyComplete (cl q : Nat) (s : State) := event (copyComplete cl q) s

end Sys2Proof.Machine
end

