-- ==== Sys2Proof/Machine/Traps.lean ====
section
/-!
DEFINITION. The service and privileged members of SYS (20 R304, R313 to R318; 24 R369), CTXSAVE and CTXREST apart, and the steps of
the trap queue and of instruction caches.

Readings and choices of the model (log): DEDUCED 28, 41, 45, 46, 47, 48, 50, 57, 61, 154, 156.
-/

namespace Sys2Proof.Machine

open Sys2Proof

/-- TRAP (R317): posts SVC; ILLEGAL in privileged mode (R295). -/
def execTrap (_d a b : Nat) (s : State) :=
  plain (fun t n =>
    let x := t.slot n
    if x.mode then .error illegal
    else .error { raise 0x20 with kind := 6, data0 := (x.rs a).toNat, data1 := b }) s

/-- BRK (R317): posts BRKPT; its core halts. -/
def execBrk (s : State) := plain (fun _ _ => .error { raise 0x21 with kind := 7 }) s

/-! ### Held matrix commands -/

/-- The held commands of a slot are accepted again, in order, without a lease check (12 R215), as far as the queue has room (R213). -/
def readmit (s : State) (n : Nat) : State :=
  if (s.slot n).held.isEmpty then s else queueHeld s n (64 - (s.cluster (clusterOf n)).mx.length)

/-- The standing offer and the suspended offer of a slot are offered again, with fresh ages (10 R189). -/
def rearm (s : State) (n : Nat) : State :=
  ([(s.slot n).stand, (s.slot n).susp].filterMap id).foldl (fun t o => resendOffer t n o) s

/-- ERET (R317): where the resident handler of a task ends without CTXREST, what the pre-emption put by goes on; the task is due no lease,
since it is not re-dispatched (12 R206). -/
def eret (s : State) (n : Nat) : State :=
  let t := returnFrom s n
  if (s.slot n).dorm.isSome then rearm (readmit (t.modSlot n fun x => { x with want := false, cut := none }) n) n else t

/-- ERET (R317). -/
def execEret (s : State) := privileged (fun t n => .ok (.keep (eret t n))) s

/-! ### Instruction caches -/

/-- The address space that ICINV of slot `n` means: its tenant's, for a Sumac slot the one that VISEL selects. -/
def icinvSpace (s : State) (n : Nat) : Nat := if isSumac n then (s.core (coreOf n)).visel else (s.slot n).vi

/-- The first local address of the range that ICINV names: of an address of another node no line is held (08 R135). -/
def icinvStart (s : State) (ea : Nat) : Nat := if isRemote s ea then ea else ea % 2 ^ 52

/-- ICINV (R317, R318) after the slot's earlier stores: interlocked until every line has been invalidated; of no length it has no effect. -/
def icinv (d a b : Nat) (s : State) (n : Nat) : Except Trap Res :=
  let x := s.slot n
  let len := (x.rs b).toNat
  if 1 < d then .error illegal
  else if len = 0 then .ok (.done s)
  else .ok (.wait s (.icinv d (icinvSpace s n) (icinvStart s (x.rs a).toNat) len))

/-- ICINV (R317; 04 R58: a fetch after it has completed sees the stores before it). -/
def execIcinv (d a b : Nat) (s : State) := privileged (released (icinv d a b)) s

/-- The lines that hold bytes of the range, gone from the quad of slot `n` (scope 0) or from every quad (1): those of the address
space and the untranslated ones (04 R58). -/
def dropLines (s : State) (n scope vi a len : Nat) : State :=
  { s with icache := s.icache.filter fun e =>
      !((scope == 1 || e.quad == quadOf n) && (e.vi == vi || e.vi == 64) &&
        decide (a < e.addr + 4) && decide (e.addr < a + len)) }

/-- ICINV_DONE (R317): the last line of the range is out. -/
def icinvDone (n : Nat) (s : State) : State :=
  match (s.slot n).st with
  | .interlocked (.icinv scope vi a len) => retire (dropLines s n scope vi a len) n false
  | _ => s

/-- ICINV_DONE (R317). -/
def execIcinvDone (slot : Nat) (s : State) := event (icinvDone slot) s

/-! ### Stops -/

/-- The tenant whose partition GSTOP of slot `n` means (R313, R317). -/
def gstopVi (s : State) (n : Nat) : Nat := icinvSpace s n

/-- GSTOP with m = 0: stops the partition of the requesting slot (R313, R314). -/
def execGstopPartition (a : Nat) (s : State) :=
  privileged (fun t n =>
    let code := ((t.slot n).rs a).toNat % 256
    .ok (.keep (stopPartition (retire t n false) (gstopVi t n) false code (agentId t n)))) s

/-- GSTOP with m = 1: stops the package (R313, R314). -/
def execGstopPackage (a : Nat) (s : State) :=
  privileged (fun t n =>
    let code := ((t.slot n).rs a).toNat % 256
    .ok (.keep (stopPackage (retire t n false) false false code (gstopVi t n) (agentId t n)))) s

/-- GSTOP with m = 2: resumes the partition of VISEL's tenant; STOPCAUSE stays (R317, R318). -/
def execGstopResume (_a : Nat) (s : State) :=
  privileged (fun t n =>
    .ok (.done (haltsOver t (mapCores t (partitionCore t (gstopVi t n)) fun _ c =>
      if c.halted then { c with halted := false, freed := if c.brk then c.freed else t.time } else c)))) s

/-! ### The trap queue -/

/-- Whether a record awaits its reply as record `seq` of die `d`. -/
def isRecord (d seq : Nat) (p : Option Posted) : Bool := p.any fun r => r.die == d && r.seq == some seq

/-- The slots of die `d`. -/
def dieSlots (d : Nat) : List Nat :=
  (List.range 2048).map (2048 * d + ·) ++ (List.range 32).map (8192 + 32 * d + ·) ++ (List.range 16).map (8320 + 16 * d + ·)

/-- The slot of die `d` whose record `seq` awaits its reply (R304). -/
def slotAwaiting (s : State) (d seq : Nat) : Option Nat :=
  (dieSlots d).find? fun n => decide ((s.slot n).st = .faulted) && isRecord d seq (s.slot n).posted

/-- The stream of die `d` whose record `seq` awaits its reply: slot and register. -/
def streamAwaiting (s : State) (d seq : Nat) : Option (Nat × Nat) :=
  (dieSlots d).findSome? fun n =>
    ((s.slot n).streams.find? fun e => isRecord d seq e.2.posted).map fun e => (n, e.1)

/-- The copy command of die `d` whose record `seq` awaits its reply: cluster, queue, and the command. -/
def copyAwaiting (s : State) (d seq : Nat) : Option (Nat × Nat × CpCmd) :=
  ((List.range 32).map (32 * d + ·)).findSome? fun p =>
    (List.range 4).findSome? fun q =>
      ((queueOf s p q).find? fun c => isRecord d seq c.posted).map fun c => (p, q, c)

/-- A core goes on after a breakpoint once no slot of it has a BRKPT record awaiting its reply (R318). -/
def clearBrk (s : State) (c : Nat) : State :=
  if (List.range 4).any fun t =>
    decide ((s.slot (4 * c + t)).st = .faulted) && ((s.slot (4 * c + t)).posted.any fun p => p.trap.code == 0x21) then s
  else haltsOver s (s.modCore c fun x => if x.brk then { x with brk := false, freed := if x.halted then x.freed else s.time } else x)

/-- A fatal fault of the task of slot `n` that a reply orders (R317 KILL): no record is posted; the task's stores are performed. -/
def killTask (s : State) (n code : Nat) : State :=
  let t := drainStores s n
  clearBrk (if isSumac n then stopPackage t true false code (t.slot n).vi (agentId t n) else endTask t n true 0) (coreOf n)

/-- The slot goes on after a reply: Running, the record answered. -/
def answered (s : State) (n : Nat) : State := s.modSlot n fun x => { x with st := .running, posted := none }

/-- The PEER_LOST that a replay raises again without an access: that of a returning remote access whose target has begun a new epoch since
the record was posted, with bit 12 of INFO set (25 R369). -/
def lostAgain (s : State) (r : Posted) : Option Trap :=
  if r.trap.code = 0x0F ∧ (r.trap.kind = 1 ∨ r.trap.kind = 3 ∨ r.trap.kind = 4) ∧ epochOf s r.trap ≠ r.epoch then
    some { r.trap with info := r.trap.info % 2 ^ 12 + 2 ^ 12 }
  else none

/-- REPLAY of a slot's record (R304): the recorded word is executed again. -/
def replaySlot (s : State) (n : Nat) (r : Posted) : State :=
  match lostAgain s r with
  | some t => takeTrap (answered s n) n t
  | none => answered s n

/-- RESUME of a slot's record (R317): s[d] of the TRAP takes the value, a BRK is skipped; PC + 4. -/
def resumeSlot (s : State) (n : Nat) (r : Posted) (value : Word) : State :=
  let s1 := answered s n
  if r.trap.code = 0x20 then retire (s1.modSlot n fun x => x.ws (bits x.iw 25 20) value) n false
  else clearBrk (retire s1 n false) (coreOf n)

/-- EMULATE (R317): the word is executed at the BRK's PC in its place. -/
def emulateSlot (s : State) (n : Nat) (value : Word) : State :=
  clearBrk ((answered s n).modSlot n fun x => { x with again := some (value.toNat % 2 ^ 32) }) (coreOf n)

/-- The act that a reply takes on a record with this code (R317): one that is not permitted becomes KILL with the record's code. -/
def replyAct (act code kcode : Nat) : Nat × Nat :=
  let ok := (act = 0 ∧ (code = 0x04 ∨ code = 0x0F)) ∨ (act = 1 ∧ (code = 0x20 ∨ code = 0x21)) ∨ (act = 2 ∧ code = 0x21) ∨ act = 3
  if ok then (act, kcode) else (3, code)

/-- The reply to the record of slot `n`. -/
def replySlot (s : State) (n act kcode : Nat) (value : Word) : State :=
  match (s.slot n).posted with
  | none => s
  | some r =>
    match replyAct act r.trap.code kcode with
    | (0, _) => replaySlot s n r
    | (1, _) => resumeSlot s n r value
    | (2, _) => emulateSlot s n value
    | (_, k) => killTask s n k

/-- The reply to the record `r` of an engine command of slot `n` (R304; 12 R242): `go` lets the command go on, `again` posts a new record for
it. -/
def replyEngine (s : State) (n act kcode : Nat) (r : Posted) (go : State → State) (again : State → Trap → State) : State :=
  match replyAct act r.trap.code kcode, lostAgain s r with
  | (0, _), none => go s
  | (0, _), some t => again s t
  | (_, k), _ => killTask s n k

/-- SVCREPLY takes effect on record `seq` of die `d` (R317). -/
def reply (s : State) (d seq act kcode : Nat) (value : Word) : State :=
  match slotAwaiting s d seq, streamAwaiting s d seq, copyAwaiting s d seq with
  | some n, _, _ => replySlot s n act kcode value
  | _, some (n, r), _ =>
    match streamOf s n r with
    | none => s
    | some t => match t.posted with
      | none => s
      | some p => replyEngine s n act kcode p (fun u => modStream u n r fun q => { q with st := 1, posted := none })
          fun u f => engineTrap u n t.pc f (streamPosted n r)
  | _, _, some (p, q, c) =>
    match c.posted with
    | none => s
    | some r =>
      replyEngine s c.slot act kcode r
        (fun t => setQueue t p q ((queueOf t p q).map fun e => if e.posted == c.posted then { e with st := 1, posted := none } else e))
        fun t f => copyTrap t p q c f
  | _, _, _ => s

/-- SVCREPLY (R317, R318): ILLEGAL on a worker or Mace slot, in whatever mode; a record that awaits no reply has none. -/
def svcreply (d a b : Nat) (s : State) (n : Nat) : Except Trap Res :=
  let x := s.slot n
  let die := dieOfSlot n
  let seq := (x.rs a).toNat % 2 ^ 32
  let w := (x.rs b).toNat
  let act := bits w 2 0
  let code := bits w 15 8
  if isSumac n = false then .error illegal
  else if (slotAwaiting s die seq).isNone && (streamAwaiting s die seq).isNone && (copyAwaiting s die seq).isNone then .ok (.done s)
  else if 3 < act ∨ (act = 3 ∧ (code < 1 ∨ 0x11 < code)) then .error illegal
  else .ok (.keep (reply (retire s n false) die seq act code (x.rs d)))

/-- SVCREPLY (R317): what its slot did before happens before the access that the reply lets go on (R304). -/
def execSvcreply (d a b : Nat) (s : State) := plain (released (svcreply d a b)) s

/-- The record `r` that was held has been posted as `q`: the slot, or its engine command, awaits the reply to it (R302). -/
def notePosted (s : State) (r : FaultRec) (q : Posted) : State :=
  let mine := fun (p : Option Posted) => p.any fun u => u.seq.isNone && u.trap == r.trap && u.die == q.die
  if r.trap.engine then
    let s1 := s.modSlot r.slot fun x =>
      { x with streams := x.streams.map fun e => if mine e.2.posted then (e.1, { e.2 with posted := some q }) else e }
    if !isWorker r.slot then s1
    else s1.modCluster (clusterOf r.slot) fun c =>
      { c with copies := c.copies.map fun (e : Nat × List CpCmd) =>
          (e.1, e.2.map fun m => if m.slot == r.slot && mine m.posted then { m with posted := some q } else m) }
  else s.modSlot r.slot fun x => if mine x.posted then { x with posted := some q } else x

/-- HELD_RECORD_POST (R302; R309): a held record is posted when the queue has room, and its core is not stopped. -/
def heldRecordPost (d i : Nat) (s : State) : State :=
  match (s.die d).held[i]? with
  | none => s
  | some r =>
    if queued s d < 252 ∧ (s.core (coreOf r.slot)).halted = false then
      let q : Posted := { die := d, seq := some (s.die d).tqtail, trap := r.trap, epoch := epochOf s r.trap }
      let s1 := post (s.modDie d fun x => { x with held := x.held.eraseIdx i }) r
      notePosted s1 r q
    else s

/-- HELD_RECORD_POST (R302). -/
def execHeldRecordPost (die i : Nat) (s : State) := event (heldRecordPost die i) s

end Sys2Proof.Machine
end

