-- ==== Sys2Proof/Machine/Preempt.lean ====
section
/-!
DEFINITION. Pre-emption (20 R305 to R308; 10 R189; 12 R206, R208, R215, R229): PREEMPT, CTXSAVE, CTXREST, and what follows a task
that leaves its slot.

Readings and choices of the model (log): DESIGN CHOICE 19, 29, 55, 63; DEDUCED 16, 31, 51, 53, 54, 56, 58, 60, 62, 64.
-/

namespace Sys2Proof.Machine

open Sys2Proof

/-- SAVE_LOST. -/
def saveLost : Trap := raise 0x11

/-! ### Save areas -/

/-- Where the frame of a task begins (22 R327). -/
def frameAt (s : State) (k : Task) : Nat := ((launchOf s k.vi k.id).map (·.frames)).getD 0 + 2 ^ 17 * k.frame

/-- A local address as a global one. -/
def localEa (lva : Nat) : Nat := 0xFFF * 2 ^ 52 + lva % 2 ^ 52

/-- The cells of a save area: own TCM, or device memory through the tenant's translation. -/
def saveCells (s : State) (n ea len kind : Nat) : Option (List Nat) :=
  match localCells s n true ea len kind 0 with
  | .error _ => none
  | .ok cells => if cells.any isHost then none else some cells

/-- Bytes written to a save area; none where a write fails (R308). -/
def saveWrite (s : State) (n ea : Nat) (bs : List Nat) : Option State :=
  (saveCells s n ea bs.length 2).map fun cells => bumpLines (writeCells s cells bs) n cells

/-- Bytes read from a save area; none where a read fails, or meets poison. -/
def saveRead (s : State) (n ea len : Nat) : Option (List Nat) :=
  match saveCells s n ea len 1 with
  | none => none
  | some cells => if cells.any (poisoned s) then none else some (readCells s cells)

/-- Whether an uncorrectable error stands in the `n` cells from `lo` on (R308). -/
def rangePoisoned (s : State) (lo n : Nat) : Bool := s.poison.any fun g => decide (lo < 64 * g + 64 ∧ 64 * g < lo + n)

/-- Whether one stands in a tile of cluster `p`. -/
def tilesPoisoned (s : State) (p : Nat) (tiles : List Nat) : Bool := tiles.any fun t => rangePoisoned s (accBase p t) 4096

/-- The bytes of a run of cells. -/
def cellBytes (s : State) (lo n : Nat) : List Nat := (List.range n).map fun j => s.byte (lo + j)

/-- The wide image, or the images of a0 to a3, of a task in cluster `p` (12 R207, R208, R227). -/
def tileImages (s : State) (p : Nat) (tiles : List Nat) : List Nat :=
  (List.range 4).flatMap fun i =>
    match tiles[i]? with
    | some t => cellBytes s (accBase p t) 4096
    | none => List.replicate 4096 0

/-- Images loaded into tiles. -/
def loadTiles (s : State) (p : Nat) (tiles bs : List Nat) : State :=
  (tiles.zipIdx).foldl (fun t e =>
    ((bs.drop (4096 * e.2)).take 4096).zipIdx.foldl (fun u b => u.setByte (accBase p e.1 + b.2) b.1) t) s

/-- The accumulator save area of a task (12 R208). -/
def accArea (s : State) (p : Nat) (k : Task) : List Nat :=
  let w := match k.wideNow with
    | some w => 2 ^ 8 + (w - 1) * 2 ^ 16
    | none => 0
  tileImages s p k.tiles ++ bytesOf 8 (k.tiles.length + w) ++ List.replicate 120 0

/-- The tiles of the task of slot `n` written to its accumulator save area; none where that fails (R308). -/
def saveAcc (s : State) (n : Nat) : Option State :=
  match (s.slot n).task with
  | none => some s
  | some k =>
    if k.tiles = [] then some s
    else if tilesPoisoned s (clusterOf n) k.tiles then none
    else saveWrite s n (localEa (frameAt s k + 0x2000)) (accArea s (clusterOf n) k)

/-- The checkpoint of a held MSMM (12 R229). -/
def checkpoint (s : State) (p : Nat) (tiles : List Nat) (par kb pass : Nat) : List Nat :=
  let l := passList (parS par)
  let done := kb * l.length + pass
  let b := if pass = 0 then kb - 1 else kb
  let (t, u) := if done = 0 then (0, 0) else (l[(if pass = 0 then l.length else pass) - 1]?).getD (0, 0)
  bytesOf 8 (done * 2 ^ 32 + (if done = 0 then 0 else b) * 2 ^ 16 + t * 2 ^ 8 + u) ++ bytesOf 8 par ++
    List.replicate 112 0 ++ tileImages s p tiles

/-- Whether a matrix operation is an MSMM. -/
def MxOp.isMsmm (o : MxOp) : Bool := match o with
  | .msmm _ _ _ _ _ => true
  | _ => false

/-- The slot's earliest MSMM that has not completed and the commands after it leave the queue and are held; the checkpoint of the
MSMM is written to its pass save area (12 R215, R229). None where that fails (R308). -/
def holdCommands (s : State) (n : Nat) : Option State :=
  if !isWorker n then some s
  else
    let p := clusterOf n
    let rest := ((s.cluster p).mx.filter fun m => m.slot == n).dropWhile fun m => !m.op.isMsmm
    let s1 := (s.modCluster p fun c => { c with mx := c.mx.filter fun m => !rest.contains m }).modSlot n fun x =>
      { x with held := rest ++ x.held }
    match rest with
    | [] => some s
    | m :: _ => match m.op with
      | .msmm par save kb pass _ => if tilesPoisoned s1 p m.tiles then none else saveWrite s1 n save (checkpoint s1 p m.tiles par kb pass)
      | _ => some s1

/-- Commands of slot `n` that its cluster's engine has still to complete. -/
def mxOut (s : State) (n : Nat) : Bool := isWorker n && (s.cluster (clusterOf n)).mx.any fun m => m.slot == n

/-! ### PREEMPT -/

/-- Whether a record of the slot, or of a stream or a copy of it, awaits its reply (R309). -/
def recordPending (s : State) (n : Nat) : Bool :=
  let x := s.slot n
  x.posted.isSome || (x.streams.any fun e => e.2.posted.isSome) ||
    (isWorker n && (List.range 4).any fun q => (queueOf s (clusterOf n) q).any fun c => c.slot == n && c.posted.isSome)

/-- The offers of a slot. -/
def offersOf (x : Slot) : List Offer := [x.offer, x.stand, x.susp].filterMap id

/-- Whether a PREEMPT request of slot `n` is taken now (R305): at an instruction boundary of a Running slot, or Offering with no
commit on its way (10 R189); not in the resident handler, not Halted, not while a record awaits its reply. -/
def preemptDue (s : State) (n : Nat) : Bool :=
  let x := s.slot n
  x.preReq && !x.inh && x.task.isSome && isWorker n && !haltedCore s (coreOf n) && !recordPending s n &&
    (x.st == .running || x.st == .offering) &&
    !(offersOf x).any fun o => commitSent s n o.id

/-- Whether a PREEMPT request that is due can go on now: an offer has still to be withdrawn, or every withdrawal is complete. -/
def preemptActs (s : State) (n : Nat) : Bool :=
  preemptDue s n && ((offersOf (s.slot n)).any (fun o => o.wdr.isNone) || (offersOf (s.slot n)).all fun o => o.wdr == some 0)

/-- The withdrawn offers of a pre-empted slot (10 R189): a blocking one executes again, a standing one and a suspended one are
put by to be offered again. What remains of an OFFERT limit is kept (R306). -/
def putByOffers (s : State) (n : Nat) : State :=
  let bare := fun (o : Option Offer) => o.map fun q => { q with claim := none, next := none, waiters := [], wdr := none }
  s.modSlot n fun x =>
    { x with
      offer := none
      stand := bare x.stand
      susp := bare x.susp
      cut := x.offer
      limit := match x.offer with
        | some o => o.left.map fun l => (x.pc, l)
        | none => none }

/-- The decode tables of its core that the launch of slot `n` owns, put by (06 R107). -/
def keepTables (s : State) (n : Nat) : State :=
  let c := s.core (coreOf n)
  s.modSlot n fun x =>
    let mine := fun (t : Table) => if t.owner = some (launchKey x) then some t else none
    { x with keptA := mine c.tabA, keptB := mine c.tabB }

/-- The lease of slot `n` ends with its pre-emption (12 R205); it is due a fresh one (R206). -/
def dropHolder (s : State) (n : Nat) : State :=
  if leaseLive s n then (dropLease s n).modSlot n fun x => { x with want := true } else s

/-- PREEMPT (R305): the slot's offers are withdrawn first, which lets an occurrence committed meanwhile stand (10 R189). Then the lease
ends, matrix commands are held, tables and tiles are kept, and the slot enters the resident handler. A write that fails loses the save
(R308). -/
def preempt (n : Nat) (s : State) : State :=
  if !preemptActs s n then s
  else if (offersOf (s.slot n)).any fun o => o.wdr.isNone then (offersOf (s.slot n)).foldl (fun t o => startWithdraw t n o) s
  else
    let s1 := keepTables (dropHolder (putByOffers s n) n) n
    match holdCommands s1 n with
    | none => fatalFault s n (faultRec s n saveLost)
    | some s2 =>
      if mxOut s2 n then enterHandler (s2.modSlot n fun x => { x with accDue := true }) n 1
      else match saveAcc s2 n with
        | none => fatalFault s n (faultRec s n saveLost)
        | some s3 => enterHandler s3 n 1

/-- PREEMPT (R305). -/
def execPreempt (slot : Nat) (s : State) := event (preempt slot) s

/-! ### CTXSAVE -/

/-- The position list of a standing offer (10 R196). -/
def standList (x : Slot) : Nat :=
  match x.stand with
  | some o => o.pos.foldl (fun a p => a + (0x80 + p.es) * 2 ^ (8 * p.pos)) 0
  | none => 0

/-- The descriptors of the blocking offer that was withdrawn, or that a standing offer's handler has suspended, in the form of 10 R176; `free`
stands for those that it did not read. -/
def cutBytes (x : Slot) (free : List Nat) : List Nat :=
  (List.range 8).flatMap fun i =>
    match (x.cut.or x.susp).bind fun o => o.pos.find? fun p => p.pos == i && p.buf != 0 && o.cause < 2 with
    | some p => bytesOf 8 (p.role * 2 ^ 61 + p.buf)
    | none => (free.drop (8 * i)).take 8

/-- Bytes +0x000 to +0x3F7 of the save area (R306); the fields whose form the spec does not give are free bytes. -/
def saveBytes (s : State) (n : Nat) : List Nat × State :=
  let x := s.slot n
  let d := x.dorm.getD ⟨none, none, none, x.instret, x.epc.toNat⟩
  let f := d.frame.getD ⟨[], 0, 0, 0, 0, 0, 0, 0⟩
  let (g1, s1) := freeBytes s 72
  let (g2, s2) := freeBytes s1 88
  let w := fun (v : Word) => bytesOf 8 v.toNat
  (((List.range 64).flatMap fun r => w (x.rs r)) ++ bytesOf 8 d.entry ++
    w x.fmt ++ w (statWord x) ++ w x.flags ++ w x.rmode ++ bytesOf 8 d.instret ++ w (ofrWord x) ++ w x.domain ++
    ((List.range 32).flatMap fun e => bytesOf 4 (x.bound e)) ++
    ((List.range 16).flatMap fun i => bytesOf 4 (f.words.getD i 0)) ++
    bytesOf 8 (f.count % 2 ^ 32 + f.dd % 8 * 2 ^ 40 + f.da % 8 * 2 ^ 36 + f.db % 8 * 2 ^ 32) ++ g1.take 8 ++
    cutBytes x (g1.drop 8) ++
    bytesOf 8 (standList x) ++ bytesOf 8 ((x.stand.map (·.handler)).getD 0) ++
    ((List.range 8).flatMap fun j => w (x.shadow.get (52 + j) 0)) ++ g2, s2)

/-- The bytes of a decode table in the context extension area. -/
def tableBytes (t : Option Table) : List Nat :=
  let u := t.getD {}
  ((List.range 256).flatMap fun c => bytesOf 4 (u.entry c)) ++ bytesOf 8 u.desc

/-- The context extension area (R306): v0 to v31, k0 to k7 and the decode tables, in this order. -/
def extBytes (x : Slot) : List Nat :=
  ((List.range 32).flatMap fun r => vecBytes (x.rv r)) ++ ((List.range 8).flatMap fun r => bytesOf 16 (x.rk r).toNat) ++
    tableBytes x.keptA ++ tableBytes x.keptB

/-- The context of the task of slot `n` written, the check word last (R306); none where a write fails (R308). -/
def saveContext (s : State) (n : Nat) (k : Task) : Option (Pre × State) := do
  let x := s.slot n
  let (area, s1) := saveBytes s n
  let ext := extBytes x
  let check := Config.checkWord (area ++ ext)
  let base := localEa x.saveptr.toNat
  let s2 ← saveWrite s1 n base area
  let s3 ← saveWrite s2 n (localEa (frameAt s k)) ext
  let s4 ← if x.accDue then saveAcc s3 n else some s3
  let s5 ← saveWrite s4 n ((base + 0x3F8) % 2 ^ 64) (bytesOf 8 check.toNat)
  let order := (s.pre.map (·.order)).foldl max 0 + 1
  some ({ slot := { x with accDue := false }, home := n, order := order, bytes := area ++ ext, check := check, image := [], out := false }, s5.modSlot n fun y => { y with accDue := false })

/-- The TCM image of the task of slot `n` written to its frame (R306; 22 R327); none where that fails (R308). -/
def saveImage (s : State) (n : Nat) (k : Task) : Option State :=
  if rangePoisoned s (bankCell n k) (k.tcm * 4096) then none
  else saveWrite s n (localEa (frameAt s k + 0x10000)) (cellBytes s (bankCell n k) (k.tcm * 4096))

/-- What a party entry becomes when the task of slot `n` leaves it: the entry, marked with the order of pre-emption. -/
def awayParty (s : State) (n order p : Nat) : Nat :=
  if p < 2 ^ 32 ∧ slotOfParty s p = some n then p + 2 ^ 32 * (order + 1) else p

/-- What it becomes when the task takes slot `m`. -/
def backParty (s : State) (m order p : Nat) : Nat :=
  if p / 2 ^ 32 = order + 1 then partyOf s (p % 2 ^ 32 / 2 ^ 28) m else p

/-- Every party entry, at the homes and in messages, changed by `g` (14 R254 step 3, R255). -/
def mapParties (s : State) (g : Nat → Nat) : State :=
  { s with
    homes := s.homes.map fun (e : Nat × Resolver) =>
      (e.1, { e.2 with
        evs := e.2.evs.map fun (v : Nat × Ev) => (v.1, { v.2 with parties := v.2.parties.map g })
        regs := e.2.regs.map fun (r : Reg) => { r with party := g r.party }
        tries := e.2.tries.map fun (y : Try) => { y with asked := y.asked.map g, granted := y.granted.map fun q => (g q.1, q.2) } })
    msgs := s.msgs.map fun (m : Msg) =>
      match m.body with
      | .engine p i gen => { m with body := .engine (g p) i gen }
      | .pull p i gen => { m with body := .pull (g p) i gen }
      | .register p i gen side o sg pos role buf => { m with body := .register (g p) i gen side o sg pos role buf }
      | .barrier sl o key ps => { m with body := .barrier sl o key (ps.map g) }
      | _ => m }

/-- The agents of a slot number carried over to another: copy commands, and launches that offer an event for it. -/
def mapSlot (s : State) (n m : Nat) : State :=
  { s with
    clusters := s.clusters.map fun (e : Nat × Cluster) =>
      (e.1, { e.2 with copies := e.2.copies.map fun (q : Nat × List CpCmd) =>
        (q.1, q.2.map fun c => if c.slot == n then { c with slot := m } else c) })
    launches := s.launches.map fun (e : Nat × Launch) =>
      if e.2.src == 1 && e.2.srcSlot == n then (e.1, { e.2 with srcSlot := m }) else e }

/-- The slot of a pre-empted task is Free; its TCM and its protection region are gone (R317). -/
def vacate (s : State) (n : Nat) (k : Task) : State :=
  ((clearRange s (bankCell n k) (k.tcm * 4096)).modSlot n emptied).modCore (coreOf n) fun c =>
    { c with trgn := c.trgn.set (slotIn n) 0 }

/-- The task of slot `n` leaves it as Pre-empted, with the context `e`. -/
def leaveSlot (s : State) (n : Nat) (k : Task) (e : Pre) : State :=
  let want := e.slot.want || (s.cluster (clusterOf n)).lease.reqs.any fun q => q.1 == n
  let x := { s.slot n with task := some { k with used := taskCycles s n k }, want := want }
  let s1 := dropLease s n
  let s2 := mapSlot (mapParties s1 (awayParty s n e.order)) n (awaySlot e.order)
  vacate { s2 with pre := s2.pre ++ [{ e with slot := x, out := true }] } n k

/-- A Lingering team leaves with its instance, with its allocation (02 R38). -/
def leaveLingering (s : State) (m : Nat) (j : Task) : State :=
  let o := (s.pre.map (·.order)).foldl max 0 + 1
  let e : Pre := { slot := s.slot m, home := m, order := o, bytes := [], check := 0,
                   image := cellBytes s (bankCell m j) (j.tcm * 4096), out := true }
  vacate { s with pre := s.pre ++ [e] } m j

/-- The context of the task of slot `n` kept for CTXREST, after its stores; none where a write fails. -/
def keepContext (s : State) (n : Nat) (k : Task) : Option State :=
  (saveContext (drainStores s n) n k).map fun r =>
    let t := dropContext r.2 n
    { t with pre := t.pre ++ [r.1] }

/-- The same with the TCM image of the task (R306). -/
def keepImage (s : State) (n : Nat) (k : Task) : Option State := (keepContext s n k).bind fun t => saveImage t n k

/-- The slots of the tasks that are pre-empted as a whole with that of slot `n`, `n` among them (02 R39; 14 R255). -/
def unitSlots (s : State) (n : Nat) (k : Task) : List Nat :=
  if k.kind = 1 then teamSlots s n
  else match chainOfTask s k with
    | some c => c.live.filterMap (stageSlot s c)
    | none => [n]

/-- Whether what slot `n` must wait for before its context is written is over (12 R215; R309). -/
def saveReady (s : State) (n : Nat) : Bool := !mxOut s n && !recordPending s n

/-- Whether slot `m` may leave its core with its unit: a Lingering team, or one that waits for that in its CTXSAVE. -/
def leaveReady (s : State) (m : Nat) : Bool :=
  (s.slot m).st == .lingering || ((s.slot m).st == .leaving && saveReady s m)

/-- What slot `m` does when its unit leaves: a Lingering team goes with its allocation, another with the context that it has kept. -/
def leaveOne (s : State) (m : Nat) : State :=
  match (s.slot m).task with
  | none => s
  | some k =>
    if (s.slot m).st = .lingering then leaveLingering s m k
    else match s.pre.find? fun e => !e.out && e.home == m with
      | some e => leaveSlot (retire (dropContext s m) m false) m k e
      | none => s

/-- The slots of a unit leave their cores as Pre-empted in one step (02 R39; 14 R255): every context is written before any slot is
vacated. A task whose save fails faults (R308). -/
def leaveUnit (s : State) (us : List Nat) : State :=
  let s1 := us.foldl (fun t m =>
    match (t.slot m).task with
    | none => t
    | some k =>
      if (t.slot m).st = .lingering then t
      else match keepImage t m k with
        | some u => u
        | none => fatalFault t m (faultRec t m saveLost)) s
  us.foldl leaveOne s1

/-- CTXSAVE (R317): the context of EPC's task is written; with r = 1 its TCM image too, and the task is Pre-empted, as a whole with the
other tasks of its unit: until the last of them comes to its CTXSAVE it stands on its slot and issues nothing (02 R39; 14 R255). Commands that the matrix engine has still to complete, and the reply to a record of an
engine command, are waited for (12 R215; R309). -/
def ctxsave (r : Nat) (s : State) (n : Nat) : Except Trap Res :=
  let x := s.slot n
  match x.task with
  | none => .error illegal
  | some k =>
    if x.inh = false || 1 < r then .error illegal
    else if !saveReady s n then .ok (.wait s .busy)
    else if r = 0 then
      match keepContext s n k with
      | some t => .ok (.done t)
      | none => .error saveLost
    else
      let us := unitSlots s n k
      if us.all fun m => m == n || leaveReady s m then
        (if (keepImage s n k).isSome then .ok (.keep (leaveUnit s us)) else .error saveLost)
      else .ok (.keep (s.modSlot n fun y => { y with st := .leaving }))

/-- CTXSAVE (R317, R318). -/
def execCtxsave (b : Nat) (s : State) := privileged (ctxsave b) s

/-! ### CTXREST -/

/-- The slot with its task's context (R306): everything that the context holds comes from `k`, the rest stays. -/
def restored (x k : Slot) : Slot :=
  let d := k.dorm.getD ⟨none, none, none, k.instret, k.epc.toNat⟩
  { x with
    st := .running
    pc := d.entry % 2 ^ 52
    s := k.s
    v := k.v
    k := k.k
    shadow := k.shadow
    fmt := k.fmt
    flags := k.flags
    rmode := k.rmode
    domain := k.domain
    pfx := d.pfx
    frame := d.frame
    again := d.again
    soh := k.soh
    instret := d.instret
    last := k.last
    lstat := k.lstat
    susp := k.susp
    stand := k.stand
    armNext := k.armNext
    ready := k.ready
    readyPc := k.readyPc
    evb := k.evb
    tag := k.tag
    iw := k.iw
    held := k.held
    limit := k.limit
    mode := false
    inh := false
    want := false
    cut := none
    dorm := none }

/-- The held commands name the tiles that the task has now, `new`, for those that it had (12 R208, R215). -/
def retileHeld (x k : Slot) (new : List Nat) : Slot :=
  { x with held := x.held.map fun m => m.retile ((k.task.map (·.tiles)).getD []) new }

/-- The image of a held MSMM that had begun, reloaded from its pass save area (12 R229). -/
def reloadHeld (s : State) (n : Nat) : Option State :=
  match (s.slot n).held with
  | [] => some s
  | m :: _ =>
    match m.op with
    | .msmm _ save _ _ true => (saveRead s n (save + 128) 16384).map fun bs => loadTiles s (clusterOf n) m.tiles bs
    | _ => some s

/-- CTXREST (R317): the context at SAVEPTR and in the extension area must be as CTXSAVE left it (R308); then the task goes on. -/
def ctxrest (s : State) (n : Nat) : Except Trap Res :=
  let x := s.slot n
  match x.task, s.pre.find? fun e => !e.out && e.home == n with
  | none, _ => .error illegal
  | some k, e? =>
    if x.inh = false then .error illegal
    else match e? with
      | none => .error saveLost
      | some e =>
        let base := localEa x.saveptr.toNat
        match saveRead s n base 0x400, saveRead s n (localEa (frameAt s k)) (e.bytes.length - 0x3F8) with
        | some area, some ext =>
          if area.take 0x3F8 ++ ext = e.bytes ∧ numOf (area.drop 0x3F8) = e.check.toNat then
            let s1 := (dropContext (s.modSlot n fun y => retileHeld (restored y e.slot) e.slot k.tiles) n).modCore (coreOf n) fun c =>
              { c with retired := c.retired + 1 }
            match reloadHeld s1 n with
            | none => .error saveLost
            | some s2 => .ok (.keep (rearm (readmit s2 n) n))
          else .error saveLost
        | _, _ => .error saveLost

/-- CTXREST (R317). -/
def execCtxrest (s : State) := privileged ctxrest s

end Sys2Proof.Machine
end

