-- ==== Sys2Proof/Machine/Launch.lean ====
section
/-!
DEFINITION. Launches (22 R321 to R328, R336; 02 R31 to R35, R50; 14 R244, R245): the launch record and its checks, acceptance,
LAUNCH, the command queues of a virtual interface, the completion of a launch.

Readings and choices of the model (log): DESIGN CHOICE 84; DEDUCED 40, 76, 79, 107, 108, 109, 111, 120, 121.
-/

namespace Sys2Proof.Machine

open Sys2Proof

/-! ### Memory as a device agent reaches it -/

/-- The holder number of the dispatcher's own translations: it holds no leaf, so every access walks. -/
def dispatcher : Nat := 4000

/-- The holder number of the ingress translator (20 R298). -/
def ingressTlb : Nat := 3000

/-- The cells of `len` bytes at the local address `lva` as an agent of the package reaches them for tenant `vi`, or the fault code:
the window space is no address of it (08 R136). -/
def agentCells (s : State) (holder vi lva len kind : Nat) : Except Nat (List Nat) :=
  match cellsGo (fun a =>
      if winBase ≤ a % 2 ^ 52 then .error (raise 0x05)
      else match translated s holder vi (a % 2 ^ 52) kind with
        | .ok c => .ok c
        | .error code => .error (raise code)) (lva % 2 ^ 52) none len with
  | .ok l => .ok l
  | .error t => .error t.code

/-- A number of `len` bytes read from device memory by the dispatcher; none where it cannot be read. -/
def agentRead (s : State) (vi lva len : Nat) : Option Nat :=
  match agentCells s dispatcher vi lva len 1 with
  | .error _ => none
  | .ok cells => if cells.any (fun c => isHost c || poisoned s c) then none else some (numOf (readCells s cells))

/-! ### The record -/

/-- A chain descriptor block (14 R244). -/
structure Chdb where
  form   : Nat
  fixed  : Bool
  nstage : Nat
  chan   : List Nat

/-- The region of a channel word (14 R245): its first offset and its end. -/
def chanRegion (w : Nat) : Nat × Nat :=
  let b := bits w 21 0
  (b, b + 128 + (bits w 63 60 + 1) * (if bit w 59 then 128 else 384))

/-- Whether a chain of `n` stages may be switched (14 R245). -/
def switchable (fixed : Bool) (n tcm nacc : Nat) : Bool := !fixed && n ≤ 4 && n * tcm ≤ 16 && n * nacc ≤ 4

/-- The chain descriptor block of a launch; none where R244 or R245 refuses it. -/
def readChdb (s : State) (vi aux tcm nacc : Nat) : Option Chdb :=
  if aux % 64 ≠ 0 ∨ isRemote s aux then none
  else match agentRead s vi aux 64 with
    | none => none
    | some w =>
      let h := dword w 0
      let n := bits h 58 56
      let ws := (List.range n).map fun c => dword w (1 + c)
      let rest := (List.range 7).any fun c => n ≤ c && dword w (1 + c) != 0
      let rs := ws.map chanRegion
      let clash := (List.range n).any fun i => (List.range n).any fun j => i < j &&
        (let a := rs.getD i (0, 0); let b := rs.getD j (0, 0); a.1 < b.2 && b.1 < a.2)
      let sw := switchable (bit h 61) (n + 1) tcm nacc
      if 1 < bits h 63 62 ∨ bits h 60 59 ≠ 0 ∨ bits h 55 0 ≠ 0 ∨ rest = true ∨
          ws.any (fun v => bits v 58 22 != 0 || bits v 6 0 != 0) ∨ rs.any (fun r => decide (2 ^ 22 < r.2)) ∨ clash = true ∨
          (bits h 63 62 = 1 ∧ sw = false) then none
      else some ⟨bits h 63 62, !sw, n, ws⟩

/-- The registration of a tenant's byte ring (24 R347). -/
def findRing (s : State) (vi brb : Nat) : Option Nat :=
  (s.regns.find? fun (e : Nat × Regn) =>
    bit e.2.w1.toNat 63 && bits e.2.w1.toNat 37 32 == vi && bits e.2.w0.toNat 51 6 * 64 == brb).map Prod.fst

/-- BIND of a registration: 0 none, 1 arrival, 2 reduction. -/
def Regn.bind (r : Regn) : Nat := bits r.w1.toNat 62 61

/-- BIND written. -/
def Regn.setBind (r : Regn) (b : Nat) : Regn :=
  { r with w1 := BitVec.ofNat 64 (keepBits r.w1.toNat 63 63 + b * 2 ^ 61 + keepBits r.w1.toNat 39 0) }

/-- Clusters over which a grid may extend: the product of a record's extents (R324). -/
def extentOf (w : Nat) : Nat := (bits w 15 0 + 1) * (bits w 31 16 + 1) * (bits w 47 32 + 1)

/-- The status that R325 gives a launch record of tenant `vi`: 0 where it is accepted. The checks stand in the order of the codes. -/
def checkRecord (s : State) (vi rec : Nat) (host : Bool) : Nat :=
  let d := dword rec
  let kind := bits (d 0) 63 60
  let cls := bits (d 0) 59 58
  let gsize := bits (d 0) 47 32
  let ext := bits (d 2) 47 0
  let aux := d 12
  let donew := d 13
  if 3 < kind ∨ bits (d 0) 50 48 ≠ 0 ∨ bits (d 0) 15 0 ≠ 0 ∨ bits (d 2) 63 48 ≠ 0 ∨ d 14 ≠ 0 ∨ d 15 ≠ 0 ∨
      (kind < 2 ∧ aux ≠ 0) then 0x01
  else if (kind = 0 ∧ (gsize = 0 ∨ 2 ^ 32 < extentOf ext)) ∨ (kind ≠ 0 ∧ gsize ≠ 0) ∨ (kind = 1 ∧ 2 ^ 16 ≤ ext) ∨
      (2 ≤ kind ∧ ext ≠ 0) then 0x02
  else if 4 < bits (d 0) 53 51 ∨ bits (d 0) 31 16 = 0 ∨ d 11 % 2 ^ 17 ≠ 0 then 0x03
  else if cls = 3 ∨ (cls = 1 ∧ bit (s.vif vi).tencfg.toNat 62 = false) then 0x04
  else if kind = 2 ∧ (readChdb s vi aux (bits (d 0) 57 54 + 1) (bits (d 0) 53 51)).isNone then 0x05
  else if kind = 3 ∧ ((findRing s vi (aux % 2 ^ 52)).isNone ∨ (s.regn ((findRing s vi (aux % 2 ^ 52)).getD 0)).bind ≠ 0) then 0x06
  else if 1024 ≤ (s.launches.filter fun e => e.1 == vi).length then 0x07
  else if d 1 % 4 ≠ 0 ∨ donew % 8 ≠ 0 ∨ (host = true ∧ donew ≠ 0 ∧ isRemote s donew) then 0x09
  else 0

/-- The source of a launch: its kind (0 host queue, 1 LAUNCH, 2 ring record), queue, tag, slot and event. -/
structure Source where
  kind  : Nat
  queue : Nat := 0
  tag   : Word := 0
  slot  : Nat := 0
  ev    : Option EvRef := none

/-- The launch that an accepted record describes (R324, R326). -/
def launchRec (rec id : Nat) (src : Source) (ring : Option Nat) : Launch :=
  let d := dword rec
  { id := id, kind := bits (d 0) 63 60, cls := bits (d 0) 59 58, tcm := bits (d 0) 57 54 + 1, nacc := bits (d 0) 53 51,
    gsize := bits (d 0) 47 32, nframe := bits (d 0) 31 16, entry := d 1 % 2 ^ 52, ex := bits (d 2) 15 0,
    ey := bits (d 2) 31 16, ez := bits (d 2) 47 32, argblk := BitVec.ofNat 64 (d 3),
    args := (List.range 7).map fun i => BitVec.ofNat 64 (d (4 + i)), frames := d 11 % 2 ^ 52, aux := d 12, donew := d 13,
    src := src.kind, queue := src.queue, srcTag := src.tag, srcSlot := src.slot, srcEv := src.ev,
    group := 0, doneIn := [], out := 0, retired := 0, inUse := [], fault := false, cancel := false, ended := none,
    ring := ring, seqn := 0, arrived := [] }

/-- The chain of an accepted CHAIN launch (14 R244, R252; R335). -/
def chainRec (vi id : Nat) (c : Chdb) : Chain :=
  { vi := vi, id := id, nstage := c.nstage, chan := c.chan, fixed := c.fixed, folded := c.form == 1, pend := none,
    budget := if c.form = 1 then 1 else c.nstage + 1, held := [], active := 0, cl := 0, evs := [], switches := 0,
    openWin := none, live := [] }

/-- A record presented by its source (R325, R326, R336): the status and, when it is accepted, the id; an arrival launch binds its ring,
a chain's descriptor is read now. -/
def present (s : State) (vi rec : Nat) (src : Source) : Nat × Nat × State :=
  let st := checkRecord s vi rec (src.kind = 0)
  if st ≠ 0 then (st, 0, s)
  else
    let id := (s.vif vi).nextId
    let ring := if bits (dword rec 0) 63 60 = 3 then findRing s vi (dword rec 12 % 2 ^ 52) else none
    let l := launchRec rec id src ring
    let s1 := s.modVi vi fun v => { v with nextId := if id = 2 ^ 32 - 1 then 1 else id + 1 }
    let s2 := { s1 with launches := s1.launches ++ [(vi, l)] }
    let s3 := match ring with
      | some r => s2.modRegn r fun g =>
          { (g.setBind 1) with launch := some id, cons := some ((agentRead s2 vi (dword rec 12 % 2 ^ 52 + 24) 8).getD 0) }
      | none => s2
    let s4 := if l.kind = 2 then
        match readChdb s vi l.aux l.tcm l.nacc with
        | some c => { s3 with chains := s3.chains ++ [chainRec vi id c] }
        | none => s3
      else s3
    (0, id, s4)

/-- The successor handle of a launch (R326). -/
def handleOf (vi id : Nat) : Word := BitVec.ofNat 64 (2 ^ 63 + vi * 2 ^ 32 + id)

/-! ### LAUNCH -/

/-- LAUNCH (R328): `go` says that the dispatcher's answer is back. -/
def launchOp (d a x e : Nat) (go : Bool) (s : State) (n : Nat) : Except Trap Res := do
  let ea := ((s.slot n).rs a).toNat
  if x = 0 ∧ e ≠ 0 then .error illegal
  else if ea % 64 ≠ 0 then .error (accTrap 0x03 ea 1 128 0)
  else if isRemote s ea then .error (accTrap 0x05 ea 1 128 0)
  else if winBase ≤ ea % 2 ^ 52 ∧ inOwn ea = false then .error (accTrap 0x05 ea 1 128 0)
  else
    let ev ← eventField s n x e 10
    let (rec, s1) ← readBlock s n ea 128
    if s.late && !go then .ok (.wait s (.answer (.launch d a x e)))
    else
      let vi := (s.slot n).vi
      let (st, id, s2) := present s1 vi rec { kind := 1, slot := n, ev := ev }
      writeDone s2 n d (if st ≠ 0 then BitVec.ofNat 64 st else handleOf vi id)

/-- LAUNCH (R328): what the slot did before happens before the launched tasks (02 R32). -/
def execLaunch (d a x e : Nat) (s : State) := plain (released (launchOp d a x e false)) s

/-! ### Reservations and bindings -/

/-- The slots Reserved for a launch become Free, their banks are powered down (02 R50). -/
def dropReserved (s : State) (vi id : Nat) : State :=
  s.slots.foldl (fun t (e : Nat × Slot) =>
    match e.2.st, e.2.task with
    | .reserved v l _ _ _, some k => if v = vi ∧ l = id then vacate t e.1 k else t
    | _, _ => t) s

/-- The arrival binding of a launch ends (R336): the records that it has launched keep their space until their tasks retire, the
others stay in the ring as ordinary data. -/
def unbindRing (s : State) (vi id : Nat) : State :=
  match (launchOf s vi id).bind (·.ring) with
  | none => s
  | some r =>
    if (s.regn r).launch = some id ∧ (s.regn r).bind = 1 then
      s.modRegn r fun g =>
        let rs := g.recs.filter fun e => e.stage != 2
        { (g.setBind 0) with launch := none, recs := rs, cons := if rs.any fun e => e.stage == 3 then g.cons else none }
    else s

/-- An arrival binding ends with a status (R336). -/
def endBinding (s : State) (vi id st : Nat) : State :=
  modLaunch (unbindRing s vi id) vi id fun l => { l with ended := some (l.ended.getD st) }

/-! ### Host queues -/

/-- An entry of a completion queue that is due (R323). -/
def dueEntry (s : State) (vi : Nat) (tag : Word) (id queue st : Nat) : State :=
  s.modVi vi fun v => { v with waiting := v.waiting ++ [(tag, BitVec.ofNat 64 (id * 2 ^ 32 + queue * 2 ^ 8 + st))] }

/-- The entries of a queue (R321). -/
def queueSize (w : Word) : Nat := 2 ^ bits w.toNat 3 0

/-- The next command queue of a VI that the device visits with effect (R322, R330): the first enabled one that has a command, in
rotation; none while the tenant is disabled. -/
def nextQueue (s : State) (vi : Nat) : Option Nat :=
  let v := s.vif vi
  if bit v.tencfg.toNat 63 then
    ((List.range 4).map fun i => (v.rotq + i) % 4).find? fun q =>
      let u := v.queues.get q {}
      bit u.ctl.toNat 63 && u.head != u.tail
  else none

/-- A queue changed. -/
def modQueue (s : State) (vi q : Nat) (f : Queue → Queue) : State :=
  s.modVi vi fun v => { v with queues := v.queues.set q (f (v.queues.get q {})) }

/-- The 256 bytes of the next command of a queue (R322). -/
def commandAt (s : State) (vi q : Nat) : Nat :=
  let u := (s.vif vi).queues.get q {}
  s.raw (hostBase + (bits u.base.toNat 63 8 * 2 ^ 8 + 256 * (u.head % queueSize u.ctl)) % 2 ^ 64) 256

/-- Whether a command breaks the layout of R322: an unknown OP, or a nonzero zero field. -/
def commandBad (w : Nat) : Bool :=
  let op := w % 2 ^ 8
  dword w 0 / 2 ^ 8 != 0 || (op != 1 && op != 2) || w / 2 ^ (8 * 144) != 0 ||
    (op == 2 && (dword w 2 / 2 ^ 32 != 0 || w / 2 ^ (8 * 24) != 0))

/-- A queue whose tail has run ahead of its size is disabled, and BADCMD is posted (R322). No command is read: the tag is a free
value. -/
def overrun (s : State) (vi q : Nat) : State :=
  let (tag, s1) := draw s
  dueEntry (modQueue s1 vi q fun u => { u with ctl := u.ctl &&& 0x7FFFFFFFFFFFFFFF }) vi tag 0 q 0x08

/-- A visit to a command queue that reads a command of the wanted sort (R322): `f` gives it its effect. `cancel` selects CANCEL; a
command with an unknown OP counts among the others. -/
def visit (vi : Nat) (cancel : Bool) (f : State → Nat → Nat → State) (s : State) : State :=
  match nextQueue s vi with
  | none => s
  | some q =>
    let u := (s.vif vi).queues.get q {}
    if queueSize u.ctl < dist32 u.tail u.head then overrun s vi q
    else
      let w := commandAt s vi q
      if (w % 2 ^ 8 == 2) != cancel then s
      else
        let s1 := (modQueue s vi q fun e => { e with head := inc32 e.head }).modVi vi fun v => { v with rotq := (q + 1) % 4 }
        if commandBad w then dueEntry s1 vi (BitVec.ofNat 64 (dword w 1)) 0 q 0x08 else f s1 q w

/-- HOST_LAUNCH (R322, R323, R325): the record is checked; ACCEPTED or the refusal is posted. -/
def hostLaunch (vi : Nat) (s : State) : State :=
  visit vi false (fun t q w =>
    let tag : Word := BitVec.ofNat 64 (dword w 1)
    let (st, id, t1) := present t vi (w / 2 ^ 128 % 2 ^ 1024) { kind := 0, queue := q, tag := tag }
    dueEntry t1 vi tag id q (if st = 0 then 0x20 else st)) s

/-- HOST_LAUNCH (R322). -/
def execHostLaunch (vi : Nat) (s : State) := event (hostLaunch vi) s

/-- COMPLETION_ENTRY_POST (R323, R356, R357): the oldest entry due is written and CQTAIL advances, while the queue has room. -/
def completionEntryPost (vi : Nat) (s : State) : State :=
  let v := s.vif vi
  match v.waiting with
  | [] => s
  | (tag, w) :: rest =>
    if bit v.cqctl.toNat 63 = false ∨ queueSize v.cqctl ≤ dist32 v.cqtail v.cqhead then s
    else
      let c := hostBase + (bits v.cqbase.toNat 63 4 * 16 + 16 * (v.cqtail % queueSize v.cqctl)) % 2 ^ 64
      let s1 := (s.setRaw c 8 tag.toNat).setRaw (c + 8) 8 w.toNat
      let s2 := s1.modVi vi fun x => { x with waiting := rest, cqtail := inc32 x.cqtail }
      if v.cqie then { s2 with irqs := s2.irqs ++ [(vi, 0)] } else s2

/-- COMPLETION_ENTRY_POST (R323). -/
def execCompletionEntryPost (vi : Nat) (s : State) := event (completionEntryPost vi) s

/-! ### Completion -/

/-- Whether some task of the launch has still to be dispatched for the first time (02 R28, R31). -/
def moreToDispatch (l : Launch) : Bool :=
  if l.kind = 3 then !l.arrived.isEmpty || (l.ended.isNone && !l.cancel)
  else !l.cancel &&
    (if l.kind = 0 then decide (l.group * l.gsize + l.doneIn.length < (l.ex + 1) * (l.ey + 1) * (l.ez + 1))
     else if l.kind = 1 then decide (l.group ≤ l.ex)
     else l.group == 0)

/-- The completion status of a launch, in the order of precedence of R326. -/
def doneStatus (l : Launch) : Nat :=
  if l.fault then 0x12 else if l.cancel then 0x10 else l.ended.getD 0x00

/-- The tag of a store that is no member of a batch: the device's own. -/
def noBatch : Nat := 4

/-- The completion word (R326): dropped where it cannot be written; to another node it goes as a store. -/
def writeDonew (s : State) (vi : Nat) (l : Launch) (st : Nat) : State :=
  let w := l.id * 2 ^ 32 + st
  if l.donew = 0 then s
  else if isRemote s l.donew then
    (transmit s ⟨0, 0, l.donew / 2 ^ 52, s.node * 2 ^ 13, vi, 0, noBatch, l.donew % 2 ^ 52, 8, 0, w, 0⟩).getD s
  else match agentCells s dispatcher vi l.donew 8 2 with
    | .error _ => s
    | .ok cells => if cells.any (poisoned s) then s else agentStore s cells (bytesOf 8 w)

/-- The events with PERSIST 0 that the launch of a tenant, by its key, has made on this node are freed (10 R172). -/
def freeEvents (s : State) (vi key : Nat) : State := s.homes.foldl (fun t (e : Nat × Resolver) =>
    e.2.evs.foldl (fun u (v : Nat × Ev) =>
      if v.2.live && !v.2.persist && v.2.vi == vi && v.2.launch == key then freeEv u ⟨e.1, v.1, v.2.gen⟩ else u) t) s

/-- The nodes on which a launch has made events learn that it has completed (10 R172). -/
def tellFar (s : State) (vi id : Nat) (nodes : List Nat) : State :=
  nodes.foldl (fun t m => (transmit t { devicePacket t 12 m vi with data := id }).getD t) s

/-- What a launch leaves is freed (10 R172; 12 R210): its events with PERSIST 0, here and on other nodes, its matrix rings. -/
def freeLaunch (s : State) (vi id : Nat) : State :=
  let s0 := tellFar (freeEvents s vi id) vi id (((launchOf s vi id).map (·.far)).getD [])
  let s1 := freeFarChans s0 fun f => f.vi == vi && f.launch == id && !f.persist
  { s1 with
    kept := s1.kept.filter fun k => k.2 != (vi, id)
    aims := s1.aims.filter fun a => !(a.1 == vi && a.2.1 == id)
    clusters := s1.clusters.map fun (e : Nat × Cluster) =>
      (e.1, { e.2 with rings := e.2.rings.map fun (r : Nat × Ring) =>
        if r.2.owner == some (vi, id) then (r.1, {}) else r })
    chains := s1.chains.filter fun c => !(c.vi == vi && c.id == id) }

/-- The place in the rotation of a class that a launch which completes has held, passed to the one before it (R337). -/
def leaveTurn (s : State) (vi : Nat) (l : Launch) (v : Vi) : Vi :=
  if v.turn.get l.cls 0 = l.id then
    let ls := (s.launches.filter fun e => e.1 == vi && e.2.cls == l.cls).map fun e => e.2.id
    { v with turn := v.turn.set l.cls (((ls.takeWhile (· != l.id)).getLast?).getD 0) }
  else v

/-- LAUNCH_COMPLETION (R326, R328; 02 R33, R50): when every task has retired, the completion word, then the event or the entry. -/
def launchCompletion (vi id : Nat) (s : State) : State :=
  match launchOf s vi id with
  | none => s
  | some l =>
    if moreToDispatch l ∨ l.out ≠ 0 then s
    else
      let st := doneStatus l
      let s1 := writeDonew s vi l st
      let s2 :=
        if l.src = 0 then dueEntry s1 vi l.srcTag id l.queue st
        else if l.src = 1 ∧ l.srcEv.isSome then
          engineOffer s1 (taskAgent s1 10 l.srcSlot) l.srcEv
        else s1
      let s3 := unbindRing (dropReserved s2 vi id) vi id
      let s4 := freeLaunch s3 vi id
      { s4.modVi vi (leaveTurn s4 vi l) with launches := s4.launches.filter fun e => !(e.1 == vi && e.2.id == id) }

/-- LAUNCH_COMPLETION (R326). -/
def execLaunchCompletion (vi id : Nat) (s : State) := event (launchCompletion vi id) s

end Sys2Proof.Machine
end

