-- ==== Sys2Proof/Machine/Ingress.lean ====
section
/-!
DEFINITION. A node's network interface: the dequeue of remote requests (24 R346; 08 R136, R138, R161, R167), close requests (08 R166),
byte rings, their registration and their binding (08 R148 to R150; 24 R347 to R351; 22 R336), and CANCEL (22 R339).

Readings and choices of the model (log): DESIGN CHOICE 63, 149; DEDUCED 26, 43, 68, 70, 74, 75, 76, 83, 108, 117, 119,
120, 126, 133, 140, 151, 157, 158, 161, 162, 163.
-/

namespace Sys2Proof.Machine

open Sys2Proof

/-! ### Answers and requests -/

/-- The node of an agent id. -/
def nodeOfAgent (a : Nat) : Nat := bits a 24 13

/-- The answer to a request, in class S (24 R345): status, data, flags. Without a route it is lost with its receiver. -/
def respond (s : State) (q : Packet) (st data flags : Nat) : State :=
  (transmit s ⟨2, 6, nodeOfAgent q.src, s.node * 2 ^ 13, q.vi, q.seq, q.tag, q.src, q.size, st, data, flags⟩).getD s

/-- A batch member that has been performed (`b` is 0) or has failed with error bit `b`, kept until the close request of its batch (08 R166,
R167): source, tag, sequence number, bit. -/
def noteErr (s : State) (q : Packet) (b : Nat) : State :=
  if q.tag = noBatch then s else { s with errs := s.errs ++ [(q.src, q.tag, q.seq, b)] }

/-- The number under which writes of another node's agent are accounted (16 R266). -/
def writerOf (q : Packet) : Nat := noSlot + q.src

/-- The summary bit of a fault code (08 R167). -/
def summaryBit (code : Nat) : Nat := if code = 0x04 then 2 else if code = 0x0D then 8 else if code = 0x10 then 16 else 4

/-- A request that fails: a store or an atomic without a result is reported in its batch, any other is answered (08 R138, R162). -/
def failRequest (s : State) (q : Packet) (code : Nat) : State :=
  if q.op = 0 then noteErr s q (summaryBit code)
  else if q.op = 2 ∧ bit q.sub 8 then respond (noteErr s q (summaryBit code)) q 0 0 0
  else respond s q code 0 0

/-- The saved answer of an atomic that arrives again (08 R161): old value and flags. -/
def savedAnswer (s : State) (q : Packet) : Option (Nat × Nat) :=
  ((s.cache.get q.src []).find? fun e => e.1 == q.seq).map Prod.snd

/-- An answer saved; the home keeps the last 32 of each source. -/
def saveAnswer (s : State) (q : Packet) (old fl : Nat) : State :=
  let l := s.cache.get q.src [] ++ [(q.seq, old, fl)]
  { s with cache := s.cache.set q.src (l.drop (l.length - 32)) }

/-- An atomic or an ACAS2 performed once at its home (08 R158 to R163): old value, flags, state. One that routers have merged brings the
flags of the combining steps in `cmp` (R160). -/
def ingressAtomic (s : State) (q : Packet) (cells : List Nat) : Nat × Nat × State :=
  let w := 8 * cells.length
  let merged := if q.op = 2 ∧ q.sub % 16 ≠ 9 then q.cmp % 32 else 0
  let old := numOf (readCells s cells)
  let (new, fl) := if q.op = 3 then (if old = q.cmp then q.data else old, 0) else atomNew (q.sub % 16) w old (q.data % 2 ^ w) (q.cmp % 2 ^ w)
  let s1 := bumpOnce (if q.op = 3 ∧ old ≠ q.cmp then s else writeCells s cells (bytesOf cells.length new)) (writerOf q) cells
  (old, fl ||| merged, noteAtomFlags s1 q.vi (cells.headD 0) (fl ||| merged))

/-- A party entry of a creation request of another node, with physical places: the sender sends those of its own node so, those of this
node as its tenant sees them. -/
def remoteParty (s : State) (q : Packet) (e : Nat) : Nat :=
  let k := e / 2 ^ 28
  let low :=
    if bits e 24 13 ≠ s.node ∨ k = 7 then e % 2 ^ 13
    else if k = 8 ∨ k = 9 then e % 2 ^ 13 + meshBase s q.vi / 32 * 2 ^ 11
    else e % 2 ^ 13 + meshBase s q.vi * 2 ^ 6
  e / 2 ^ 13 * 2 ^ 13 + low % 2 ^ 13

/-- The key by which events that a launch of another node has made here are kept. -/
def farLaunch (node id : Nat) : Nat := (node + 1) * 2 ^ 32 + id % 2 ^ 32

/-- The entry that a creation request of another node asks for (10 R174, R175). -/
def farEntry (s : State) (q : Packet) : Ev :=
  let plan := bits q.data 60 58
  let ps := (List.range (bits q.data 55 49)).map fun i => remoteParty s q (q.cmp / 2 ^ (32 * i) % 2 ^ 32)
  { persist := bit q.data 61, plan := plan, efmt := bits q.data 57 56, parties := if plan = 4 then ps else sortParties ps,
    rooted := bit q.data 48, root := bits q.data 47 42, len := bits q.data 41 25, depth := bits q.data 12 9 + 1,
    cl := if plan = 4 then farCluster else 0, vi := q.vi, launch := farLaunch (nodeOfAgent q.src) q.sub }

/-- The events of this node that have one of the party entries packed in `w` as a party break: their agent's task has faulted fatally on
another node (10 R186). -/
def breakFarParties (s : State) (w : Nat) : State :=
  let ps := (List.range 6).map fun i => w / 2 ^ (32 * i) % 2 ^ 32
  { s with homes := s.homes.map fun (e : Nat × Resolver) =>
      (e.1, { e.2 with evs := e.2.evs.map fun v =>
        if v.2.live && v.2.parties.any ps.contains then (v.1, { v.2 with broken := true }) else v }) }

/-- The events that tenant `vi` of another node has made here with PERSIST 1 are freed: the tenant is destroyed (10 R172). -/
def freeFarPersistent (s : State) (vi node : Nat) : State := s.homes.foldl (fun t (e : Nat × Resolver) =>
    e.2.evs.foldl (fun u (v : Nat × Ev) =>
      if v.2.live && v.2.persist && v.2.vi == vi && v.2.launch / 2 ^ 32 == node + 1 then freeEv u ⟨e.1, v.1, v.2.gen⟩ else u) t) s

/-- The offer unit of a slot, and the offer, that a message is for. -/
def unitMsg (b : MsgBody) : Option (Nat × Nat) := match b with
  | .claim n o _ => some (n, o)
  | .release n o _ _ => some (n, o)
  | .commit n o _ _ => some (n, o)
  | .gone n o => some (n, o)
  | .denied n o => some (n, o)
  | _ => none

/-- The pre-empted task that a message of another node is for: it has left the slot, which has no such offer (20 R307). -/
def awayFor (s : State) (m : Msg) : Option Pre :=
  (unitMsg m.body).bind fun e =>
    if (offerById (s.slot e.1) e.2).isSome then none else (s.pre.filter fun p => p.out && p.home == e.1).getLast?

/-- The tenant of a context. -/
def Pre.vi (e : Pre) : Nat := e.slot.vi

/-- A place for one more item of 64 bytes in a tenant's spill buffer; none when it is full or disabled (20 R296, R307). -/
def spillPlace (v : Vi) : Option Nat :=
  (List.range (min (64 * bits v.ctxbuf.toNat 11 0) (v.spill.length + 1))).find? fun i => !v.spill.any fun e => e.2.1 == i

/-- The cells of a place of a tenant's spill buffer: physical memory. -/
def spillCells (v : Vi) (i : Nat) : List Nat := (List.range 64).map (bits v.ctxbuf.toNat 51 12 * 2 ^ 12 + 64 * i + ·)

/-- CONTEXT_SPILL (20 R307, R308): an event message for a pre-empted task is written to its tenant's spill buffer, in a form that the spec
does not give; an uncorrectable error there loses the save. -/
def spillItem (s : State) (e : Pre) (i : Nat) (m : Msg) : State :=
  let cells := spillCells (s.vif e.vi) i
  let (bs, s1) := freeBytes s 64
  let s2 := (agentStore s1 cells bs).modVi e.vi fun v => { v with spill := v.spill ++ [(e.order, i, m)] }
  if cells.any (poisoned s) then
    { s2 with pre := s2.pre.map fun f => if f.order == e.order then { f with lost := true } else f }
  else s2

/-- An event message of another node. One for a pre-empted task is spilled; an offer of a tenant that is not enabled is dropped, and its unit
learns of it (22 R331). -/
def ingressMsg (s : State) (q : Packet) (m : Msg) : State :=
  match awayFor s m, m.body with
  | some e, _ => ((spillPlace (s.vif e.vi)).map fun i => spillItem s e i m).getD s
  | none, .register p _ _ _ o _ _ _ _ =>
    let s1 := { s with unitVi := s.unitVi.set p q.vi }
    if enabledVi s q.vi then send s1 m else toUnit s1 132 (2 ^ 32 + p) (.denied (2 ^ 32 + p) o)
  | none, .engine _ _ _ => if enabledVi s q.vi then send s m else s
  | none, _ => send s m

/-- A request of class E: an event message, an EVNEW, EVFREE, EVBREAK or EVSTAT for a home of this node, the completion of a launch that
made events here, a fatal fault of a task there, or the destruction of a tenant (10 R171, R172, R183, R186, R193). A tenant that is not
enabled is admitted only for what it has begun (22 R331). -/
def ingressEvent (s : State) (q : Packet) : State :=
  let r : EvRef := ⟨132, q.data % 2 ^ 14, bits q.data 29 26⟩
  if q.op = 11 then ((shipped s q).map (ingressMsg s q)).getD s
  else if q.op = 12 then freeEvents s q.vi (farLaunch (nodeOfAgent q.src) q.data)
  else if q.op = 13 then breakFarParties s q.data
  else if q.op = 14 then freeFarPersistent s q.vi (nodeOfAgent q.src)
  else if !enabledVi s q.vi then (if q.op = 7 ∨ q.op = 10 then respond s q 0x0D 0 0 else s)
  else if q.op = 7 then
    match newEv s 132 (farEntry s q) with
    | none => respond s q 0 0 0
    | some (r, s1) => respond s1 q 0 (3 * 2 ^ 30 + r.gen * 2 ^ 26 + s.node * 2 ^ 14 + r.idx) 0
  else if q.op = 8 then (if (evOf s r).any fun e => e.vi == q.vi then freeEv s r else s)
  else if q.op = 9 then breakEv s r
  else respond s q 0 (match evOf s r with
    | none => 3 * 2 ^ 62
    | some e => (if e.broken then 2 else 1) * 2 ^ 62 + 3 * 2 ^ 60 + e.plan * 2 ^ 57 + e.parties.length * 2 ^ 32 + e.occ % 2 ^ 32) 0

/-- Whether a message is for a pre-empted task whose tenant's spill buffer is full or disabled: it stays in its queue, and only that tenant's
traffic waits (20 R307). -/
def spillWaits (s : State) (q : Packet) : Bool :=
  q.cls == 5 && q.op == 11 && ((shipped s q).bind (awayFor s)).any fun e => (spillPlace (s.vif e.vi)).isNone

/-- Whether an operand of a packet is an atomic without a result. -/
def quietRequest (q : Packet) : Bool := q.op == 2 && bit q.sub 8

/-- The answer of an atomic that has been performed, saved in case the request comes again (08 R161); one without a result is noted in its
batch. -/
def answerAtomic (s : State) (q : Packet) (old fl : Nat) : State :=
  respond (saveAnswer (if quietRequest q then noteErr s q 0 else s) q old fl) q 0 old fl

/-- The kind of the access of a request (20 R301). -/
def requestKind (q : Packet) : Nat := if q.op = 0 then 2 else if q.op = 1 then 1 else 3

/-- A request translated and performed at this node (24 R346). -/
def performRequest (s : State) (q : Packet) : State :=
  if q.cls = 5 then ingressEvent s q
  else if q.op = 6 then s
  else if !enabledVi s q.vi then failRequest s q 0x0D
  else
    match (if q.op = 2 ∨ q.op = 3 then savedAnswer s q else none) with
    | some (old, fl) => respond s q 0 old fl
    | none =>
      match agentCells s ingressTlb q.vi q.addr q.size (requestKind q) with
      | .error code => failRequest s q code
      | .ok cells =>
        if q.op = 0 then noteErr (bumpOnce (writeCells s cells (bytesOf q.size q.data)) (writerOf q) cells) q 0
        else match cells.find? (poisoned s) with
          | some c => if quietRequest q then failRequest s q 0x10 else respond s q 0x10 (granuleOf q.addr cells c) 0
          | none =>
            if q.op = 1 then respond s q 0 (numOf (readCells s cells)) 0
            else
              let (old, fl, s1) := ingressAtomic s q cells
              answerAtomic s1 q old fl

/-- The receive buffer of a message is free again (24 R344). -/
def freeRx (s : State) (q : Packet) : State :=
  match s.ports.find? fun (e : Nat × Port) => e.2.rx.contains q with
  | none => s
  | some (p, _) => s.modPort p fun x => { x with rx := x.rx.erase q }

/-- Message `i` of an ingress queue taken out. -/
def takeIngress (s : State) (key i : Nat) : State :=
  let l := s.ingress.get key []
  let s1 := match l[i]? with
    | some q => freeRx s q
    | none => s
  { s1 with ingress := s1.ingress.set key (l.eraseIdx i) }

/-- Whether a request is for memory of a die that is off: it waits (24 R365). -/
def requestSleeps (s : State) (q : Packet) : Bool :=
  match agentCells s ingressTlb q.vi q.addr q.size (if q.op = 0 then 2 else if q.op = 1 then 1 else 3) with
  | .ok cells => q.cls != 5 && asleep s cells
  | .error _ => false

/-- INGRESS_DEQUEUE (24 R346): the oldest request of the queue is translated and performed; a close request is put by until its members are
performed. Appends have a step of their own. -/
def ingressDequeue (vi cls : Nat) (s : State) : State :=
  let key := ingressKey vi cls
  if 6 ≤ cls ∨ cls = 4 then s
  else match s.ingress.get key [] with
    | [] => s
    | q :: _ =>
      if q.op = 5 then { takeIngress s key 0 with closing := s.closing ++ [q] }
      else if requestSleeps s q || spillWaits s q then s
      else performRequest (takeIngress s key 0) q

/-- INGRESS_DEQUEUE (24 R346). -/
def execIngressDequeue (vi cls : Nat) (s : State) := event (ingressDequeue vi cls) s

/-- The members that a close request names, each by its source and its sequence number. -/
def unpackMembers (n w : Nat) : List (Nat × Nat) :=
  (List.range n).map fun i => let m := w / 2 ^ (96 * i); (m / 2 ^ 64 % 2 ^ 32, m % 2 ^ 64)

/-- CLOSE_REQUEST (08 R166): close request `i` of a tenant is answered once each member of its batch addressed to this node has been
performed or has failed; the answer holds their errors. -/
def closeRequest (vi i : Nat) (s : State) : State :=
  match (s.closing.filter fun q => q.vi == vi)[i]? with
  | none => s
  | some q =>
    let ms := unpackMembers q.size q.data
    let mine := fun (e : Nat × Nat × Nat × Nat) => e.2.1 == q.tag && ms.contains (e.1, e.2.2.1)
    if ms.all fun m => s.errs.any fun e => mine e && (e.1, e.2.2.1) == m then
      let b := (s.errs.filter mine).foldl (fun a e => a ||| e.2.2.2) 0
      respond { s with closing := s.closing.erase q, errs := s.errs.filter fun e => !mine e } q 0 b 0
    else s

/-- CLOSE_REQUEST (08 R166). -/
def execCloseRequest (vi i : Nat) (s : State) := event (closeRequest vi i) s

/-- Two requests that a router merges (08 R160): relaxed atomics without a result, of one tenant, with the same operation, width and
address. -/
def packetsMerge (a b : Packet) : Bool :=
  quietRequest a && quietRequest b && mergesOp (a.sub % 16) && a.sub == b.sub && a.sub / 16 % 4 == 0 && a.vi == b.vi && a.addr == b.addr &&
    a.size == b.size && !(a == b)

/-- The operand and the flags of requests merged in their order. -/
def mergedOperand (ps : List Packet) : Nat × Nat :=
  match ps with
  | [] => (0, 0)
  | a :: t => t.foldl (fun z b =>
      let w := 8 * a.size
      let (x, fl) := atomNew (a.sub % 16) w z.1 (b.data % 2 ^ w) 0
      (x, z.2 ||| fl ||| b.cmp % 32)) (a.data % 2 ^ (8 * a.size), a.cmp % 32)

/-- Atomics of other nodes merged on their way (08 R160): the oldest of a tenant's queue and those at the places `ks` behind it reach their
home as one read-modify-write, and each is answered. Nothing happens where the rule does not allow it. -/
def mergeIngress (vi : Nat) (ks : List Nat) (s : State) : State :=
  let key := ingressKey vi 3
  let l := s.ingress.get key []
  match l with
  | [] => s
  | q :: _ =>
    let rest := (distinct ks).filterMap fun k => if k = 0 then none else l[k]?
    let all := q :: rest
    if !(rest.all (packetsMerge q)) || !enabledVi s vi || requestSleeps s q || all.any (fun p => (savedAnswer s p).isSome) then s
    else
      let t := { (all.foldl freeRx s) with ingress := s.ingress.set key (l.filter fun p => !all.contains p) }
      match agentCells s ingressTlb vi q.addr q.size 3 with
      | .error code => all.foldl (fun u p => failRequest u p code) t
      | .ok cells =>
        if cells.any (poisoned s) then all.foldl (fun u p => failRequest u p 0x10) t
        else
          let (x, fl) := mergedOperand all
          let (old, fl', t1) := ingressAtomic t { q with data := x, cmp := fl } cells
          all.foldl (fun u p => answerAtomic u p old fl') t1

/-! ### Byte rings -/

/-- A byte ring block as it stands in memory (08 R148): its cells, BASE, the ring size, and the 64 bytes. -/
structure Brb where
  cells : List Nat
  base  : Nat
  size  : Nat
  raw   : Nat

/-- The local virtual address of the block of a registration. -/
def Regn.brb (r : Regn) : Nat := bits r.w0.toNat 51 6 * 64

/-- The owning tenant of a registration. -/
def Regn.vi (r : Regn) : Nat := bits r.w1.toNat 37 32

/-- The block at `brb` for tenant `vi`, with read and write permission; none for one that is malformed or cannot be reached
(08 R148, R168 BADREC). DESIGN CHOICE (log 149): one in a poisoned granule is BADREC too. -/
def readBrb (s : State) (vi brb : Nat) : Option Brb :=
  match agentCells s ingressTlb vi brb 64 1, agentCells s ingressTlb vi brb 64 2 with
  | .ok cells, .ok _ =>
    let w := numOf (readCells s cells)
    let lg := dword w 1
    let base := dword w 0
    if brb % 64 ≠ 0 ∨ cells.any (poisoned s) = true ∨ lg < 12 ∨ 30 < lg ∨ base % 2 ^ lg ≠ 0 ∨ w / 2 ^ 384 ≠ 0 then none
    else some ⟨cells, base, 2 ^ lg, w⟩
  | _, _ => none

/-- A doubleword of a block written by the interface. -/
def setBrb (s : State) (b : Brb) (i x : Nat) : State := agentStore s ((b.cells.drop (8 * i)).take 8) (bytesOf 8 x)

/-- CONS as the interface uses it (08 R150): its own where it owns CONS, the word in memory elsewhere. -/
def consOf (g : Regn) (b : Brb) : Nat := g.cons.getD (dword b.raw 3)

/-- The payload of a skip record, which is undefined (08 R149): free bytes. -/
def skipPayload (s : State) (vi lva : Nat) (bs : List Nat) : State :=
  match agentCells s ingressTlb vi lva bs.length 2 with
  | .ok cells => writeCells s cells bs
  | .error _ => s

/-- AcceptAppend (08 R150): `none` when the ring is full; otherwise the byte count at which the record starts, and the state. The
record is written; PUB has still to cover it. -/
def acceptAppend (s : State) (i : Nat) (b : Brb) (rec len : Nat) : Option (Option (Nat × State)) :=
  let g := s.regn i
  let resv := dword b.raw 4
  let off := resv % b.size
  let pad := if b.size < off + len then b.size - off else 0
  if b.size - (resv - consOf g b) < pad + len then some none
  else
    let start := resv + pad
    let at_ := fun (c : Nat) => b.base + c % b.size
    match agentCells s ingressTlb g.vi (at_ start) len 1, agentCells s ingressTlb g.vi (at_ start) len 2,
        agentCells s ingressTlb g.vi (at_ resv) pad 1, agentCells s ingressTlb g.vi (at_ resv) pad 2 with
    | .ok _, .ok cells, .ok _, .ok skipped =>
      let hd := skipped.take 8
      let (junk, s0) := freeBytes s (pad - 8)
      let s1 := skipPayload (agentStore s0 hd (bytesOf hd.length (pad * 2 ^ 48))) g.vi (at_ (resv + 8)) junk
      let s2 := agentStore (setBrb s1 b 4 (start + len)) cells (bytesOf len rec)
      let h := rec % 2 ^ 64
      let nm := bits g.w1.toNat 31 0
      let skip : List RingRec := if pad = 0 then [] else [⟨resv, pad, 0, 0, at_ resv, 1, false, nm, g.vi, g.brb⟩]
      some (some (start, s2.modRegn i fun r =>
        { r with recs := r.recs ++ skip ++ [⟨start, len, bits h 47 40, bits h 39 0, at_ start, 1, false, nm, g.vi, g.brb⟩] }))
    | _, _, _, _ => none

/-- A node id as a register holds it: 0xFFF is this node (01 R20). -/
def nodeId (s : State) (x : Nat) : Nat := if x = 0xFFF then s.node else x

/-- Whether an agent's access of tenant `vi` is to memory of a die that is off: what asks for it waits (24 R365). -/
def agentSleeps (s : State) (vi lva len : Nat) : Bool :=
  match agentCells s ingressTlb vi lva len 1 with
  | .ok cells => asleep s cells
  | .error _ => false

/-- A record appended to ring `i`, whose block is at `brb`: status and byte count (08 R150, R168). -/
def appendRing (s : State) (i vi brb rec len : Nat) : Nat × Nat × State :=
  match readBrb s vi brb with
  | none => (4, 0, s)
  | some b =>
    match acceptAppend s i b rec len with
    | none => (4, 0, s)
    | some none => (1, 0, setBrb s b 5 (dword b.raw 5 + 1))
    | some (some (start, s1)) => (0, start, s1)

/-- Status and byte count of an append of tenant `vi` from node `node` (24 R348; 08 R168), in the order of R348: an entry names a block by the
address bits 51 to 6. Status 13 stands for a tenant that is not enabled, whose message a router drops (22 R331). -/
def appendTo (s : State) (vi node brb rec len : Nat) : Nat × Nat × State :=
  if !enabledVi s vi then (0x0D, 0, s)
  else match findRing s vi (brb / 64 * 64) with
  | none => (2, 0, s)
  | some i =>
    let w := (s.regn i).w2.toNat
    if node < nodeId s (bits w 11 0) ∨ nodeId s (bits w 43 32) < node then (5, 0, s)
    else if brb % 64 ≠ 0 then (4, 0, s)
    else appendRing s i vi brb rec len

/-- The status of an append to the own node reaches the slot whose task has issued it from agent `src`, pre-empted or not. -/
def ownAppend (s : State) (src seq word : Nat) : State :=
  let f := fun (x : Slot) => { x with appends := x.appends.map fun a =>
    if a.node == s.node && a.src == src && a.seq == seq && a.pkt.isNone && a.status.isNone then { a with status := some word } else a }
  { s with
    slots := s.slots.map fun (e : Nat × Slot) => (e.1, f e.2)
    pre := s.pre.map fun e => { e with slot := f e.slot } }

/-- REMOTE_APPEND (24 R348): the oldest append of a tenant is matched against the registration table and answered. -/
def remoteAppend (vi : Nat) (s : State) : State :=
  let key := ingressKey vi 4
  match s.ingress.get key [] with
  | [] => s
  | q :: _ =>
    if agentSleeps s vi q.addr 64 then s else
    let node := nodeOfAgent q.src
    let (st, pos, s1) := appendTo (takeIngress s key 0) vi node q.addr q.data q.size
    let word := st + (if st = 0 then pos % 2 ^ 32 * 2 ^ 32 else 0)
    if node = s.node then ownAppend s1 q.src q.seq word else respond s1 q st word 0

/-- REMOTE_APPEND (24 R348). -/
def execRemoteAppend (vi : Nat) (s : State) := event (remoteAppend vi) s

/-- The ring agent of a registration (10 R173). -/
def ringParty (s : State) (i : Nat) : Nat := 7 * 2 ^ 28 + s.node * 2 ^ 13 + i % 2 ^ 13

/-- The ring agent of entry `i` offers event `nm` of tenant `vi` for a published record; an event that lacks the agent as a party breaks (24
R349). -/
def ringOffer (s : State) (i vi nm : Nat) : State :=
  if nm = 0 then s
  else
    let r := refInView s (meshBase s vi) (min 128 (meshSize s vi)) nm
    match evOf s r with
    | some e => if e.parties.contains (ringParty s i) then engineOffer s (ringParty s i) (some r) else breakEv s r
    | none => if r.away then engineOffer s (ringParty s i) (some r) else s

/-- The records that the next release of PUB covers: the first that is written and not published, after the skip record before
it. -/
def nextPublished (l : List RingRec) : List RingRec :=
  match l.filter fun e => e.stage == 1 with
  | [] => []
  | e :: t => if e.typ = 0 then e :: t.take 1 else [e]

/-- PUB_PUBLISH (08 R150; 24 R349, R350): PUB covers the next record; its ring agent offers, as its entry stood when the record was reserved; a
block joins its reduction queue. A record published while no binding stands is ordinary data (22 R336). -/
def pubPublish (i : Nat) (s : State) : State :=
  let g := s.regn i
  let new := nextPublished g.recs
  match new.getLast? with
  | none => s
  | some e =>
    let s1 := match readBrb s e.vi e.brb with
      | some b => setBrb s b 2 (e.start + e.len)
      | none => s
    let red := g.bind = 2
    let cover := fun (x : RingRec) => if new.contains x then { x with stage := 2, done := decide (x.typ = 0) } else x
    let s2 := s1.modRegn i fun r => { r with recs := (r.recs.map cover).filter fun x => g.bind != 0 || x.stage != 2 }
    let s3 := if red ∧ (e.typ = 1 ∨ e.typ = 2) then
        let b := bits e.user 39 20
        let d := bits g.w1.toNat 39 38
        s2.modDie d fun y => { y with
          blocks := y.blocks ++ [⟨8192 + 32 * d + 4 * (b % 8) + b / 8 % 4, i, e.start, e.lva, e.len, b⟩] }
      else s2
    ringOffer s3 i e.vi e.event

/-- PUB_PUBLISH (08 R150). -/
def execPubPublish (ring : Nat) (s : State) := event (pubPublish ring) s

/-! ### Arrival bindings -/

/-- The record that a binding launches next (22 R336): the first published one that has not been launched; skip records are passed. -/
def nextArrival (g : Regn) : Option RingRec := g.recs.find? fun e => e.stage == 2 && e.typ != 0

/-- A record of a ring changed. -/
def modRec (s : State) (i start : Nat) (f : RingRec → RingRec) : State :=
  s.modRegn i fun g => { g with recs := g.recs.map fun e => if e.start == start then f e else e }

/-- Whether the dispatcher can read the ring's block and the record (22 R336). -/
def recordReadable (s : State) (g : Regn) (e : RingRec) : Bool :=
  (agentRead s g.vi g.brb 64).isSome && (agentRead s g.vi e.lva e.len).isSome

/-- The next record of a binding turned into a task (TYPE 1), or, with `typ` 2, presented as a launch record (22 R336). -/
def bindStep (i typ : Nat) (s : State) : State :=
  let g := s.regn i
  match g.launch, nextArrival g with
  | some id, some e =>
    if g.bind ≠ 1 ∨ (e.typ = 2) ≠ (typ = 2) then s
    else if !recordReadable s g e then endBinding s g.vi id 0x13
    else if typ = 2 then
      let s1 := modRec s i e.start fun r => { r with stage := 3, done := true }
      if e.len ≠ 136 then s1
      else (present s1 g.vi ((agentRead s g.vi (e.lva + 8) 128).getD 0) { kind := 2 }).2.2
    else
      let n := ((launchOf s g.vi id).map (·.seqn)).getD 0
      if n = 2 ^ 32 then endBinding s g.vi id 0x11
      else
        modLaunch (modRec s i e.start fun r => { r with stage := 3 }) g.vi id fun l =>
          { l with seqn := n + 1, arrived := l.arrived ++ [(n, e.start, e.lva)] }
  | _, _ => s

/-- Whether the next record of a binding, or its ring's block, lies in memory that is off (24 R365). -/
def recordSleeps (s : State) (i : Nat) : Bool :=
  let g := s.regn i
  (nextArrival g).any fun e => agentSleeps s g.vi g.brb 64 || agentSleeps s g.vi e.lva e.len

/-- ARRIVAL_RECORD (22 R336). -/
def arrivalRecord (i : Nat) (s : State) : State := if recordSleeps s i then s else bindStep i 1 s

/-- ARRIVAL_RECORD (22 R336). -/
def execArrivalRecord (ring : Nat) (s : State) := event (arrivalRecord ring) s

/-- RING_LAUNCH_RECORD (22 R336). -/
def ringLaunchRecord (i : Nat) (s : State) : State := if recordSleeps s i then s else bindStep i 2 s

/-- RING_LAUNCH_RECORD (22 R336). -/
def execRingLaunchRecord (ring : Nat) (s : State) := event (ringLaunchRecord ring) s

/-- The bytes at the head of a ring whose records are all done. -/
def releasable (cons : Nat) (l : List RingRec) : Nat :=
  match l with
  | [] => cons
  | e :: t => if e.start = cons ∧ e.done ∧ 2 ≤ e.stage then releasable (e.start + e.len) t else cons

/-- ARRIVAL_RING_RELEASE (08 R150; 24 R351): CONS advances past every leading record that is done. A block that can no longer be read
ends an arrival binding (22 R336); where only writing fails, CONS in memory stays. -/
def arrivalRingRelease (i : Nat) (s : State) : State :=
  let g := s.regn i
  match g.cons with
  | none => s
  | some c =>
    let c' := releasable c g.recs
    if c' = c then s
    else
      let rs := g.recs.filter fun e => c' ≤ e.start
      let own := g.bind ≠ 0 ∨ rs.any (fun e => e.stage == 3) = true
      let s1 := s.modRegn i fun r => { r with recs := rs, cons := if own then some c' else none }
      match agentRead s g.vi g.brb 64, g.launch, agentCells s ingressTlb g.vi (g.brb + 24) 8 2 with
      | none, some id, _ => endBinding s1 g.vi id 0x13
      | some _, _, .ok cells => agentStore s1 cells (bytesOf 8 c')
      | _, _, _ => s1

/-- ARRIVAL_RING_RELEASE (08 R150). -/
def execArrivalRingRelease (ring : Nat) (s : State) := event (arrivalRingRelease ring) s

/-! ### CANCEL -/

/-- The records published before a cancel are launched (22 R339). -/
def launchPublished (i fuel : Nat) (s : State) : State :=
  match fuel with
  | 0 => s
  | f + 1 =>
    match nextArrival (s.regn i) with
    | none => s
    | some e => launchPublished i f (bindStep i (if e.typ = 2 then 2 else 1) s)

/-- A launch is cancelled (22 R339; 02 R50): nothing more of it is dispatched for the first time, except the tasks of records
published before; reservations for it and its binding end. -/
def cancelLaunch (s : State) (vi id : Nat) : State :=
  let s1 := match (launchOf s vi id).bind (·.ring) with
    | some r => if (s.regn r).launch = some id then launchPublished r (s.regn r).recs.length s else s
    | none => s
  modLaunch (unbindRing (dropReserved s1 vi id) vi id) vi id fun l => { l with cancel := true }

/-- HOST_CANCEL (22 R322, R339): a CANCEL command read; BADCMD where it names no live launch. -/
def hostCancel (vi : Nat) (s : State) : State :=
  visit vi true (fun t q w =>
    let id := dword w 2 % 2 ^ 32
    match launchOf t vi id with
    | none => dueEntry t vi (BitVec.ofNat 64 (dword w 1)) 0 q 0x08
    | some _ => cancelLaunch t vi id) s

/-- HOST_CANCEL (22 R339). -/
def execHostCancel (vi : Nat) (s : State) := event (hostCancel vi) s

/-! ### Registration -/

/-- Whether another enabled entry names the same block and tenant. -/
def registered (s : State) (i brb vi : Nat) : Bool :=
  s.regns.any fun (e : Nat × Regn) => e.1 != i && bit e.2.w1.toNat 63 && e.2.brb == brb && e.2.vi == vi

/-- The second word of an entry as a write leaves it: BIND takes 00 and 10 only. -/
def regnWord (old x : Nat) : Nat :=
  let b := bits x 62 61
  keepBits x 63 63 + (if b = 0 ∨ b = 2 then b else bits old 62 61) * 2 ^ 61 + keepBits x 39 0

/-- REGISTRATION_WRITE (24 R347): doubleword `j` of entry `i` written. A write to an enabled entry is ignored unless it clears EN, and
then too while an arrival binding stands; so is one that would register a block twice. An entry that is enabled knows nothing of the records
that an earlier registration published, and CONS is the interface's own only with BIND 10 (R351). -/
def registrationWrite (i j w : Nat) (s : State) : State :=
  let g := s.regn i
  if 8192 ≤ i ∨ 4 ≤ j then s
  else if bit g.w1.toNat 63 then
    (if j = 1 ∧ bit w 63 = false ∧ g.bind ≠ 1 then s.modRegn i fun r => { r with w1 := BitVec.ofNat 64 (regnWord g.w1.toNat w) } else s)
  else if j = 0 then s.modRegn i fun r => { r with w0 := BitVec.ofNat 64 (keepBits w 51 6) }
  else if j = 2 then s.modRegn i fun r => { r with w2 := BitVec.ofNat 64 (keepBits w 43 32 + keepBits w 11 0) }
  else if j = 1 then
    (if bit w 63 ∧ registered s i g.brb (bits w 37 32) then s
     else
      let w1 := regnWord g.w1.toNat w
      s.modRegn i fun r =>
        { r with
          w1 := BitVec.ofNat 64 w1
          recs := if bit w 63 then r.recs.filter fun e => e.stage == 1 else r.recs
          cons := if bit w 63 ∧ bits w1 62 61 = 2 then some ((agentRead s (bits w1 37 32) (g.brb + 24) 8).getD 0)
            else if bit w 63 then none else r.cons })
  else s

/-- REGISTRATION_WRITE (24 R347). -/
def execRegistrationWrite (ring j x : Nat) (s : State) := event (registrationWrite ring j (x % 2 ^ 64)) s

end Sys2Proof.Machine
end

