-- ==== Sys2Proof/Machine/Answers.lean ====
section
/-!
DEFINITION. Retirement (02 R48, R49; 20 R300) and the end of interlocks: answers, drains, replies, summaries, append statuses
(02 R45; 08 R157, R161, R166, R168).

Readings and choices of the model (log): DESIGN CHOICE 35; DEDUCED 32, 59, 68, 71, 133, 155, 157.
-/

namespace Sys2Proof.Machine

open Sys2Proof

/-! ### TEXIT -/

/-- Whether an engine command of slot `n` has not completed (02 R49): a copy, a matrix command, a stream that still runs. -/
def enginesOut (s : State) (n : Nat) : Bool :=
  mxOut s n ||
    (isWorker n && (List.range 4).any fun q => (queueOf s (clusterOf n) q).any fun c => c.slot == n) ||
    (s.slot n).streams.any fun e => e.2.st != 2 && e.2.st != 3 && e.2.fault.isNone

/-- Read streams are freed before the interlock of TEXIT (12 R235). -/
def freeReads (s : State) (n : Nat) : State := (List.range 4).foldl (fun t r => freeStream t n r) s

/-- TEXIT (02 R48, R49): a recorded report or a failed join is raised first; the task retires when its engine commands have
completed. -/
def texit (a : Nat) (s : State) (n : Nat) : Except Trap Res := do
  let s0 := drainStores s n
  deliverGuard s0 n
  deliverStream s0 n
  let r := ((s.slot n).rs a).toNat
  let s1 := freeReads s0 n
  if enginesOut s1 n then .ok (.wait s1 (.texit r))
  else .ok (.keep (endTask (retire s1 n false) n false r))

/-- TEXIT (R49, R92). -/
def execTexit (a : Nat) (s : State) := plain (texit a) s

/-- TASK_RETIREMENT (02 R48, R49): the interlock of TEXIT ends and the task retires; a report or a failed join of the meantime is raised
before (08 R144). -/
def taskRetirement (n : Nat) (s : State) : State :=
  match (s.slot n).st with
  | .interlocked (.texit r) =>
    if enginesOut s n then s
    else match deliverGuard s n, deliverStream s n with
      | .error t, _ => takeTrap s n t
      | .ok _, .error t => takeTrap s n t
      | .ok _, .ok _ => endTask (retire s n false) n false r
  | _ => s

/-- TASK_RETIREMENT (02 R48). -/
def execTaskRetirement (slot : Nat) (s : State) := event (taskRetirement slot) s

/-! ### Answers -/

/-- The access at `ea` that a remote request of an instruction makes, as a fault record describes it (20 R301). -/
def accessOf (x : Slot) (i : Instr) (ea : Nat) : Trap :=
  let ld := fun (w o : Nat) => accTrap 0 ea 1 (memSize w) o
  let at_ := fun (op d b o w : Nat) =>
    { accTrap 0 ea 3 (if w = 1 then 8 else 4) o with
      data0 := (x.rs b).toNat, data1 := if op = 9 then (x.rs d).toNat else 0 }
  let vl := fun (o w : Nat) => accTrap 0 ea 1 (2 ^ (w % 4)) o
  match i with
  | .lb _ _ o _ => ld 0 o
  | .lbn _ _ o _ => ld 1 o
  | .lh _ _ o _ => ld 2 o
  | .lhn _ _ o _ => ld 3 o
  | .lw _ _ o _ => ld 4 o
  | .lwn _ _ o _ => ld 5 o
  | .ld _ _ o _ => ld 6 o
  | .ldp _ _ o _ => ld 7 o
  | .ldx _ _ _ o _ w => ld w o
  | .jt .. => accTrap 0 ea 1 8 0
  | .vld _ _ _ _ o w => vl o w
  | .vlds _ _ _ _ o w => vl o w
  | .vldx _ _ _ _ o w => vl o w
  | .vldb _ _ _ _ o w => vl o w
  | .aadd d _ b o w => at_ 0 d b o w
  | .aand d _ b o w => at_ 1 d b o w
  | .aor d _ b o w => at_ 2 d b o w
  | .axor d _ b o w => at_ 3 d b o w
  | .amin d _ b o w => at_ 4 d b o w
  | .amax d _ b o w => at_ 5 d b o w
  | .aminn d _ b o w => at_ 6 d b o w
  | .amaxn d _ b o w => at_ 7 d b o w
  | .aswp d _ b o w => at_ 8 d b o w
  | .acas d _ b o w => at_ 9 d b o w
  | .afadd d _ b o w => at_ 10 d b o w
  | .afmin d _ b o w => at_ 11 d b o w
  | .afmax d _ b o w => at_ 12 d b o w
  | .acas2 _ _ _ o => accTrap 0 ea 3 16 o
  | .evnew .. => accTrap 0 ea 1 8 0
  | _ => raise 0

/-- The faults with which a node answers a request (08 R138, R154, R162; 20 R312; 22 R331). -/
def answerFault (st : Nat) : Bool := st == 0x04 || st == 0x05 || st == 0x0D || st == 0x0F || st == 0x10

/-- The fault of a remote request: REMOTE is set; PEER_LOST names the node, ECC_UE the granule `info`. -/
def remoteFault (s : State) (n : Nat) (i : Instr) (st : Nat) (q : Ask) (info : Nat) : Trap :=
  { accessOf (s.slot n) i q.addr with
    code := st, remote := true, info := if st = 0x0F then q.node else if st = 0x10 then info else 0 }

/-- The instruction that waits for its answer, resumed with it; none for one that needs no answer. -/
def resumed (i : Instr) (data flags : Nat) (s : State) (n : Nat) : Option (Except Trap Res) :=
  match i with
  | .evnew d a => some (evnew d a true s n)
  | .evstat d e => some (evstat d e true s n)
  | .launch d a x e => some (launchOp d a x e true s n)
  | _ => memAnswer i (data, flags) s n

/-- The remote instruction that waits, given its answer. EVNEW and EVSTAT take the word that the home sends. -/
def resumedRemote (i : Instr) (data flags : Nat) (s : State) (n : Nat) : Option (Except Trap Res) :=
  match i with
  | .evnew d _ => some (evnewAnswer d (data % 2 ^ 32) s n)
  | .evstat d _ => some (writeDone s n d (BitVec.ofNat 64 data))
  | .jt d a b => some (jumpTable d a b (some data) s n)
  | _ => memAnswer i (data, flags) s n

/-- What the answers to the remote requests of an instruction do: they end the interlock, or one of them is a fault, whose `data` holds the
number of its request above the word for INFO. -/
def remoteAnswer (s : State) (n : Nat) (i : Instr) (asks : List Ask) (st data flags : Nat) : State :=
  if st ≠ 0 then
    match asks[data / 2 ^ 64]? with
    | some q => if answerFault st then takeTrap (countAnswers s n 1) n (remoteFault s n i st q (data % 2 ^ 64)) else s
    | none => s
  else match resumedRemote i data flags (countAnswers s n asks.length) n with
    | none => s
    | some r => conclude (countAnswers s n asks.length) n r

/-- Whether an instruction is an atomic, answered by ATOMIC_REPLY from another node. -/
def isAtomic (i : Instr) : Bool := match i with
  | .aadd .. | .aand .. | .aor .. | .axor .. | .amin .. | .amax .. | .aminn .. | .amaxn .. | .aswp .. | .acas ..
  | .afadd .. | .afmin .. | .afmax .. | .acas2 .. => true
  | _ => false

/-- LOAD_DATA_RETURN (02 R45): the data of a load, or a local answer that came late, is back; `st` is 0, or the fault that another
node answers with. -/
def loadDataReturn (n st data : Nat) (s : State) : State :=
  match (s.slot n).st with
  | .interlocked (.answer i) =>
    (match resumed i 0 0 s n with
     | none => s
     | some r => conclude s n r)
  | .interlocked (.remote i asks) => if isAtomic i then s else remoteAnswer s n i asks st data 0
  | _ => s

/-- LOAD_DATA_RETURN (02 R45). -/
def execLoadDataReturn (slot st data : Nat) (s : State) := event (loadDataReturn slot st data) s

/-- The acknowledgement of a remote store, or the reply to a remote atomic without a result, is back (08 R157, R161): appends that waited for
it leave. -/
def acknowledge (s : State) (n : Nat) (e : Sent) : State :=
  flushAppends ((countAnswers s n 1).modSlot n fun x => { x with sent := x.sent.erase e }) n

/-- The acknowledgement of remote store `seq` of slot `n`. -/
def storeAck (s : State) (n seq : Nat) : State :=
  match (s.slot n).sent.find? fun e => e.seq == seq && e.cls == 0 with
  | none => s
  | some e => acknowledge s n e

/-- The oldest atomic without a result that is outstanding is answered (08 R161). -/
def atomAck (s : State) (n : Nat) : State :=
  match (s.slot n).sent.find? fun e => e.cls == 3 with
  | none => s
  | some e => acknowledge s n e

/-- ATOMIC_REPLY (08 R161, R162): the old value and the flags of the atomic for which the slot waits, or the reply to its oldest
atomic without a result. -/
def atomicReply (n st old flags : Nat) (s : State) : State :=
  match (s.slot n).st with
  | .interlocked (.remote i asks) => if isAtomic i then remoteAnswer s n i asks st old (flags % 32) else atomAck s n
  | _ => atomAck s n

/-- ATOMIC_REPLY (08 R161). -/
def execAtomicReply (slot st old flags : Nat) (s : State) := event (atomicReply slot st old flags) s

/-! ### Drains -/

/-- FENCE_DRAIN_END (08 R157): a fence of system scope ends when the slot's remote stores are acknowledged, an SC fence when its key
allows it (18 R282). -/
def fenceDrainEnd (n : Nat) (s : State) : State :=
  match (s.slot n).st with
  | .interlocked (.fence kind scope) =>
    if fenceWaits s n kind scope then s else retire (fenceEnd kind scope s n) n false
  | _ => s

/-- FENCE_DRAIN_END (08 R157). -/
def execFenceDrainEnd (slot : Nat) (s : State) := event (fenceDrainEnd slot) s

/-- STORE_BUFFER_DRAIN (02 R45; 24 R365): entry `i` of the store buffer is performed at its home, unless that is stopped or off. -/
def storeBufferDrain (n i : Nat) (s : State) : State :=
  let sb := (s.slot n).sb
  match sb[i]? with
  | none => s
  | some e =>
    if mayDrain sb i && !asleep s e.cells then drainEntry (s.modSlot n fun x => { x with sb := x.sb.eraseIdx i }) n e else s

/-- STORE_BUFFER_DRAIN (02 R45). -/
def execStoreBufferDrain (slot i : Nat) (s : State) := event (storeBufferDrain slot i) s

/-! ### Batches and appends -/

/-- The remote stores before a close that its summaries do not answer for: the close, a release, waits for them (18 R289). -/
def closeWaits (x : Slot) (c : Close) : Bool :=
  x.sent.any fun e => decide (e.seq < c.before) && !(e.closed && e.tag == c.batch.tag)

/-- The slot without a close that completes and its members, which are performed. -/
def closeEnds (x : Slot) (c : Close) (i : Nat) : Slot :=
  { x with
    closes := x.closes.eraseIdx i
    sent := x.sent.filter fun e => !(e.closed && e.tag == c.batch.tag && decide (e.seq < c.before)) }

/-- The nodes of a closed batch with the error bits that their summaries brought, in the order in which they were asked. -/
def withAnswers (b : Batch) (answers : List Nat) : List (Nat × Nat) :=
  b.nodes.map fun e => (e.1, e.2 ||| SMap.get (b.asked.zip answers) e.1 0 % 32)

/-- BATCH_SUMMARY (08 R166, R167): every node of the pending close of this tag has answered, `answers` holding their error
bits in the order of the close: the summary word is written and the event offered, once the slot's other remote stores before it are
acknowledged. -/
def batchSummary (n tag : Nat) (answers : List Nat) (s : State) : State :=
  let x := s.slot n
  match x.closes.findIdx? fun c => c.batch.tag == tag with
  | none => s
  | some i =>
    match x.closes[i]? with
    | none => s
    | some c =>
      if answers.length ≠ c.batch.asked.length ∨ closeWaits x c = true then s
      else
        let y := closeEnds x c i
        let s1 := flushAppends ((countAnswers s n (answers.length + x.sent.length - y.sent.length)).setSlot n y) n
        closeDone s1 n c (withAnswers c.batch answers)

/-- BATCH_SUMMARY (08 R166). -/
def execBatchSummary (slot tag : Nat) (answers : List Nat) (s : State) := event (batchSummary slot tag answers) s

/-- The status word of an append (08 R168): what the own node answered, or `st` and `pos` as another node answers. -/
def appendWord (s : State) (a : Append) (st pos : Nat) : Option Nat :=
  match a.status with
  | some w => some w
  | none =>
    if a.pkt.isSome ∨ a.node = s.node ∨ (5 < st ∧ st ≠ 0x0D) then none else some (st + if st = 0 then pos % 2 ^ 32 * 2 ^ 32 else 0)

/-- APPEND_STATUS (08 R168): the status word of append `i` is written and its event offered. One that a router has dropped raises TENANT (22
R331). -/
def appendStatus (n i st pos : Nat) (s : State) : State :=
  match (s.slot n).appends[i]? with
  | none => s
  | some a =>
    match appendWord s a st pos with
    | none => s
    | some w =>
      let cells := (List.range 8).map fun j => a.cell + j
      let s0 := if a.status.isSome then s else countAnswers s n 1
      if w = 0x0D then takeTrap s0 n { raise 0x0D with remote := decide (a.node ≠ s.node) }
      else
      let s1 := performStore s0 n a.addr 2 0 none cells (bytesOf 8 w)
      engineOffer (s1.modSlot n fun x => { x with appends := x.appends.eraseIdx i }) (partyOf s1 1 n) a.ev

/-- APPEND_STATUS (08 R168). -/
def execAppendStatus (slot i st pos : Nat) (s : State) := event (appendStatus slot i st pos) s

end Sys2Proof.Machine
end

