-- ==== Sys2Proof/Machine/Place.lean ====
section
/-!
DEFINITION. Placement (22 R334; 14 R246, R248; 02 R36, R39, R50, R55): what a core has free, the units of work that wait and those that
run, and where a waiting unit fits.

Readings and choices of the model (log): DESIGN CHOICE 110; DEDUCED 40, 61, 111, 112, 113, 117.
-/

namespace Sys2Proof.Machine

open Sys2Proof

/-! ### What a core has free -/

/-- Whether bank `b` of core `c` belongs to no task. -/
def bankFree (s : State) (c b : Nat) : Bool :=
  (List.range 4).all fun t => match (s.slot (4 * c + t)).task with
    | some k => !(decide (k.bank ≤ b) && decide (b < k.bank + k.tcm))
    | none => true

/-- The lowest run of `n` free banks of core `c`. -/
def freeRun (s : State) (c n : Nat) : Option Nat :=
  (List.range 16).find? fun b => decide (b + n ≤ 16) && (List.range n).all fun j => bankFree s c (b + j)

/-- The free accumulator tiles of core `c`, as tiles of its cluster (12 R207). -/
def freeTiles (s : State) (c : Nat) : List Nat :=
  ((List.range 4).map (4 * (c % 16) + ·)).filter fun q =>
    (List.range 4).all fun t => match (s.slot (4 * c + t)).task with
      | some k => !k.tiles.contains q
      | none => true

/-- Whether slot `n` is Free. -/
def isFree (s : State) (n : Nat) : Bool := (s.slot n).st == .free

/-- Whether anything can be placed on core `c`: its cluster runs and no stop holds it. -/
def coreUp (s : State) (c : Nat) : Bool := clusterRuns s (c / 16) && !haltedCore s c

/-! ### Units -/

/-- One task to be placed: its coordinate, group, team or stage, instance, tiles, and the record of an arrival (22 R336). -/
structure Part where
  x     : Nat
  y     : Nat
  z     : Nat
  group : Nat
  part  : Nat
  inst  : Nat
  nacc  : Nat
  recAt : Nat
  lva   : Nat
  deriving DecidableEq, Repr

/-- A unit that waits: its tenant, its launch, its tasks, and the contexts of a pre-empted one in the same order. -/
structure Item where
  vi    : Nat
  l     : Launch
  parts : List Part
  again : List Pre
  deriving DecidableEq, Repr

/-- The place of a task: slot, first bank, tiles. -/
structure Place where
  slot  : Nat
  bank  : Nat
  tiles : List Nat
  deriving DecidableEq, Repr

/-- The slot Reserved for a task of a launch (02 R50). -/
def reservedAt (s : State) (vi id : Nat) (p : Part) : Option Nat :=
  (s.slots.find? fun (e : Nat × Slot) => e.2.st == .reserved vi id p.x p.y p.z).map Prod.fst

/-- The task as it stands on its slot. -/
def taskAt (vi : Nat) (l : Launch) (p : Part) (q : Place) (frame from_ order : Nat) : Task :=
  { vi := vi, id := l.id, kind := l.kind, x := p.x, y := p.y, z := p.z, group := p.group, part := p.part, inst := p.inst,
    frame := frame, tcm := l.tcm, bank := q.bank, tiles := q.tiles, wide := none, wideNow := none, from_ := from_, used := 0,
    order := order, park := 0, recAt := p.recAt }

/-- The place of a task on core `c` (R334), in slot Tt when `t` is given: the slot Reserved for it, or the lowest Free slot, the lowest
run of banks, the lowest tiles. A task with a slot Reserved for it is placed nowhere else: where that is not the place that its kind asks
for, a team's core or a chain's cluster, it waits until the reservation ends (DEDUCED, log 40). -/
def placeIn (s : State) (vi : Nat) (l : Launch) (first : Bool) (p : Part) (c : Nat) (t : Option Nat) : Option Place :=
  let tiles := (freeTiles s c).take p.nacc
  if tiles.length != p.nacc then none
  else match (if first then reservedAt s vi l.id p else none) with
    | some n =>
      if coreOf n = c ∧ t.all (fun u => u == slotIn n) then some ⟨n, (((s.slot n).task.map (·.bank)).getD 0), tiles⟩ else none
    | none =>
      match (List.range 4).find? fun u => isFree s (4 * c + u) && t.all (· == u), freeRun s c l.tcm with
      | some u, some b => some ⟨4 * c + u, b, tiles⟩
      | _, _ => none

/-- The same on a core that runs: the slots of a halted one are Halted, not Free (20 R313). -/
def placeOn (s : State) (vi : Nat) (l : Launch) (first : Bool) (p : Part) (c : Nat) (t : Option Nat) : Option Place :=
  if coreUp s c then placeIn s vi l first p c t else none

/-- The state in which a place is taken. -/
def occupy (s : State) (vi : Nat) (l : Launch) (p : Part) (q : Place) : State :=
  s.setSlot q.slot { st := .running, task := some (taskAt vi l p q 0 0 0), vi := vi }

/-- The state in which slots hold nothing. -/
def without (s : State) (ns : List Nat) : State := ns.foldl (fun t n => t.setSlot n {}) s

/-- Tasks placed one after the other, each where `f` says. -/
def placeEach (s : State) (vi : Nat) (l : Launch) (f : State → List Place → Part → Option Place) (ps : List Part) :
    Option (List Place) :=
  (ps.foldlM (fun (a : State × List Place) p =>
    (f a.1 a.2 p).map fun q => (occupy a.1 vi l p q, a.2 ++ [q])) (s, [])).map Prod.snd

/-! ### Where a unit fits -/

/-- The clusters of a tenant's sub-mesh, in tenant-view order from the placement pointer on (R334). -/
def meshClusters (s : State) (vi : Nat) : List Nat :=
  let n := min 128 (meshSize s vi)
  (List.range n).map fun i => meshBase s vi + ((s.vif vi).place / 16 + i) % n

/-- The cores of a tenant's sub-mesh, in tenant-view order from the placement pointer on. -/
def meshCores (s : State) (vi : Nat) : List Nat :=
  let n := 16 * min 128 (meshSize s vi)
  (List.range n).map fun i => 16 * meshBase s vi + ((s.vif vi).place + i) % n

/-- Whether a granule of the region of channel word `w` is a guard granule of cluster `p` (14 R245). -/
def regionGuarded (s : State) (p w : Nat) : Bool :=
  let r := chanRegion w
  (List.range ((r.2 - r.1) / 64)).any fun j => guarded s (tarnBase p + r.1 + 64 * j)

/-- Whether a cluster has room for the channels of a chain (14 R246). -/
def channelsFit (s : State) (p : Nat) (c : Chain) : Bool :=
  c.chan.all (fun w => !regionGuarded s p w) &&
    decide ((s.cluster p).chans.length + c.nstage ≤ 64) &&
    decide (((s.home p).evs.filter fun e => e.2.live).length + c.nstage ≤ homeCap p)

/-- The chain of a launch. -/
def chainById (s : State) (vi id : Nat) : Option Chain := s.chains.find? fun c => c.vi == vi && c.id == id

/-- A spread chain in cluster `p` (R334): each stage on the next core that fits. -/
def placeSpread (s : State) (it : Item) (ok : Nat → Bool) (p : Nat) : Option (List Place) :=
  placeEach s it.vi it.l (fun t used q =>
    (List.range 16).findSome? fun j =>
      let c := 16 * p + j
      if ok c && !(used.any fun u => coreOf u.slot == c) then placeOn t it.vi it.l it.again.isEmpty q c none else none) it.parts

/-- A folded chain on core `c`: stage i on Ti (14 R248). A chain placed for the first time finds every such slot Free (R334). -/
def placeFolded (s : State) (it : Item) (ok : Nat → Bool) (c : Nat) : Option (List Place) :=
  if ok c then placeEach s it.vi it.l (fun t _ q => placeOn t it.vi it.l it.again.isEmpty q c (some q.part)) it.parts else none

/-- A chain on the cores `cs` or in the clusters `ps`, which follow the placement pointer (R334): in folded form on the first core that fits,
in spread form in the first cluster. -/
def placeChain (s : State) (it : Item) (ok : Nat → Bool) (cs ps : List Nat) : Option (List Place) :=
  match chainById s it.vi it.l.id with
  | none => none
  | some c =>
    let room := fun (p : Nat) => !it.again.isEmpty || channelsFit s p c
    if c.folded then cs.findSome? fun k => if room (k / 16) then placeFolded s it ok k else none
    else ps.findSome? fun p => if room p then placeSpread s it ok p else none

/-- A co-launch instance in cluster `p`: team t on core t (02 R36, R39). -/
def placeTeams (s : State) (it : Item) (ok : Nat → Bool) (p : Nat) : Option (List Place) :=
  placeEach s it.vi it.l (fun t _ q =>
    let c := 16 * p + q.part
    if ok c then placeOn t it.vi it.l it.again.isEmpty q c none else none) it.parts

/-- The cluster to which a pre-empted unit is bound: that of a co-launch instance or of a chain, or of a task that holds a tile or
whose launch owns a matrix ring there (02 R39; 12 R208; 14 R255). -/
def boundTo (s : State) (it : Item) : Option Nat :=
  match it.again with
  | [] => none
  | e :: _ =>
    let p := clusterOf e.home
    let ring := (s.cluster p).rings.any fun (r : Nat × Ring) => r.2.owner == some (it.vi, it.l.id)
    if it.l.kind = 1 ∨ it.l.kind = 2 ∨ it.parts.any (fun q => q.nacc != 0) ∨ ring then some p else none

/-- The places of a unit on cores where `ok` holds (R334). -/
def placeItem (s : State) (ok : Nat → Bool) (it : Item) : Option (List Place) :=
  let near := boundTo s it
  let cores := (meshCores s it.vi).filter fun c => near.all (· == c / 16)
  let clusters := (meshClusters s it.vi).filter fun p => near.all (· == p)
  if it.l.kind = 1 then clusters.findSome? (placeTeams s it ok)
  else if it.l.kind = 2 then placeChain s it ok cores clusters
  else cores.findSome? fun c =>
    match it.parts with
    | q :: _ => if ok c then (placeOn s it.vi it.l it.again.isEmpty q c none).map fun u => [u] else none
    | [] => none

/-- A request that the dispatcher makes on behalf of a slot (12 R206): it stands for no event. -/
def behalf : EvRef := ⟨9000, 0, 0⟩

/-- Whether a pre-empted unit is due a lease: the first of its places that is (12 R206). -/
def leaseFor (it : Item) (ps : List Place) : Option Nat :=
  ((it.again.zip ps).find? fun e => e.1.slot.want).map fun e => e.2.slot

/-- Whether the arbiter can grant the lease that a re-dispatch needs (12 R206): it is free, and the slot's position is the next in
its rotation. -/
def leaseReady (s : State) (it : Item) (ps : List Place) : Bool :=
  match leaseFor it ps with
  | none => true
  | some n =>
    let p := clusterOf n
    let l := (s.cluster p).lease
    let q := { l with reqs := (n, behalf) :: l.reqs }
    (l.holder.isNone || leaseOver s p) && l.offered.isNone && !arbiterOut s p && (nextRequest q).any fun e => e.1 == n

/-! ### What waits -/

/-- The coordinate of task `i` of a grid (02 R31). -/
def gridPart (l : Launch) (i : Nat) : Part :=
  let w := l.ex + 1
  let h := l.ey + 1
  ⟨i % w, i / w % h, i / (w * h), i / l.gsize, 0, 0, l.nacc, 0, 0⟩

/-- The tasks of the current group of a grid that have still to be dispatched. -/
def gridLeft (l : Launch) : List Nat :=
  let total := (l.ex + 1) * (l.ey + 1) * (l.ez + 1)
  ((List.range (min l.gsize (total - l.group * l.gsize))).map (l.group * l.gsize + ·)).filter fun i => !l.doneIn.contains i

/-- Tasks of the current group of a grid from which a dispatch may choose (02 R28): the one that `pick` names, the first without a
reservation, those with one. -/
def gridChoices (s : State) (vi : Nat) (l : Launch) (pick : Nat) : List (List Part) :=
  let left := gridLeft l
  let n := left.length
  match left[pick % n]? with
  | none => []
  | some i =>
    let res := fun (j : Nat) => (reservedAt s vi l.id (gridPart l j)).isSome
    ([i] ++ (left.find? fun j => !res j).toList ++
      (if s.slots.any fun (e : Nat × Slot) => match e.2.st with
          | .reserved _ _ _ _ _ => true
          | _ => false then left.filter res else [])).map fun j => [gridPart l j]

/-- The tasks that a first dispatch of a launch takes next (02 R31; R337), each choice a list. -/
def firstChoices (s : State) (vi : Nat) (l : Launch) (pick : Nat) : List (List Part) :=
  if l.kind = 3 then
    match l.arrived with
    | [] => []
    | (n, start, lva) :: _ => [[⟨n % 2 ^ 16, n / 2 ^ 16, 0, n, 0, 0, l.nacc, start, lva⟩]]
  else if !moreToDispatch l then []
  else if l.kind = 0 then gridChoices s vi l pick
  else if l.kind = 1 then [(List.range 16).map fun t => ⟨t, l.group, 0, l.group, t, l.group, l.nacc, 0, 0⟩]
  else match chainById s vi l.id with
    | none => []
    | some c => [(List.range (c.nstage + 1)).map fun i => ⟨i, 0, 0, 0, i, 0, l.nacc, 0, 0⟩]

/-- The lowest `k` free frames of a launch (R327). -/
def freeFrames (l : Launch) (k : Nat) : List Nat :=
  ((List.range (min l.nframe (l.inUse.length + k))).filter fun f => !l.inUse.contains f).take k

/-- The contexts of a launch that are off their cores, with their tasks. -/
def awayOf (s : State) (vi id : Nat) : List (Pre × Task) :=
  s.pre.filterMap fun e =>
    match e.slot.task with
    | some k => if e.out && k.vi == vi && k.id == id then some (e, k) else none
    | none => none

/-- Whether two tasks of one launch belong to one unit. -/
def sameUnit (a b : Task) : Bool :=
  a.vi == b.vi && a.id == b.id && (a.kind == 2 || (a.kind == 1 && a.inst == b.inst) ||
    (a.x == b.x && a.y == b.y && a.z == b.z))

/-- A pre-empted unit as it is placed again. -/
def againItem (vi : Nat) (l : Launch) (u : List (Pre × Task)) : Item :=
  { vi := vi, l := l, again := u.map Prod.fst,
    parts := u.map fun e => ⟨e.2.x, e.2.y, e.2.z, e.2.group, e.2.part, e.2.inst, e.2.tiles.length, e.2.recAt, 0⟩ }

/-- Whether every task of the unit is off its core (02 R39; 14 R255). -/
def unitAway (s : State) (vi id : Nat) (u : List (Pre × Task)) : Bool :=
  match u with
  | [] => false
  | (_, k) :: _ =>
    if k.kind = 1 then u.length == 16
    else if k.kind = 2 then (chainById s vi id).any fun c => c.live.length == u.length
    else true

/-- The pre-empted unit of a launch that comes next (R337): the lowest group, then the earliest pre-emption. -/
def nextAway (s : State) (vi : Nat) (l : Launch) : Option Item :=
  let all := awayOf s vi l.id
  let units := all.map fun e => all.filter fun f => sameUnit e.2 f.2
  let best := (units.filter (unitAway s vi l.id)).foldl (fun (b : Option (List (Pre × Task))) u =>
    match b.bind List.head?, u.head? with
    | some (e, k), some (f, j) => if j.group < k.group ∨ (j.group = k.group ∧ f.order < e.order) then some u else b
    | _, _ => some u) none
  best.map (againItem vi l)

/-- The choices for the next unit of a launch (R337): a pre-empted one, or else a first dispatch, which needs frames (R327). -/
def choices (s : State) (vi : Nat) (pick : Nat) (l : Launch) : List Item :=
  if (awayOf s vi l.id).isEmpty then
    ((firstChoices s vi l pick).filter fun ps => (freeFrames l ps.length).length == ps.length).map fun ps => ⟨vi, l, ps, []⟩
  else (nextAway s vi l).toList

/-- The launches of a tenant in a class, in rotation after the last one served (R337). -/
def rotation (s : State) (vi cls : Nat) : List Launch :=
  let ls := (s.launches.filter fun e => e.1 == vi && e.2.cls == cls).map Prod.snd
  match ls.findIdx? fun l => l.id == (s.vif vi).turn.get cls 0 with
  | some i => ls.drop (i + 1) ++ ls.take (i + 1)
  | none => ls

/-- Whether dispatch goes on for a tenant (R330). -/
def dispatches (s : State) (vi : Nat) : Bool := bit (s.vif vi).tencfg.toNat 63

/-- The tenants, in the order in which class `cls` serves them (R333). -/
def tenantOrder (s : State) (cls : Nat) : List Nat :=
  ((List.range 64).map fun i => (s.turn.get cls 0 + i) % 64).filter (dispatches s)

/-- Whether core `c` is kept for another launch than launch `id` of tenant `vi` (02 R52). -/
def keptFor (s : State) (vi id c : Nat) : Bool := s.kept.any fun k => k.1 == c && k.2 != (vi, id)

/-- The places that a unit may take now; an urgent one may take a place that is kept (R332). -/
def placeNow (s : State) (ok : Nat → Bool) (it : Item) : Option (List Place) :=
  placeItem s (fun c => ok c && (it.l.cls == 1 || !keptFor s it.vi it.l.id c)) it

/-- The next unit of a tenant in a class that can be placed, with its places. -/
def placeable (s : State) (ok : Nat → Bool) (pick vi cls : Nat) : Option (Item × List Place) :=
  (rotation s vi cls).findSome? fun l => (choices s vi pick l).findSome? fun it =>
    match placeNow s ok it with
    | some ps => if leaseReady s it ps then some (it, ps) else none
    | none => none

/-- The units of a class that wait and cannot be placed. -/
def waiting (s : State) (ok : Nat → Bool) (pick cls : Nat) : List Item :=
  (tenantOrder s cls).flatMap fun vi => (rotation s vi cls).filterMap fun l =>
    match choices s vi pick l with
    | [] => none
    | it :: rest => if (it :: rest).any fun u => (placeNow s ok u).isSome then none else some it

/-! ### What runs -/

/-- A unit that runs: its class, its launch, its group, its order of dispatch, its slots, and whether it is on its way out. -/
structure Unt where
  vi    : Nat
  id    : Nat
  kind  : Nat
  cls   : Nat
  group : Nat
  order : Nat
  slots : List Nat
  going : Bool
  deriving DecidableEq, Repr

/-- Whether a slot is on its way out: asked to, or in the resident handler of a pre-emption. -/
def leaving (x : Slot) : Bool := x.preReq || (x.inh && x.ecause == 1)

/-- The unit of the task `k` on slot `n`, when `n` is its first slot that runs; Lingering teams belong to their instance (02 R38). -/
def unitOfSlot (s : State) (n : Nat) (k : Task) : Option Unt :=
  let mine := s.slots.filter fun (e : Nat × Slot) => isWorker e.1 && runsTask e.2 && e.2.task.any (sameUnit k)
  if mine.head?.any fun e => e.1 == n then
    (launchOf s k.vi k.id).map fun l =>
      let all := s.slots.filter fun (e : Nat × Slot) =>
        isWorker e.1 && (runsTask e.2 || e.2.st == .lingering) && e.2.task.any (sameUnit k)
      ⟨k.vi, k.id, k.kind, l.cls, k.group, (mine.filterMap fun e => e.2.task.map (·.order)).foldl max 0, all.map Prod.fst,
        mine.any fun e => leaving e.2⟩
  else none

/-- Whether `u` comes before `v` as a victim of an urgent task (R332): background before normal, then the latest dispatch. -/
def victimFirst (u v : Unt) : Bool := decide (v.cls < u.cls) || (u.cls == v.cls && decide (v.order < u.order))

/-- A unit put into a list that an order keeps. -/
def insertUnit (f : Unt → Unt → Bool) (u : Unt) (l : List Unt) : List Unt :=
  match l with
  | [] => [u]
  | v :: t => if f v u then v :: insertUnit f u t else u :: v :: t

/-- Every unit that runs, in an order. -/
def unitsBy (s : State) (f : Unt → Unt → Bool) : List Unt :=
  (s.slots.filterMap fun (e : Nat × Slot) =>
    match e.2.task with
    | some k => if isWorker e.1 && runsTask e.2 then unitOfSlot s e.1 k else none
    | none => none).foldr (insertUnit f) []

/-- Whether `k` runs of `n` banks each, the lowest one first, fit into the banks `free`. -/
def runsFit (free : List Nat) (n k : Nat) : Bool :=
  match k with
  | 0 => true
  | k + 1 =>
    match free.find? fun b => (List.range n).all fun j => free.contains (b + j) with
    | none => false
    | some b => runsFit (free.filter fun a => a < b || b + n ≤ a) n k

/-- Whether a unit that waits needs something of core `c` that slots of `u` hold there (R332): a slot, banks or tiles. A folded chain needs
T0 to Tn of one core, and room there for every stage (14 R248). -/
def helps (s : State) (it : Item) (u : Unt) (c : Nat) : Bool :=
  let here := u.slots.filter fun n => coreOf n == c
  let folded := it.l.kind = 2 ∧ (chainById s it.vi it.l.id).any (·.folded) = true
  let k := if folded then it.parts.length else 1
  let nacc := (it.parts.head?.map (·.nacc)).getD 0
  let slotWanted := if folded then here.any fun n => slotIn n < k else !(List.range 4).any fun t => isFree s (4 * c + t)
  !here.isEmpty && (slotWanted || !runsFit ((List.range 16).filter (bankFree s c)) it.l.tcm k ||
    (decide ((freeTiles s c).length < k * nacc) && here.any fun n => !(tilesOf (s.slot n)).isEmpty))

end Sys2Proof.Machine
end

