-- ==== Sys2Proof/Machine/Start.lean ====
section
/-!
DEFINITION. The start of a task (02 R30, R35, R42; 08 R139), the channels of a chain (14 R246), re-dispatch (20 R305, R306; 02 R38,
R39; 12 R206, R208; 06 R107; 14 R255), and the switch of a chain between its forms (14 R253, R254, R260).

Readings and choices of the model (log): DESIGN CHOICE 29, 104; DEDUCED 40, 52, 53, 58, 59, 60, 61, 64, 66, 105, 106.
-/

namespace Sys2Proof.Machine

open Sys2Proof

/-! ### The start of a task -/

/-- The protection region of a task's banks (08 R139): read and write, and sibling windows for a team. -/
def regionWord (n bank tcm : Nat) (sib : Bool) : Word :=
  BitVec.ofNat 64 (2 ^ 63 + 2 ^ (59 + slotIn n) + 3 * 2 ^ 57 + (if sib then 2 ^ 56 else 0) + bank * 2 ^ 12 + (bank + tcm - 1) * 2 ^ 8)

/-- The region register of slot `n`, written by the dispatcher. -/
def setRegion (s : State) (n bank tcm : Nat) (sib : Bool) : State :=
  s.modCore (coreOf n) fun c => { c with trgn := c.trgn.set (slotIn n) (regionWord n bank tcm sib) }

/-- SAVEPTR of a task that starts again: the window address of the top KiB of its banks, which privileged accesses reach at their physical place
(20 R305, R306; 08 R140). -/
def savePtr (bank tcm : Nat) : Word := BitVec.ofNat 64 (winBase + (bank + tcm) * 4096 - 1024)

/-- DOMAIN at the start of a task (02 R42). -/
def startDomain (s : State) (vi n : Nat) (team : Bool) : Word :=
  let v := clusterOf n - meshBase s vi
  BitVec.ofNat 64 (2 ^ 62 + v / 32 * 2 ^ 37 + v % 32 * 2 ^ 32 + if team then 0xFFFF else 2 ^ (coreOf n % 16))

/-- The length of a record of a ring. -/
def recordLen (s : State) (ring : Option Nat) (start : Nat) : Nat :=
  match ring with
  | none => 0
  | some r => (((s.regn r).recs.find? fun e => e.start == start).map (·.len)).getD 0

/-- s1 to s7 at the start of a task (02 R30, R35). -/
def startArgs (s : State) (l : Launch) (p : Part) : List Word :=
  if l.kind = 3 then
    [BitVec.ofNat 64 p.lva, BitVec.ofNat 64 (recordLen s l.ring p.recAt), BitVec.ofNat 64 p.group] ++ l.args.take 4
  else l.args

/-- The scalar registers at the start of a task (02 R30, R35). -/
def startRegs (x : Slot) (l : Launch) (args : List Word) : Slot :=
  let y := (args.zipIdx).foldl (fun (u : Slot) e => u.ws (1 + e.2) e.1) x
  ((y.ws 60 l.argblk).ws 61 (BitVec.ofNat 64 winBase)).ws 63 (BitVec.ofNat 64 (winBase + l.tcm * 4096 - 1024))

/-- A task starts on its place with a frame (02 R29, R30): banks and tiles cleared, but for banks that a reservation has kept; every
register of the slot that R30 does not list is zero. -/
def startTask (s : State) (vi : Nat) (l : Launch) (p : Part) (q : Place) (frame : Nat) : State :=
  let n := q.slot
  let kept := (s.slot n).st == .reserved vi l.id p.x p.y p.z
  let s1 := if kept then s else clearRange s (tcmBase (coreOf n) + q.bank * 4096) (l.tcm * 4096)
  let s2 := q.tiles.foldl (fun t a => clearRange t (accBase (clusterOf n) a) 4096) s1
  let x : Slot := {
    st := .running
    pc := l.entry
    vi := vi
    seq := (s.slot n).seq
    domain := startDomain s vi n (l.kind == 1)
    task := some (taskAt vi l p q frame (slotCycles s n) s.nextOff) }
  setRegion { s2.setSlot n (startRegs x l (startArgs s l p)) with nextOff := s.nextOff + 1 } n q.bank l.tcm (l.kind == 1)

/-! ### Channels -/

/-- The ring block that Saffron writes for channel word `w` (14 R246). -/
def chanCfg (w consumer : Nat) : Nat :=
  2 ^ (consumer % 16) * 2 ^ 48 + (if bit w 59 then 0 else 2) * 2 ^ 32 + bits w 63 60 * 2 ^ 24 + (bits w 21 0 + 128)

/-- Channel `i` of a chain created and bound (14 R246): its event, and the state. -/
def createChannel (s : State) (c : Chain) (ps : List Place) (i : Nat) : Option (EvRef × State) :=
  match ps[i]?, ps[i + 1]?, c.chan[i]? with
  | some a, some b, some w =>
    let p := clusterOf a.slot
    let off := bits w 21 0
    let s1 := (s.setRaw (tarnBase p + off) 128 (chanCfg w (coreOf b.slot))).modCluster p fun y => { y with mrb := y.mrb.set off [] }
    let e : Ev := { plan := 4, efmt := (if bit w 59 then 1 else 0), parties := [partyOf s 0 a.slot, partyOf s 0 b.slot],
                    depth := bits w 63 60 + 1, mrb := off, cl := p, vi := c.vi, launch := c.id }
    (createEvent s1 e).map fun r =>
      let nm := fun n => nameOf r.2 n r.1
      (r.1, (r.2.modSlot a.slot fun x => { x with evb := x.evb.set 30 (nm a.slot) }).modSlot b.slot fun x =>
        { x with evb := x.evb.set 31 (nm b.slot) })
  | _, _, _ => none

/-- The channels of a chain at its first placement, and its first active stage (14 R246, R248, R249). -/
def startChain (s : State) (c : Chain) (ps : List Place) : State :=
  let (evs, s1) := (List.range c.nstage).foldl (fun (a : List EvRef × State) i =>
    match createChannel a.2 c ps i with
    | some (r, t) => (a.1 ++ [r], t)
    | none => a) ([], s)
  let s2 := modChain s1 c.vi c.id fun d =>
    { d with
      evs := evs
      cl := (ps.head?.map fun q => clusterOf q.slot).getD 0
      live := List.range (c.nstage + 1)
      active := if c.folded then c.nstage else 0 }
  if c.folded then (ps.take c.nstage).foldl (fun t q => setPark t q.slot 1) s2 else s2

/-! ### First dispatch -/

/-- What a first dispatch makes of its launch (02 R28, R31; 22 R327). -/
def dispatched (l : Launch) (ps : List Part) (frames : List Nat) : Launch :=
  let l1 := { l with out := l.out + ps.length, inUse := l.inUse ++ frames }
  if l.kind = 0 then
    let i := (ps.map fun p => p.x + (l.ex + 1) * (p.y + (l.ey + 1) * p.z)).headD 0
    if (gridLeft l).length ≤ 1 then { l1 with group := l.group + 1, doneIn := [] } else { l1 with doneIn := l.doneIn ++ [i] }
  else if l.kind = 3 then { l1 with arrived := l.arrived.drop 1 }
  else { l1 with group := l.group + 1 }

/-- A unit dispatched for the first time on its places. -/
def dispatchFirst (s : State) (it : Item) (ps : List Place) : State :=
  let fs := freeFrames it.l it.parts.length
  let s1 := ((it.parts.zip ps).zip fs).foldl (fun t e => startTask t it.vi it.l e.1.1 e.1.2 e.2) s
  let s2 := modLaunch s1 it.vi it.l.id fun l => dispatched l it.parts fs
  if it.l.kind = 2 then
    match chainById s2 it.vi it.l.id with
    | some c => startChain s2 c ps
    | none => s2
  else s2

/-! ### Moving what a task holds -/

/-- The cells of closes and appends that lay in the task's old banks, in its new ones (02 R55). -/
def moveCells (x : Slot) (lo lo' len : Nat) : Slot :=
  let f := fun (c : Nat) => if lo ≤ c ∧ c < lo + len then c - lo + lo' else c
  { x with
    closes := x.closes.map fun (c : Close) => { c with cell := f c.cell }
    appends := x.appends.map fun (a : Append) => { a with cell := f a.cell } }

/-- Bytes written to cells from `lo` on by the device. -/
def putBytes (s : State) (lo : Nat) (bs : List Nat) : State := (bs.zipIdx).foldl (fun t e => t.setByte (lo + e.2) e.1) s

/-- A decode table that comes with a task to its new core, as a TBLLD by it would (06 R107). -/
def reloadTables (s : State) (n : Nat) (a b : Option Table) : State :=
  let put := fun (t : Option Table) (old : Table) => match t with
    | some u => { u with age := s.nextOff }
    | none => old
  { s.modCore (coreOf n) fun c => { c with tabA := put a c.tabA, tabB := put b c.tabB } with nextOff := s.nextOff + 1 }

/-- A free value for every register from `k` on down. -/
def freeFile (w : Nat) (k : Nat) (s : State) : SMap (BitVec w) × State :=
  match k with
  | 0 => ([], s)
  | k + 1 =>
    let (m, s1) := freeFile w k s
    let (b, s2) := freeBytes s1 (w / 8)
    (m ++ [(k, BitVec.ofNat w (numOf b))], s2)

/-! ### Re-dispatch -/

/-- The slot of a task that starts again in the resident handler (20 R305): its own registers come back with CTXREST and are free
values until then; what the device keeps for the task is there. -/
def handlerSlot (x : Slot) (k : Slot) (j : Task) (s : State) : Slot × State :=
  let (rs, s1) := freeFile 64 64 s
  let (vs, s2) := freeFile 1024 32 s1
  let (ks, s3) := freeFile 128 8 s2
  let (f, s4) := freeBytes s3 40
  let w := fun (i : Nat) => BitVec.ofNat 64 (numOf ((f.drop (8 * i)).take 8))
  ({ emptied x with
    st := .running
    pc := bits x.vbase.toNat 51 2 * 4
    s := rs
    v := vs
    k := ks
    fmt := w 0 &&& 0xFFFF
    flags := w 1 &&& 0x1F
    rmode := w 2 &&& 3
    domain := w 3 &&& 0xC000007FFFFFFFFF
    mode := true
    pmode := false
    inh := true
    ecause := 2
    epc := w 4
    saveptr := savePtr j.bank j.tcm
    task := some j
    vi := j.vi
    evb := k.evb
    tag := k.tag
    batches := k.batches
    closes := k.closes
    appends := k.appends
    sent := k.sent
    seq := max x.seq k.seq
    report := k.report
    reports := k.reports
    mflags := k.mflags
    settles := k.settles
    streams := k.streams
    instret := k.instret
    iw := k.iw }, s4)

/-- The task as it stands on its new place. -/
def taskBack (s : State) (k : Task) (q : Place) (order : Nat) : Task :=
  { k with bank := q.bank, tiles := q.tiles, from_ := slotCycles s q.slot, order := order }

/-- The images of a task's tiles read back from its accumulator save area (12 R208); none where the read fails. -/
def reloadAcc (s : State) (n : Nat) (k : Task) (q : Place) : Option State :=
  if q.tiles = [] then some s
  else (saveRead s n (localEa (frameAt s k + 0x2000)) 16384).map fun bs => loadTiles s (clusterOf n) q.tiles bs

/-- The TCM image of a task read back from its frame (20 R306); none where the read fails. -/
def reloadImage (s : State) (n : Nat) (k : Task) (q : Place) : Option State :=
  (saveRead s n (localEa (frameAt s k + 0x10000)) (k.tcm * 4096)).map fun bs => putBytes s (tcmBase (coreOf n) + q.bank * 4096) bs

/-- A message of an offer unit for slot `n` in place of the slot that it was sent to. -/
def MsgBody.toSlot (b : MsgBody) (n : Nat) : MsgBody :=
  match b with
  | .claim _ o c => .claim n o c
  | .release _ o ev side => .release n o ev side
  | .commit _ o pos st => .commit n o pos st
  | .gone _ o => .gone n o
  | .denied _ o => .denied n o
  | _ => b

/-- The items spilled for a task, delivered in their order to slot `n`, and whether an uncorrectable error has met one (20 R307, R308). -/
def deliverSpill (s : State) (e : Pre) (n : Nat) : Bool × State :=
  let v := s.vif e.slot.vi
  let mine := v.spill.filter fun i => i.1 == e.order
  let ms := mine.map fun i => { i.2.2 with dst := n, body := i.2.2.body.toSlot n }
  (mine.any fun i => (spillCells v i.2.1).any (poisoned s),
    { s.modVi e.slot.vi fun u => { u with spill := u.spill.filter fun i => i.1 != e.order } with msgs := s.msgs ++ ms })

/-- A pre-empted task starts again on a place (20 R305 to R307), and whether its save is lost: by a read that fails, or by an error that its
spilled items have met (R308). -/
def restoreTask (s : State) (e : Pre) (k : Task) (q : Place) : Bool × State :=
  let n := q.slot
  let j := taskBack s k q s.nextOff
  let old := bankCell e.home k
  let new := tcmBase (coreOf n) + q.bank * 4096
  let back := moveCells e.slot old new (k.tcm * 4096)
  let (x, s0) := handlerSlot (s.slot n) back j { s with nextOff := s.nextOff + 1 }
  let s1 := setRegion (s0.setSlot n x) n q.bank k.tcm (k.kind == 1)
  let s2 := mapSlot (mapParties s1 (backParty s1 n e.order)) (awaySlot e.order) n
  let (lost, s3) := deliverSpill { s2 with pre := s2.pre.map fun f =>
    if f.out && f.order == e.order then { f with out := false, home := n, slot := back } else f } e n
  match (reloadImage s3 n k q).bind fun t => reloadAcc t n k q with
  | some s4 => (e.lost || lost, reloadTables s4 n e.slot.keptA e.slot.keptB)
  | none => (true, s3)

/-- A Lingering team goes back with its instance, its allocation as it was (02 R38). -/
def restoreLinger (s : State) (e : Pre) (k : Task) (q : Place) : State :=
  let n := q.slot
  let x := { emptied (s.slot n) with st := .lingering, task := some { k with bank := q.bank }, vi := k.vi, retain := e.slot.retain }
  let s1 := putBytes (setRegion (s.setSlot n x) n q.bank k.tcm true) (tcmBase (coreOf n) + q.bank * 4096) e.image
  { s1 with pre := s1.pre.filter fun f => !(f.out && f.order == e.order) }

/-- The leases that a re-dispatched unit was due (12 R206): the first is granted now, the arbiter holds a request for each other. -/
def grantLeases (s : State) (it : Item) (ps : List Place) : State :=
  match leaseFor it ps with
  | none => s
  | some n =>
    let rest := ((it.again.zip ps).filter fun e => e.1.slot.want && e.2.slot != n).map fun e => (e.2.slot, behalf)
    s.modCluster (clusterOf n) fun c =>
      { c with lease := { c.lease with
          ptr := n % 64, holder := some n, count := 0, from_ := clusterCycles s (clusterOf n), reqs := c.lease.reqs ++ rest } }

/-- The release count that a channel's consumer had, carried to its core (14 R254 step 4). -/
def moveConsumer (s : State) (c : Chain) (i core : Nat) : State :=
  match c.chan[i]? with
  | none => s
  | some w =>
    let off := bits w 21 0
    let b := tarnBase c.cl + off
    let cfg := mrbCfg s b
    match (List.range 16).find? fun j => bit (bits cfg 63 48) j with
    | none => s
    | some old =>
      let rel := keptCount (keptOf s c.cl off) old
      ((s.setRaw b 8 (cfg % 2 ^ 48 + 2 ^ (core % 16) * 2 ^ 48)).setRaw (b + 64 + 4 * (core % 16)) 4 rel).modCluster c.cl fun y =>
        { y with mrb := y.mrb.set off (SMap.set (keptOf s c.cl off) (core % 16) rel) }

/-- Step 4 of 14 R254 for every channel whose consumer lives. -/
def moveConsumers (s : State) (c : Chain) : State :=
  (List.range c.nstage).foldl (fun t i =>
    match stageSlot t c (i + 1) with
    | some m => moveConsumer t c i (coreOf m)
    | none => t) s

/-- The tasks of a pre-empted unit on their places, with the slots of those whose save is lost. -/
def placeAgain (s : State) (it : Item) (ps : List Place) : List Nat × State :=
  (it.again.zip ps).foldl (fun (a : List Nat × State) u =>
    let e := (a.2.pre.find? fun f => f.out && f.order == u.1.order).getD u.1
    match e.slot.task with
    | none => a
    | some k =>
      if e.slot.st == .lingering then (a.1, restoreLinger a.2 e k u.2)
      else
        let (lost, t) := restoreTask a.2 e k u.2
        (if lost then a.1 ++ [u.2.slot] else a.1, t)) ([], s)

/-- A pre-empted unit placed again as a whole (02 R39; 14 R255; 20 R305); then the tasks whose save is lost fault (R308). -/
def dispatchAgain (s : State) (it : Item) (ps : List Place) : State :=
  let (lost, s1) := placeAgain s it ps
  let s2 := grantLeases s1 it ps
  let s3 := match (if it.l.kind = 2 then chainById s2 it.vi it.l.id else none) with
    | some c => moveConsumers s2 c
    | none => s2
  lost.foldl (fun t n => fatalFault t n (faultRec t n saveLost)) s3

/-! ### The switch of a chain -/

/-- Whether a stage is parked (14 R253): its code, or in spread form an offer of its GET or PUT. One that is being pre-empted is not. -/
def stageParked (s : State) (c : Chain) (m : Nat) : Nat :=
  let x := s.slot m
  let k := (x.task.map (·.park)).getD 0
  if x.inh || x.dorm.isSome then 0
  else if c.folded || k != 0 then k
  else match x.offer with
    | some o =>
      if x.st == .offering && (o.cause == 3 || o.cause == 4) && o.pos.any (fun p => c.evs.contains p.ev) && !commitSent s m o.id
      then o.cause else 0
    | none => 0

/-- Whether a stage meets the further conditions of an equivalence point (14 R253). -/
def stageClean (s : State) (m : Nat) : Bool :=
  let x := s.slot m
  x.frame.isNone && x.pfx.isNone && !leaseLive s m && !((s.cluster (clusterOf m)).lease.reqs.any fun q => q.1 == m) &&
    !enginesOut s m && x.streams.isEmpty && x.stand.isNone && x.ready.isNone && x.susp.isNone && x.armNext.isNone &&
    !x.soh

/-- The live stages of a chain with their slots; none while one of them is off its core. -/
def liveStages (s : State) (c : Chain) : Option (List (Nat × Nat)) := c.live.mapM fun i => (stageSlot s c i).map fun m => (i, m)

/-- The task of a stage, as a part to be placed. -/
def stagePart (s : State) (i m : Nat) : Part := ⟨i, 0, 0, 0, i, 0, (tilesOf (s.slot m)).length, 0, 0⟩

/-- The core on which a chain folds (14 R260): that of its lowest-numbered live stage or else the lowest-numbered of the cluster each of whose
slots T0 to Tn is free or holds one of its stages, which stand on `mine`. The empty slots of a halted core are Halted (20 R313). -/
def foldCore (s : State) (c : Chain) (mine : List Nat) (first : Nat) : Option Nat :=
  (first :: (List.range 16).map (16 * c.cl + ·)).find? fun core => (List.range (c.nstage + 1)).all fun i =>
    mine.contains (4 * core + i) || (isFree s (4 * core + i) && !haltedCore s core)

/-- The places to which a switch takes the live stages (14 R260); none where there is no room. -/
def switchPlan (s : State) (c : Chain) (l : Launch) (st : List (Nat × Nat)) (fold : Bool) : Option (List Place) :=
  let t := without s (st.map Prod.snd)
  let ps := st.map fun e => stagePart s e.1 e.2
  match st with
  | [] => none
  | (_, m) :: _ =>
    if fold then
      (foldCore s c (st.map Prod.snd) (coreOf m)).bind fun core =>
        placeEach t c.vi l (fun u _ q => placeIn u c.vi l false q core (some q.part)) ps
    else
      placeEach t c.vi l (fun u used q =>
        match used with
        | [] => placeIn u c.vi l false q (coreOf m) (some (slotIn m))
        | _ => (List.range 16).findSome? fun j =>
            let core := 16 * c.cl + j
            if used.any fun a => coreOf a.slot == core then none else placeOn u c.vi l false q core none) ps

/-- What a stage takes with it: its slot as it was, its bytes of TCM, the images of its tiles. -/
structure Luggage where
  from_ : Nat
  x     : Slot
  k     : Task
  tcm   : List Nat
  tiles : List (List Nat)

/-- A stage packed (14 R254 step 2): its stores are performed, its offer is withdrawn. -/
def packStage (s : State) (m : Nat) : Option (Luggage × State) :=
  let s1 := drainStores s m
  let s2 := ([(s1.slot m).offer].filterMap id).foldl (fun t o => withdrawOffer t m o) s1
  let x := s2.slot m
  x.task.map fun k =>
    (⟨m, x, k, cellBytes s2 (bankCell m k) (k.tcm * 4096), k.tiles.map fun t => cellBytes s2 (accBase (clusterOf m) t) 4096⟩, s2)

/-- A stage unpacked on its new place (14 R254 step 2), parked as `park` says. -/
def unpackStage (s : State) (g : Luggage) (q : Place) (park : Nat) : State :=
  let n := q.slot
  let y := s.slot n
  let new := tcmBase (coreOf n) + q.bank * 4096
  let k := { g.k with bank := q.bank, tiles := q.tiles, used := taskCycles s g.from_ g.k, from_ := slotCycles s n, park := park }
  let x := { moveCells g.x (bankCell g.from_ g.k) new (g.k.tcm * 4096) with
    st := .running, task := some k, vbase := y.vbase, epc := y.epc, ecause := y.ecause, pscratch := y.pscratch
    saveptr := savePtr q.bank g.k.tcm, seq := max y.seq g.x.seq }
  let s1 := setRegion (s.setSlot n x) n q.bank g.k.tcm false
  (q.tiles.zip g.tiles).foldl (fun t e => putBytes t (accBase (clusterOf n) e.1) e.2) (putBytes s1 new g.tcm)

/-- Slot numbers of many tasks changed at once, in party entries and elsewhere (14 R254 step 3). -/
def moveParties (s : State) (mv : List (Nat × Nat)) : State :=
  let g := fun (p : Nat) =>
    match (if p < 2 ^ 32 then slotOfParty s p else none).bind fun n => mv.find? fun e => e.1 == n with
    | some (_, m) => partyOf s (p / 2 ^ 28) m
    | none => p
  let s1 := mapParties s g
  let s2 := mv.foldl (fun t e => mapSlot t e.1 (2 ^ 32 + e.1)) s1
  mv.foldl (fun t e => mapSlot t (2 ^ 32 + e.1) e.2) s2

/-- The latest of a launch's tables on the cores of its stages (14 R254 step 2). -/
def latestTable (vi id : Nat) (l : List Table) : Option Table :=
  (l.filter fun t => t.owner == some (vi, id)).foldl (fun (b : Option Table) t =>
    match b with
    | some u => if u.age < t.age then some t else b
    | none => some t) none

/-- The tables that a switch carries to the new cores. -/
def moveTables (s old : State) (c : Chain) (mv : List (Nat × Nat)) : State :=
  let cores := mv.map fun e => old.core (coreOf e.1)
  let a := latestTable c.vi c.id (cores.map (·.tabA))
  let b := latestTable c.vi c.id (cores.map (·.tabB))
  mv.foldl (fun t e => t.modCore (coreOf e.2) fun x => { x with tabA := a.getD x.tabA, tabB := b.getD x.tabB }) s

/-- Held items written into their rings when a chain spreads (14 R254 step 6). -/
def flushHeld (s : State) (c : Chain) : State :=
  c.held.foldl (fun t i =>
    match stageSlot t c (i + 1), (c.evs[i]?).bind (evOf t) with
    | some m, some e => putItem t e m
    | _, _ => t) s

/-- The stages resume in the new form (14 R254 step 7): one parked at an EQP goes on after it. -/
def resumeStages (s : State) (c : Chain) (fold : Bool) (ms : List (Nat × Nat × Nat)) : State :=
  let top := c.live.foldl max 0
  ms.foldl (fun t e =>
    let (i, m, k) := e
    let t1 := if k = 2 then retire t m false else t
    setPark t1 m (if fold && i != top then (if k = 2 then 5 else k) else 0)) s

/-- A chain is switched (14 R254). -/
def switchChain (s : State) (c : Chain) (fold : Bool) (st : List (Nat × Nat)) (ps : List Place) : State :=
  let codes := st.map fun e => stageParked s c e.2
  let (bags, s1) := st.foldl (fun (a : List Luggage × State) e =>
    match packStage a.2 e.2 with
    | some (g, t) => (a.1 ++ [g], t)
    | none => a) ([], s)
  let s2 := bags.foldl (fun t g => vacate t g.from_ g.k) s1
  let s3 := ((bags.zip ps).zip codes).foldl (fun t e => unpackStage t e.1.1 e.1.2 e.2) s2
  let mv := (bags.zip ps).map fun e => (e.1.from_, e.2.slot)
  let s4 := moveConsumers (moveTables (moveParties s3 mv) s c mv) c
  let s5 := if fold then s4 else flushHeld s4 c
  let s6 := modChain s5 c.vi c.id fun d =>
    { d with
      folded := fold, held := [], pend := none, openWin := none, switches := d.switches + 1
      active := if fold then c.live.foldl max 0 else 0 }
  resumeStages s6 c fold (((st.map Prod.fst).zip ((ps.map (·.slot)).zip codes)).map fun e => (e.1, e.2.1, e.2.2))

/-- Every live stage is parked and the chain cannot be switched: it runs on (14 R253). In spread form the queue agents offer in the window
that runs now; in folded form the active stage executes its GET or PUT. A stage parked at an EQP goes on after it. -/
def runOn (s : State) (c : Chain) (st : List (Nat × Nat)) : State :=
  let opens := !c.folded || st.any fun e => e.1 == c.active && (stageParked s c e.2 == 3 || stageParked s c e.2 == 4)
  let s1 := modChain s c.vi c.id fun d =>
    { d with openWin := if opens then some (homeCycles s c.cl / windowLen c.cl) else none }
  st.foldl (fun t e =>
    let k := stageParked s c e.2
    if c.folded && e.1 != c.active then t
    else if k = 2 then setPark (retire t e.2 false) e.2 0
    else if c.folded then setPark t e.2 0
    else t) s1

/-- CHAIN_SWITCH (14 R253, R254): once every live stage is parked, the chain is switched, or runs on. -/
def chainSwitch (vi id : Nat) (s : State) : State :=
  match chainById s vi id, launchOf s vi id with
  | some c, some l =>
    (match c.pend, liveStages s c with
     | some fold, some st =>
       let codes := st.map fun e => stageParked s c e.2
       if (!c.folded && c.openWin.isSome) || st.isEmpty || codes.any (· == 0) || !clusterRuns s c.cl then s
       else if codes.all (fun k => k != 1) && st.all fun e => stageClean s e.2 then
         (match switchPlan s c l st fold with
          | some ps => switchChain s c fold st ps
          | none => runOn s c st)
       else runOn s c st
     | _, _ => s)
  | _, _ => s

/-- CHAIN_SWITCH (14 R254). -/
def execChainSwitch (vi id : Nat) (s : State) := event (chainSwitch vi id) s

end Sys2Proof.Machine
end

