-- ==== Sys2Proof/Machine/Sched.lean ====
section
/-!
DEFINITION. The dispatcher's steps (22 R332 to R338; 02 R52): each looks for the first thing to do, in the order of the classes, and
does it. TASK_DISPATCH does it unless it is a re-dispatch, TASK_REDISPATCH when it is one.

Readings and choices of the model (log): DESIGN CHOICE 110; DEDUCED 111, 113, 114, 115, 116, 159, 160, 165.
-/

namespace Sys2Proof.Machine

open Sys2Proof

/-- What the dispatcher does next. -/
inductive Action where
  /-- A unit of class `cls` is placed, after the tenants of `gain` have been replenished. -/
  | place (cls : Nat) (gain : List Nat) (it : Item) (ps : List Place)
  /-- The tenants are replenished, and none of them is eligible yet. -/
  | gain (vis : List Nat)
  /-- A PREEMPT request goes to these slots; `keep` names the tenant and the launch for which their places are kept, `aim` the tenant, the
  launch and the core or cluster that is cleared for an urgent unit. -/
  | request (slots : List Nat) (keep : Option (Nat × Nat)) (aim : Option (Nat × Nat × Nat))
  /-- The core budget of a chain changes: to 1, or to NSTAGE + 1. -/
  | budget (vi id : Nat) (fold : Bool)
  deriving DecidableEq, Repr

/-! ### Deficits -/

/-- A tenant's gain: WEIGHT·Q, saturating at 2^62 (R333). Charges of the same cycle come after it (R339). -/
def replenish (s : State) (vi : Nat) : State :=
  let w : Int := bits (s.vif vi).tencfg.toNat 55 40 * s.quantum
  let gain := fun (d : Int) => min (d + w) ((2 : Int) ^ 62)
  s.modVi vi fun v =>
    if v.chargeAt = s.time then
      let b := gain (if v.charged = [] then v.deficit else v.chargeBase)
      { v with chargeBase := b, deficit := v.charged.foldl (fun d c => max (d - c) (-c)) b }
    else { v with deficit := gain v.deficit }

/-- Every tenant of the list replenished. -/
def replenishAll (s : State) (vis : List Nat) : State := vis.foldl replenish s

/-- Whether a unit is one for which a unit of its own launch has been pre-empted: it is placed whatever its tenant's deficit (R338). -/
def owedPlace (s : State) (it : Item) : Bool := !it.again.isEmpty && s.kept.any fun k => k.2 == (it.vi, it.l.id)

/-- The dispatcher serves class `cls` (R333): the first eligible tenant with a unit that can be placed; when there is none eligible,
each of them gains, and the first that then is eligible is served. -/
def serve (s : State) (ok : Nat → Bool) (pick cls : Nat) : Option Action :=
  let cands := (tenantOrder s cls).filterMap fun vi => placeable s ok pick vi cls
  match cands.find? fun e => owedPlace s e.1 || decide (0 < (s.vif e.1.vi).deficit) with
  | some (it, ps) => some (.place cls [] it ps)
  | none =>
    if cands.isEmpty then none
    else
      let vis := cands.map fun e => e.1.vi
      let t := replenishAll s vis
      match cands.find? fun e => decide (0 < (t.vif e.1.vi).deficit) with
      | some (it, ps) => some (.place cls vis it ps)
      | none => some (.gain vis)

/-! ### Pre-emption for urgent tasks (R332) -/

/-- Whether a unit waits for a whole cluster. -/
def wantsCluster (it : Item) : Bool := it.l.kind == 1 || it.l.kind == 2

/-- The area of a core for a unit: the core, or its cluster. -/
def areaOf (it : Item) (c : Nat) : Nat := if wantsCluster it then c / 16 else c

/-- The areas of the sub-mesh in which a unit runs. -/
def areas (s : State) (it : Item) (u : Unt) : List Nat :=
  distinct ((u.slots.filter fun n => inMesh s it.vi (clusterOf n)).map fun n => areaOf it (coreOf n))

/-- The slots of those units of a list that run in area `a`. -/
def slotsIn (s : State) (it : Item) (us : List Unt) (a : Nat) : List Nat :=
  (us.filter fun u => (areas s it u).contains a).flatMap (·.slots)

/-- The units that an urgent unit may have pre-empted, in order: those of other launches, of lower classes, in its sub-mesh. -/
def victims (s : State) (it : Item) : List Unt :=
  (unitsBy s victimFirst).filter fun u =>
    u.cls != 1 && !(u.vi == it.vi && u.id == it.l.id) && !(areas s it u).isEmpty

/-- The area that the dispatcher clears for an urgent unit: the one that it has begun to clear, while that can still be made to fit, or else
the first. -/
def target (s : State) (it : Item) (vs : List Unt) : Option Nat :=
  let fits := fun (a : Nat) => (placeItem (without s (slotsIn s it vs a)) (fun c => areaOf it c == a) it).isSome
  match (s.aims.find? fun e => e.1 == it.vi && e.2.1 == it.l.id && fits e.2.2) with
  | some e => some e.2.2
  | none => vs.findSome? fun u => (areas s it u).find? fits

/-- The cores that are kept for an urgent unit that waits, and the slots of the next unit to pre-empt for it. -/
def clearFor (s : State) (it : Item) : List Nat × List Nat :=
  let going := ((unitsBy s victimFirst).filter (·.going)).flatMap (·.slots)
  match placeItem (without s going) (fun _ => true) it with
  | some ps => (ps.map fun q => coreOf q.slot, [])
  | none =>
    let vs := victims s it
    match target s it vs with
    | none => ([], [])
    | some a =>
      let cores := if wantsCluster it then (List.range 16).map (16 * a + ·) else [a]
      let here := vs.filter fun u => (areas s it u).contains a
      let t := without s ((here.filter (·.going)).flatMap (·.slots))
      match placeItem t (fun c => areaOf it c == a) it with
      | some _ => (cores, [])
      | none =>
        match here.find? fun u => !u.going && cores.any (helps t it u) with
        | some u => (cores, u.slots)
        | none => (cores, [])

/-! ### Pre-emption for progress (02 R52; R338) -/

/-- Whether `u` comes before `v` as a victim of its own launch: the highest group, then the latest dispatch. -/
def groupFirst (u v : Unt) : Bool := decide (v.group < u.group) || (u.group == v.group && decide (v.order < u.order))

/-- The slots of the unit to pre-empt so that a unit of the same launch with a lower group can be placed. -/
def progressVictim (s : State) (it : Item) : List Nat :=
  let us := unitsBy s groupFirst
  let going := (us.filter (·.going)).flatMap (·.slots)
  let g := (it.parts.head?.map (·.group)).getD 0
  if (placeItem (without s going) (fun _ => true) it).isSome then []
  else
    match us.find? fun u => !u.going && u.vi == it.vi && u.id == it.l.id && u.kind != 2 && decide (g < u.group) &&
        (placeItem (without s (going ++ u.slots)) (fun _ => true) it).isSome with
    | some u => u.slots
    | none => []

/-! ### Core budgets (R335) -/

/-- How a class ranks: urgent, normal, background. -/
def rank (cls : Nat) : Nat := if cls = 1 then 0 else if cls = 0 then 1 else 2

/-- Whether folding chain `c` would make room for a unit that waits and that has a higher class or an eligible tenant. -/
def foldHelps (s : State) (c : Chain) (it : Item) : Bool :=
  match launchOf s c.vi c.id, liveStages s c with
  | some l, some st =>
    (decide (rank it.l.cls < rank l.cls) || decide (0 < (s.vif it.vi).deficit)) && !(it.vi == c.vi && it.l.id == c.id) &&
      (match switchPlan s c l st true with
       | some ps =>
         let t := ((st.map fun e => stagePart s e.1 e.2).zip ps).foldl (fun u e => occupy u c.vi l e.1 e.2)
           (without s (st.map Prod.snd))
         (placeItem t (fun _ => true) it).isSome
       | none => false)
  | _, _ => false

/-- The further cores of its cluster that fit a stage of a chain, beside those on which its live stages stand. -/
def furtherCores (s : State) (c : Chain) : List Nat :=
  match launchOf s c.vi c.id, liveStages s c with
  | some l, some st => ((List.range 16).map (16 * c.cl + ·)).filter fun k =>
      !(st.any fun e => coreOf e.2 == k) && (placeOn s c.vi l false ⟨0, 0, 0, 0, 0, 0, l.nacc, 0, 0⟩ k none).isSome
  | _, _ => []

/-- Whether a unit that cannot be placed waits for cores: it could be, if they held nothing. -/
def waitsFor (s : State) (cores : List Nat) (it : Item) : Bool :=
  (placeItem (without s (cores.flatMap fun c => (List.range 4).map (4 * c + ·))) (fun _ => true) it).isSome

/-- Whether a chain may get a budget for spread form: NSTAGE further cores fit and no unit waits for them (R335). -/
def spreadFits (s : State) (c : Chain) (ws : List Item) : Bool :=
  let cores := furtherCores s c
  decide (c.nstage ≤ cores.length) && !(ws.any (waitsFor s cores))

/-- The change of a core budget that is due, when some units wait. -/
def budgetDue (s : State) (ws : List Item) : Option (Nat × Nat × Bool) :=
  s.chains.findSome? fun c =>
    if c.fixed || c.live.isEmpty then none
    else if c.budget != 1 && ws.any (foldHelps s c) then some (c.vi, c.id, true)
    else if c.budget < c.nstage + 1 && spreadFits s c ws then some (c.vi, c.id, false)
    else none

/-- The budget of a chain changed, and with it the form that is asked for (14 R252). -/
def setBudget (s : State) (vi id : Nat) (fold : Bool) : State :=
  let s1 := modChain s vi id fun c => { c with budget := if fold then 1 else c.nstage + 1 }
  match chainById s1 vi id with
  | some c => (requestForm s1 c fold).2
  | none => s1

/-! ### The next action -/

/-- What the dispatcher does next. -/
def nextAction (s : State) (pick : Nat) : Option Action :=
  let all := fun _ => true
  match serve s all pick 1 with
  | some a => some a
  | none =>
    let urgent := (waiting s all pick 1).map fun it => (it, clearFor s it)
    match urgent.find? fun e => !e.2.2.isEmpty with
    | some (it, cores, slots) => some (.request slots none (cores.head?.map fun c => (it.vi, it.l.id, areaOf it c)))
    | none =>
      let held := urgent.flatMap fun e => e.2.1
      let ok := fun c => !held.contains c
      match serve s ok pick 0 with
      | some a => some a
      | none =>
        match serve s ok pick 2 with
        | some a => some a
        | none =>
          let ws := waiting s all pick 1 ++ waiting s all pick 0 ++ waiting s all pick 2
          match (ws.filter fun it => !it.again.isEmpty).find? fun it => !(progressVictim s it).isEmpty with
          | some it => some (.request (progressVictim s it) (some (it.vi, it.l.id)) none)
          | none => (budgetDue s ws).map fun b => .budget b.1 b.2.1 b.2.2

/-- A unit of class `cls` placed (R333, R334, R337): the rotation and the tenant's placement pointer move; what was kept for its launch is
kept no longer. -/
def placeUnit (s : State) (cls : Nat) (it : Item) (ps : List Place) : State :=
  let last := (ps.getLast?.map fun q => coreOf q.slot).getD 0
  let n := 16 * min 128 (meshSize s it.vi)
  let s1 := if it.again.isEmpty then dispatchFirst s it ps else dispatchAgain s it ps
  let s2 := s1.modVi it.vi fun v =>
    { v with place := (last + 1 - 16 * meshBase s it.vi) % n, turn := v.turn.set cls it.l.id }
  { s2 with turn := s2.turn.set cls ((it.vi + 1) % 64), kept := s2.kept.filter (fun k => k.2 != (it.vi, it.l.id)),
            aims := s2.aims.filter fun a => !(a.1 == it.vi && a.2.1 == it.l.id) }

/-- What an action does, when it is a re-dispatch or when it is none. -/
def act (s : State) (again : Bool) (a : Action) : State :=
  match a with
  | .place cls gain it ps => if again == it.again.isEmpty then s else placeUnit (replenishAll s gain) cls it ps
  | .gain vis => if again then s else replenishAll s vis
  | .request ns keep aim =>
    if again then s
    else
      let s0 := ns.foldl (fun t n => t.modSlot n fun x => { x with preReq := runsTask x }) s
      let s1 := match aim with
        | some a => { s0 with aims := (s0.aims.filter fun b => !(b.1 == a.1 && b.2.1 == a.2.1)) ++ [a] }
        | none => s0
      match keep with
      | none => s1
      | some l => { s1 with kept := s1.kept ++ (distinct (ns.map coreOf)).map fun c => (c, l) }
  | .budget vi id fold => if again then s else setBudget s vi id fold

/-- A scheduling step. -/
def schedule (again : Bool) (pick : Nat) (s : State) : State :=
  match nextAction s pick with
  | some a => act s again a
  | none => s

/-- TASK_DISPATCH (R332 to R338): `pick` chooses among the tasks of a group (02 R28). -/
def execTaskDispatch (pick : Nat) (s : State) := event (schedule false pick) s

/-- TASK_REDISPATCH (R337; 20 R305). -/
def execTaskRedispatch (pick : Nat) (s : State) := event (schedule true pick) s

end Sys2Proof.Machine
end

