-- ==== Sys2Proof/Machine/Link.lean ====
section
/-!
DEFINITION. The links of the fabric (24 R340, R343, R344), the loss of a node (20 R312), the announcement of SC operations
(18 R282), and what memory and the host do to it (08 R154; 16 R265).

Readings and choices of the model (log): DEDUCED 69, 78, 129, 131, 132, 133, 134, 135, 136, 152, 153, 156.
-/

namespace Sys2Proof.Machine

open Sys2Proof

/-! ### Ports -/

/-- PMIN_APPLY (24 R344): a new MIN takes effect once the pool has fewer buffers in use than its new size. -/
def pminApply (p : Nat) (s : State) : State :=
  let q := s.port p
  if q.minNow ≠ q.pmin ∧ poolUse s q.rx (q.minNow + 1) < poolSize s (q.pmin + 1) then s.modPort p fun x => { x with minNow := x.pmin }
  else s

/-- PMIN_APPLY (24 R344). -/
def execPminApply (port : Nat) (s : State) := event (pminApply port) s

/-- Sequence numbers that a receiver has taken already: the 2048 before the one that it expects. -/
def oldSeq (expected seq : Nat) : Bool :=
  let d := (expected + 4096 - seq % 4096) % 4096
  decide (1 ≤ d) && decide (d ≤ 2048)

/-- The replay buffer once every flit before `seq` is known to have arrived (24 R343). -/
def ackedBuf (buf : List Flit) (seq : Nat) : List Flit := buf.filter fun f => !oldSeq seq f.seq

/-- The message that a flit completes: a request joins its ingress queue (24 R346). Answers of class S reach their slots as the
arguments of the steps that take them. -/
def acceptMessage (s : State) (p : Nat) (m : Option Packet) : State :=
  match m with
  | none => s
  | some m => if m.cls = 2 then s else toIngress (s.modPort p fun q => { q with rx := q.rx ++ [m] }) m

/-- FLIT_RECEIVE (24 R343): a flit in its turn is taken; one that comes again is discarded; any other is discarded and asks for
a replay. While a replay is pending, whether a discarded flit is one that was sent before the request or is found in the replay itself is a
free value (log 153). -/
def flitReceive (p : Nat) (f : Flit) (s : State) : State :=
  let q := s.port p
  if portUp s p = false then s
  else if f.crcOk ∧ f.seq % 4096 = q.rxSeq then
    let buf1 := match f.ack with
      | some a => ackedBuf q.buf ((a + 1) % 4096)
      | none => q.buf
    let buf2 := match f.replay with
      | some r => ackedBuf buf1 r
      | none => buf1
    flushPort (acceptMessage (s.modPort p fun x => { x with rxSeq := (x.rxSeq + 1) % 4096, replay := false, buf := buf2 }) p f.packet) p
  else if f.crcOk ∧ oldSeq q.rxSeq f.seq = true then s
  else
    let ask := fun (t : State) => t.modPort p fun x => { x with replay := true, replays := (x.replays + 1) % 2 ^ 32 }
    if q.replay then
      let (w, t) := draw s
      if bit w.toNat 0 then ask t else t
    else ask s

/-- FLIT_RECEIVE (24 R343). -/
def execFlitReceive (port : Nat) (flit : Flit) (s : State) := event (flitReceive port flit) s

/-- LINK_REPLAY (24 R343): the flits of the replay buffer are sent again, in order; `failed` is 0, or the place in the buffer, from 1 on, of
the flit whose replay fails. After the sixteenth failure of one flit in a row the port goes down. -/
def linkReplay (p failed : Nat) (s : State) : State :=
  if portUp s p = false ∨ (s.port p).buf = [] then s
  else if failed = 0 then s.modPort p fun q => { q with fails := 0 }
  else match (s.port p).buf[failed - 1]? with
    | none => s
    | some f => s.modPort p fun q =>
        let k := (if q.failSeq = f.seq then q.fails else 0) + 1
        { q with fails := k, failSeq := f.seq, down := decide (16 ≤ k) }

/-- LINK_REPLAY (24 R343). -/
def execLinkReplay (port failed : Nat) (s : State) := event (linkReplay port failed) s

/-- The peer of a port has freed the receive buffers of one of its messages: their credits return (24 R344). -/
def creditReturn (p i : Nat) (s : State) : State := flushPort (s.modPort p fun q => { q with out := q.out.eraseIdx i }) p

/-- The link of a port finds the node that is attached directly, or 0xFFF for a switch (24 R344 PEER). -/
def attach (p node : Nat) (s : State) : State := if 18 ≤ p then s else s.modPort p fun q => { q with peer := node % 4096 }

/-- PORT_TRAINED (24 R340): all eight lanes have trained, and the port's dies are out of C3. -/
def portTrained (p : Nat) (s : State) : State :=
  if 18 ≤ p ∨ (portDies p).any (fun d => (s.die d).off) = true then s
  else s.modPort p fun q => { q with lanes := List.range 8, down := false, fails := 0 }

/-- PORT_TRAINED (24 R340). -/
def execPortTrained (port : Nat) (s : State) := event (portTrained port) s

/-- The port of lane `l` of die `d`, and the lane's place in it (01 R14). -/
def laneOf (d l : Nat) : Nat × Nat := if l < 32 then (4 * d + l / 8, l % 8) else (16 + d / 2, d % 2 * 4 + (l - 32))

/-- A lane's training is lost (24 R340): its port has fewer than eight. -/
def laneTrainingLost (d l : Nat) (s : State) : State :=
  if 4 ≤ d ∨ 36 ≤ l then s
  else
    let (p, i) := laneOf d l
    s.modPort p fun q => { q with lanes := q.lanes.filter (· != i) }

/-- LANE_TRAINING_LOST (24 R340). -/
def execLaneTrainingLost (die lane : Nat) (s : State) := event (laneTrainingLost die lane) s

/-! ### The loss of a node -/

/-- What a slot keeps of its stores and appends to a lost node (20 R312; 08 R167): an error in each batch with a member that is on its
way, the status PEER_LOST of each append. -/
def loseNode (x : Slot) (node : Nat) : Slot :=
  { x with
    batches := x.batches.map fun b => b.lose node x.sent
    closes := x.closes.map fun c => { c with batch := c.batch.lose node x.sent }
    sent := x.sent.filter fun e => e.node != node
    appends := x.appends.map fun a => if a.node == node && a.status.isNone then { a with status := some 3, pkt := none } else a }

/-- An access of slot `n` in flight to a lost node raises PEER_LOST (20 R312); an offer of an event homed there resolves BROKEN
(10 R186); appends that waited for stores to it leave. -/
def loseSlot (s : State) (n node : Nat) : State :=
  let s1 := flushAppends (s.modSlot n fun x => loseNode x node) n
  let s2 := match (s1.slot n).st with
    | .interlocked (.remote i asks) =>
      (match asks.find? fun q => q.node == node with
       | some q => takeTrap s1 n (remoteFault s1 n i 0x0F q 0)
       | none => s1)
    | _ => s1
  ([(s2.slot n).offer, (s2.slot n).stand].filterMap id).foldl (fun t o =>
    match o.pos.find? fun p => p.ev.home == 1000 + node with
    | some p => completeOffer (sendWithdraw t n o) n o.id p.pos 1
    | none => t) s2

/-- The events of this node that have a party on a lost node break, the claims on its offer units fail (20 R312). -/
def loseParties (s : State) (node : Nat) : State :=
  let far := fun (p : Nat) => bits p 24 13 == node
  let s1 := ((s.home 132).tries.filter fun y => y.asked.any far).foldl (fun t y => failAttempt t 132 y.idx y.side false) s
  { s1 with homes := s1.homes.map fun (e : Nat × Resolver) =>
      (e.1, { e.2 with
        evs := e.2.evs.map fun (v : Nat × Ev) => if v.2.live && v.2.parties.any far then (v.1, { v.2 with broken := true }) else v
        regs := e.2.regs.filter fun g => !far g.party }) }

/-- NODE_LOSS (20 R312; 24 R342). -/
def nodeLoss (node : Nat) (s : State) : State :=
  if node = s.node ∨ 4096 ≤ node then s
  else
    let s1 := { s with routes := s.routes.set node ((s.routes.get node 0) &&& 0x7FFFFFFFFFFFFFFF) }
    let s2 := s1.slots.foldl (fun t (e : Nat × Slot) => loseSlot t e.1 node) s1
    let s3 := { s2 with pre := s2.pre.map fun e => { e with slot := loseNode e.slot node } }
    loseParties s3 node

/-- NODE_LOSS (20 R312). -/
def execNodeLoss (node : Nat) (s : State) := event (nodeLoss node) s

/-- A node resets: it is lost, and a new epoch of it begins (20 R312; 25 R369). -/
def nodeReset (node : Nat) (s : State) : State :=
  if node = s.node ∨ 4096 ≤ node then s
  else
    let t := nodeLoss node s
    { t with epochs := t.epochs.set node (t.epochs.get node 0 + 1) }

/-! ### Others -/

/-- SC_ANNOUNCEMENT (18 R282): the operations of window `w` are delivered to every agent 96 ticks after the window started. -/
def scAnnouncement (w : Nat) (s : State) : State :=
  if 64 * w + 96 ≤ s.time then { s with sc := s.sc.filter fun e => e.window != w } else s

/-- SC_ANNOUNCEMENT (18 R282). -/
def execScAnnouncement (w : Nat) (s : State) := event (scAnnouncement w) s

/-- UNCORRECTABLE_ERROR (08 R154): the 64-byte granule is poisoned. -/
def uncorrectableError (g : Nat) (s : State) : State :=
  if s.poison.contains g then s else { s with poison := insertNat g s.poison }

/-- UNCORRECTABLE_ERROR (08 R154). -/
def execUncorrectableError (granule : Nat) (s : State) := event (uncorrectableError granule) s

/-- HOST_MEMORY_WRITE (16 R265): one transaction-layer packet of at most 512 bytes (24 R352) is performed in device memory. -/
def hostMemoryWrite (addr : Nat) (data : List Nat) (s : State) : State :=
  if 2 ^ 52 < addr + data.length ∨ 512 < data.length then s
  else
    let cells := (List.range data.length).map (addr + ·)
    hostPacket s cells data

/-- HOST_MEMORY_WRITE (16 R265). -/
def execHostMemoryWrite (addr : Nat) (data : List Nat) (s : State) := event (hostMemoryWrite addr data) s

end Sys2Proof.Machine
end

