-- ==== Sys2Proof/Machine/Device.lean ====
section
/-!
DEFINITION. The registers of the host port (22 R321, R330; 24 R342, R344, R347, R353, R354, R357, R360, R364), translation invalidation
(20 R310, R311), attestation and cold reset (24 R367, R368), function level reset (24 R355), power (24 R365, R366).

Readings and choices of the model (log): DESIGN CHOICE 22, 84, 124; DEDUCED 43, 83, 103, 117, 118, 123, 125, 126, 127,
128, 129, 130, 166, 168, 169.
-/

namespace Sys2Proof.Machine

open Sys2Proof

/-! ### Tenants and dies -/

/-- A write of TENCFG (22 R330): a tenant that is enabled keeps its sub-mesh; the first write that enables it creates its virtual interface
and with it the root node (16 R263). A write with EN 1 and a misaligned BASE, or with a WEIGHT of 0, is ignored. -/
def tencfgWrite (vi x : Nat) (s : State) : State :=
  let old := (s.vif vi).tencfg.toNat
  if 64 ≤ vi then s
  else if (bit x 63 ∧ bits x 6 0 % 2 ^ bits x 10 8 ≠ 0) ∨ bits x 55 40 = 0 then s
  else
    let mesh := if bit old 63 then old else x
    let new := keepBits x 63 62 + keepBits x 55 40 + keepBits mesh 10 8 + keepBits mesh 6 0
    let s1 := s.modVi vi fun v => { v with tencfg := BitVec.ofNat 64 new, made := v.made || bit x 63 }
    if bit x 63 ∧ (s.vif vi).made = false then writeNode s1 vi 0 (nodeWordOf 0 0 true false true) 0 0 else s1

/-- TENCFG_WRITE (22 R330). -/
def execTencfgWrite (vi x : Nat) (s : State) := event (tencfgWrite vi (x % 2 ^ 64)) s

/-- MSCR_WRITE (08 R141). -/
def execMscrWrite (die x : Nat) (s : State) := event (fun t => if 4 ≤ die then t else writeMscr t die (BitVec.ofNat 64 x)) s

/-- ATOMFLAGS_CLEAR (20 R296). -/
def execAtomflagsClear (die vi x : Nat) (s : State) :=
  event (fun t => if 4 ≤ die ∨ 64 ≤ vi then t else clearAtomFlags t die vi x) s

/-! ### Sumac registers -/

/-- The slot of the Sumac core that SMSEL selects, and the register's number (24 R354). A register of a slot is that of T0. -/
def smSelected (s : State) : Nat × Nat :=
  let w := s.smsel.toNat
  (4 * (2080 + 4 * bits w 13 12 + bits w 9 8), bits w 5 0)

/-- SMDATA_WRITE (24 R354): with WR 1 it writes the selected register as a CSRW of that core would. -/
def smdataWrite (x : Nat) (s : State) : State :=
  let (n, num) := smSelected s
  if bit s.smsel.toNat 63 ∧ 0x10 ≤ num ∧ (csrRead s n num).isSome then csrWrite s n num (BitVec.ofNat 64 x) else s

/-- SMDATA_WRITE (24 R354). -/
def execSmdataWrite (x : Nat) (s : State) := event (smdataWrite x) s

/-- The register that SMSEL selects, as a CSRR of that core reads it (24 R354). -/
def smdataValue (s : State) : Nat :=
  let (n, num) := smSelected s
  if 0x10 ≤ num then ((csrRead s n num).getD 0).toNat else 0

/-- SMDATA_READ (24 R354): the value read is what `hostRead` holds. -/
def smdataRead (s : State) : State := { s with hostRead := BitVec.ofNat 64 (smdataValue s) }

/-- SMDATA_READ (24 R354). -/
def execSmdataRead (s : State) := event smdataRead s

/-! ### Register writes -/

/-- A write that enables a queue with LOG2N of 0 or above 12 is ignored (22 R321). Until the firmware has been verified every queue
stays disabled (24 R367). -/
def queueCtl (s : State) (old : Word) (x : Nat) : Word :=
  if bit x 63 ∧ (bits x 3 0 = 0 ∨ 12 < bits x 3 0 ∨ s.booted = false) then old else BitVec.ofNat 64 (keepBits x 63 63 + x % 16)

/-- A write to the register page of VI `vi` (22 R321; 24 R357). -/
def writePage (s : State) (vi off x : Nat) : State :=
  let w := BitVec.ofNat 64 x
  let q := off / 256
  if off < 0x400 then
    (match off % 256 with
     | 0x00 => modQueue s vi q fun u => { u with base := BitVec.ofNat 64 (keepBits x 63 8) }
     | 0x08 => modQueue s vi q fun u => { u with ctl := queueCtl s u.ctl x }
     | 0x10 => modQueue s vi q fun u => { u with tail := x % 2 ^ 32 }
     | _ => s)
  else if off = 0x400 then s.modVi vi fun v => { v with cqbase := BitVec.ofNat 64 (keepBits x 63 4) }
  else if off = 0x408 then s.modVi vi fun v => { v with cqctl := queueCtl s v.cqctl x }
  else if off = 0x418 then s.modVi vi fun v => { v with cqhead := x % 2 ^ 32 }
  else if off = 0x420 then s.modVi vi fun v => { v with cqie := bit x 0 }
  else if 0x800 ≤ off ∧ off < 0x830 then s.modVi vi fun v => { v with nonce := v.nonce.set ((off - 0x800) / 8) w }
  else if off = 0x830 then s.modVi vi fun v => { v with raddr := w }
  else if off = 0x838 then (if bit x 63 then s.modVi vi fun v => { v with go := true } else s)
  else s

/-- A write to entry `q` of the send queues (24 R360). -/
def writeSendq (s : State) (q j x : Nat) : State :=
  let f := fun (g : SendQ → SendQ) => { s with sendqs := s.sendqs.set q (g (s.sendqs.get q {})) }
  match j with
  | 0 => f fun u => { u with base := BitVec.ofNat 64 x }
  | 1 => f fun u => { u with ctl := BitVec.ofNat 64 (keepBits x 63 63 + keepBits x 37 32 + x % 16) }
  | 2 => f fun u => { u with db := BitVec.ofNat 64 x }
  | _ => s

/-- A write to entry `e` of the endpoints (24 R360). -/
def writeEndpt (s : State) (e j x : Nat) : State :=
  let f := fun (g : Endpt → Endpt) => { s with endpts := s.endpts.set e (g (s.endpts.get e {})) }
  match j with
  | 0 => f fun u => { u with w0 := BitVec.ofNat 64 (keepBits x 63 63 + keepBits x 37 32 + x % 2 ^ 17) }
  | 1 => f fun u => { u with a0 := BitVec.ofNat 64 x }
  | 2 => f fun u => { u with a1 := BitVec.ofNat 64 x }
  | 3 => f fun u => { u with w3 := BitVec.ofNat 64 (x % 2 ^ 32) }
  | _ => s

/-- A write of THERM (24 R364): a one written to TRIPPED clears it, and DIES with it. -/
def thermWord (old x : Nat) : Word :=
  let kept := if bit x 62 then 0 else keepBits old 62 62 + keepBits old 51 48
  BitVec.ofNat 64 (keepBits x 63 63 + kept + keepBits x 15 8 + x % 4)

/-- A write to a power or thermal register (24 R364). -/
def writePower (s : State) (off x : Nat) : State :=
  if off < 0x20 then s.modDie (off / 8) fun d => { d with preq := x % 4 }
  else if 0x40 ≤ off ∧ off < 0x60 then
    s.modDie ((off - 0x40) / 8) fun d => { d with offReq := bit x 0, offErr := d.offErr && !bit x 63, refused := false }
  else if 0x100 ≤ off ∧ off < 0x500 then
    s.modCluster ((off - 0x100) / 8) fun c =>
      { c with req := if x % 4 = 3 then c.req else x % 4, err := c.err && !bit x 63, refused := c.refused && x % 4 == 3 }
  else if off = 0x500 then { s with therm := thermWord s.therm.toNat x }
  else s

/-- A write of 8 bytes at an offset of BAR 0 of the physical function (24 R353), applied by the access codes of 00 R6; the registers
that have a step of their own take that step. -/
def registerWrite (off x : Nat) (s : State) : State :=
  if off % 8 ≠ 0 then s
  else if off < 0x40000 then (if s.booted = false ∧ 0x1000 ≤ off then s else writePage s (off / 0x1000) (off % 0x1000) x)
  else if 0x100000 ≤ off ∧ off < 0x101000 then (if off % 0x40 = 0 then tencfgWrite ((off - 0x100000) / 0x40) x s else s)
  else if off = 0x101000 then { s with quantum := x % 2 ^ 32 }
  else if 0x110000 ≤ off ∧ off < 0x111200 then
    (if off % 0x100 = 8 then s.modPort ((off - 0x110000) / 0x100) fun p => { p with pmin := x % 4 } else s)
  else if 0x112000 ≤ off ∧ off < 0x11A000 then
    { s with routes := s.routes.set ((off - 0x112000) / 8) (BitVec.ofNat 64 (keepBits x 63 63 + x % 2 ^ 18)) }
  else if 0x120000 ≤ off ∧ off < 0x160000 then registrationWrite ((off - 0x120000) / 32) (off % 32 / 8) x s
  else if 0x160000 ≤ off ∧ off < 0x168000 then writeSendq s ((off - 0x160000) / 32) (off % 32 / 8) x
  else if 0x168000 ≤ off ∧ off < 0x188000 then writeEndpt s ((off - 0x168000) / 32) (off % 32 / 8) x
  else if 0x1A0000 ≤ off ∧ off < 0x1A1000 then writePower s (off - 0x1A0000) x
  else if off = 0x1B0000 then { s with smsel := BitVec.ofNat 64 (keepBits x 63 63 + keepBits x 13 12 + keepBits x 9 8 + keepBits x 5 0) }
  else if off = 0x1B0008 then smdataWrite x s
  else s

/-- REGISTER_WRITE (00 R6; 24 R353). -/
def execRegisterWrite (off x : Nat) (s : State) := event (registerWrite off (x % 2 ^ 64)) s

/-! ### Register reads -/

/-- A word of the register page of VI `vi` (22 R321; 24 R357). -/
def pageWord (s : State) (vi off : Nat) : Nat :=
  let v := s.vif vi
  if off < 0x400 then
    let u := v.queues.get (off / 256) {}
    (match off % 256 with
     | 0x00 => u.base.toNat
     | 0x08 => u.ctl.toNat
     | 0x10 => u.tail
     | 0x18 => u.head
     | _ => 0)
  else if off = 0x400 then v.cqbase.toNat
  else if off = 0x408 then v.cqctl.toNat
  else if off = 0x410 then v.cqtail
  else if off = 0x418 then v.cqhead
  else if off = 0x420 then v.cqie.toNat
  else if 0x800 ≤ off ∧ off < 0x830 then (v.nonce.get ((off - 0x800) / 8) 0).toNat
  else if off = 0x830 then v.raddr.toNat
  else if off = 0x838 then v.go.toNat * 2 ^ 63
  else 0

/-- A word of the tenant registers (22 R330): TENCFG, or TENDEF in two's complement. -/
def tenantWord (s : State) (vi j : Nat) : Nat :=
  match j with
  | 0 => (s.vif vi).tencfg.toNat
  | 1 => ((s.vif vi).deficit % 2 ^ 64).toNat
  | _ => 0

/-- A word of the registers of port `p` (24 R344). -/
def portWord (s : State) (p off : Nat) : Nat :=
  let q := s.port p
  match off with
  | 0 => (portUp s p).toNat * 2 ^ 63 + q.replay.toNat * 2 ^ 62 + q.peer % 4096 * 2 ^ 32 + q.replays % 2 ^ 32
  | 8 => q.pmin
  | _ => 0

/-- Word `j` of a registration entry (24 R347). -/
def regnRead (s : State) (i j : Nat) : Nat :=
  let g := s.regn i
  match j with
  | 0 => g.w0.toNat
  | 1 => g.w1.toNat
  | 2 => g.w2.toNat
  | _ => 0

/-- Word `j` of a send queue's entry (24 R360). -/
def sendqWord (s : State) (q j : Nat) : Nat :=
  let u := s.sendqs.get q {}
  match j with
  | 0 => u.base.toNat
  | 1 => u.ctl.toNat
  | 2 => u.db.toNat
  | _ => u.head

/-- Word `j` of an endpoint's entry (24 R360). -/
def endptWord (s : State) (e j : Nat) : Nat :=
  let u := s.endpts.get e {}
  match j with
  | 0 => u.w0.toNat
  | 1 => u.a0.toNat
  | 2 => u.a1.toNat
  | _ => u.w3.toNat

/-- A word of the power and thermal registers (24 R364). -/
def powerWord (s : State) (off : Nat) : Nat :=
  let d := s.die (off % 0x40 / 8)
  let c := s.cluster ((off - 0x100) / 8)
  if off < 0x20 then d.pcur * 2 ^ 8 + d.preq
  else if 0x40 ≤ off ∧ off < 0x60 then d.offErr.toNat * 2 ^ 63 + d.off.toNat * 2 + d.offReq.toNat
  else if 0x100 ≤ off ∧ off < 0x500 then c.err.toNat * 2 ^ 63 + c.cur * 2 ^ 8 + c.req
  else if off = 0x500 then s.therm.toNat
  else if 0x508 ≤ off ∧ off < 0x528 then (s.die ((off - 0x508) / 8)).temp
  else 0

/-- The 8 bytes that a host read at an offset of BAR 0 of the physical function returns (24 R353); elsewhere they are zero. BAR 0 of virtual
function `n` is page `n`. -/
def registerRead (s : State) (off : Nat) : Nat :=
  if off % 8 ≠ 0 then 0
  else if off < 0x40000 then pageWord s (off / 0x1000) (off % 0x1000)
  else if 0x100000 ≤ off ∧ off < 0x101000 then tenantWord s ((off - 0x100000) / 0x40) (off % 0x40 / 8)
  else if off = 0x101000 then s.quantum
  else if 0x110000 ≤ off ∧ off < 0x111200 then portWord s ((off - 0x110000) / 0x100) (off % 0x100)
  else if 0x112000 ≤ off ∧ off < 0x11A000 then (s.routes.get ((off - 0x112000) / 8) 0).toNat
  else if 0x120000 ≤ off ∧ off < 0x160000 then regnRead s ((off - 0x120000) / 32) (off % 32 / 8)
  else if 0x160000 ≤ off ∧ off < 0x168000 then sendqWord s ((off - 0x160000) / 32) (off % 32 / 8)
  else if 0x168000 ≤ off ∧ off < 0x188000 then endptWord s ((off - 0x168000) / 32) (off % 32 / 8)
  else if 0x1A0000 ≤ off ∧ off < 0x1A1000 then powerWord s (off - 0x1A0000)
  else if off = 0x1B0000 then s.smsel.toNat
  else if off = 0x1B0008 then smdataValue s
  else 0

/-- A host read of BAR 0 (24 R353): the value read is what `hostRead` holds. -/
def barRead (off : Nat) (s : State) : State := { s with hostRead := BitVec.ofNat 64 (registerRead s off) }

/-- An AER error of function `vi` (24 R356). -/
def aerError (vi : Nat) (s : State) : State := if vi < 64 then { s with irqs := s.irqs ++ [(vi, 3)] } else s

/-! ### Translation invalidation -/

/-- An invalidation command as it acts (20 R310): 0 range, 1 whole address space, 2 every address space; its VI, start, length; and
whether it is malformed. -/
def invalidation (w : Nat) : Nat × Nat × Nat × Nat × Bool :=
  let h := dword w 0
  let vi := bits h 13 8
  let start := dword w 1
  let len := dword w 2
  let op := bits h 7 0
  let viBad := bits h 15 14 ≠ 0
  let bad := viBad ∨ bits h 63 18 ≠ 0 ∨ 2 < op ∨ dword w 3 ≠ 0 ∨ start % 2 ^ 16 ≠ 0 ∨ len % 2 ^ 16 ≠ 0 ∨ (op = 0 ∧ len = 0)
  if viBad then (2, vi, start, len, true) else if bad then (1, vi, start, len, true) else (op, vi, start, len, false)

/-- What an invalidation takes out of the TLBs, the instruction caches and the ingress translator (20 R311). -/
def invalidate (s : State) (op vi start len : Nat) : State :=
  let hit := fun (v a n : Nat) =>
    op == 2 || (v == vi && (op == 1 || (decide (a < start + len) && decide (start < a + n))))
  { s with
    tlb := s.tlb.filter fun l => !hit l.vi l.base l.size
    icache := s.icache.filter fun e => !hit e.vi e.addr 4 }

/-- The next command of the invalidation queue, when it acts as `op` (20 R310): it is broadcast, and awaits its acknowledgement. -/
def invalidateStep (op : Nat) (s : State) : State :=
  let cmd := (List.range 32).map (s.invq.toNat + 32 * (s.invack % 64) + ·)
  if s.inval.isSome ∨ s.invdb = s.invack ∨ asleep s cmd = true then s
  else
    let (o, vi, start, len, bad) := invalidation (s.raw (s.invq.toNat + 32 * (s.invack % 64)) 32)
    if o ≠ op then s
    else { invalidate s o vi start len with inval := some (o, vi, start, len), inverr := s.inverr || bad }

/-- INVALIDATE_RANGE (20 R311). -/
def execInvalidateRange (s : State) := event (invalidateStep 0) s

/-- INVALIDATE_SPACE (20 R311). -/
def execInvalidateSpace (s : State) := event (invalidateStep 1) s

/-- INVALIDATE_ALL (20 R311). -/
def execInvalidateAll (s : State) := event (invalidateStep 2) s

/-- The addresses of a slot's accesses that have been translated and not yet performed: stores that wait, summary and status words. -/
def translatedAt (x : Slot) : List Nat :=
  (x.sb.flatMap fun e => e.addr :: e.parts) ++ x.closes.map (·.addr) ++ x.appends.map (·.addr)

/-- Whether such an access of tenant `v` may lie in what an invalidation covers; an access is at most 128 bytes long. -/
def stillCovered (op vi start len v : Nat) (x : Slot) : Bool :=
  (op == 2 || v == vi) && (translatedAt x).any fun a =>
    let o := a % 2 ^ 52
    decide (o < winBase) && (op != 0 || (decide (o < start + len) && decide (start < o + 128)))

/-- INVALIDATION_ACK (20 R311): acknowledged once no access that was translated before is still under way; what a covered entry was taken
again for since the broadcast goes too. -/
def invalidationAck (s : State) : State :=
  match s.inval with
  | none => s
  | some (op, vi, start, len) =>
    if (s.slots.any fun (e : Nat × Slot) => stillCovered op vi start len e.2.vi e.2) ||
        (s.pre.any fun e => stillCovered op vi start len e.slot.vi e.slot) then s
    else { invalidate s op vi start len with inval := none, invack := inc32 s.invack }

/-- INVALIDATION_ACK (20 R311). -/
def execInvalidationAck (s : State) := event invalidationAck s

/-! ### Attestation and cold reset -/

/-- Bytes of a number, most significant first. -/
def bytesBig (n x : Nat) : List Nat := (bytesOf n x).reverse

/-- Bytes 0 to 255 of a report (24 R368). -/
def reportBytes (s : State) (vi : Nat) : List Nat :=
  let v := s.vif vi
  bytesOf 4 1 ++ bytesOf 4 vi ++ bytesOf 8 v.tencfg.toNat ++
    ((List.range 6).flatMap fun j => bytesOf 8 (v.nonce.get j 0).toNat) ++
    ((List.range 3).flatMap fun i => bytesBig 48 (Config.digest i).toNat) ++
    ((List.range 3).flatMap fun i => bytesOf 4 (Config.imageVersion i).toNat) ++ List.replicate 36 0

/-- ATTESTATION_REPORT (24 R368): the report is written to RADDR, and vector 2 is signalled (R356). -/
def attestationReport (vi : Nat) (s : State) : State :=
  let v := s.vif vi
  if v.go = false then s
  else
    let body := reportBytes s vi
    let (r, g) := Config.signature body
    let lo := hostBase + bits v.raddr.toNat 63 6 * 64
    let s1 := putBytes s lo (body ++ bytesBig 48 r.toNat ++ bytesBig 48 g.toNat ++ List.replicate 160 0)
    { s1.modVi vi fun y => { y with go := false } with irqs := s1.irqs ++ (0, 2) :: if vi = 0 then [] else [(vi, 2)] }

/-- ATTESTATION_REPORT (24 R368). -/
def execAttestationReport (vi : Nat) (s : State) := event (attestationReport vi) s

/-- Whether the images pass (24 R367): their signatures, as `verified` says, and their versions. -/
def imagesPass (verified : Nat) : Bool :=
  decide (verified ≠ 0) && (List.range 3).all fun i => decide (Config.minVersion ≤ Config.imageVersion i)

/-- The package after a cold reset (24 R367): host memory is no part of it; its node id is its own; no free value is drawn twice. -/
def resetPackage (verified : Nat) (s : State) : State :=
  { State.reset with
    node := s.node
    mem := s.mem.filter fun e => isHost e.1
    fresh := s.fresh
    agenda := s.agenda
    late := s.late
    hold := s.hold
    booted := imagesPass verified }

/-- PACKAGE_RESET (24 R367). -/
def execPackageReset (verified : Nat) (s : State) := event (resetPackage verified) s

/-! ### Function level reset -/

/-- The event that a name of a task of tenant `vi` means breaks; its home on another node is told (10 R186). -/
def breakNamed (s : State) (n vi nm : Nat) : State :=
  let r := refInView s (meshBase s vi) (min 128 (meshSize s vi)) nm
  if nm = 0 then s
  else if r.away then (transmit s ⟨5, 9, r.home - 1000, agentId s n, vi, 0, 0, r.idx, 8, 0, nm, 0⟩).getD s
  else breakEv s r

/-- A pre-empted task ends with a fatal fault (20 R300): its record is posted, its events break, its engine offers end, its launch
counts it. -/
def endAway (s : State) (e : Pre) (k : Task) (code : Nat) : State :=
  let r : FaultRec := ⟨e.home, k.vi, (e.slot.dorm.map (·.entry)).getD e.slot.pc, 0, raise code⟩
  let s1 := if queued s (dieOfSlot e.home) < 256 then post s r else stopPartition s k.vi true code (agentId s e.home)
  let s2 := e.slot.evb.foldl (fun t b => breakNamed t e.home k.vi b.2) s1
  let gone := fun (p : Nat) => p / 2 ^ 32 == e.order + 1
  let s3 := { s2 with
    pre := s2.pre.filter fun f => !(f.out && f.order == e.order)
    msgs := s2.msgs.filter fun m => match m.body with
      | .engine p _ _ => !gone p
      | _ => true
    homes := s2.homes.map fun (h : Nat × Resolver) =>
      (h.1, { h.2 with
        regs := h.2.regs.filter fun g => !gone g.party
        evs := h.2.evs.map fun (v : Nat × Ev) =>
          if v.2.live && v.2.parties.any gone then (v.1, { v.2 with broken := true }) else v })
    launches := s2.launches.map fun (l : Nat × Launch) =>
      if l.2.src == 1 && l.2.srcSlot == awaySlot e.order then (l.1, { l.2 with srcEv := none }) else l
    clusters := s2.clusters.map fun (c : Nat × Cluster) =>
      (c.1, { c.2 with copies := c.2.copies.map fun (q : Nat × List CpCmd) =>
        (q.1, q.2.filter fun m => m.slot != awaySlot e.order) }) }
  let s4 := s3.modVi k.vi fun v => { v with spill := v.spill.filter fun i => i.1 != e.order }
  accountEnd s4 e.home { k with used := k.used, from_ := slotCycles s4 e.home } true

/-- Every task of a VI ends with a fatal fault (24 R355). -/
def endTenant (s : State) (vi : Nat) : State :=
  let s1 := s.slots.foldl (fun t (e : Nat × Slot) =>
    if runsTask (t.slot e.1) && (t.slot e.1).task.any fun k => k.vi == vi then
      fatalFault t e.1 (faultRec t e.1 (raise 0x0D)) else t) s
  s1.pre.foldl (fun t e =>
    match e.slot.task with
    | some k => if e.out && k.vi == vi && e.slot.st != .lingering then endAway t e k 0x0D
        else if e.out && k.vi == vi then { t with pre := t.pre.filter fun f => !(f.out && f.order == e.order) } else t
    | none => t) s1

/-- The launches of a VI are gone, and what they leave is freed; nothing is posted. -/
def dropLaunches (s : State) (vi : Nat) : State :=
  let ids := (s.launches.filter fun e => e.1 == vi).map fun e => e.2.id
  let s1 := ids.foldl (fun t i => freeLaunch (unbindRing (dropReserved t vi i) vi i) vi i) s
  { s1 with launches := s1.launches.filter fun e => e.1 != vi }

/-- The PERSIST events of a VI are freed (10 R172). -/
def freePersistent (s : State) (vi : Nat) : State :=
  s.homes.foldl (fun t (h : Nat × Resolver) =>
    h.2.evs.foldl (fun u (v : Nat × Ev) =>
      if v.2.live && v.2.persist && v.2.vi == vi && v.2.barrier.isNone && !(128 ≤ h.1 && h.1 < 132 && v.1 < 48)
      then freeEv u ⟨h.1, v.1, v.2.gen⟩ else u) t) s

/-- FUNCTION_LEVEL_RESET (24 R355): VI `vi` is destroyed, on the other nodes too (10 R172), and its spilled items are gone; the physical
function resets the package, whose images were verified when it was last reset cold. -/
def functionLevelReset (vi : Nat) (s : State) : State :=
  if 64 ≤ vi then s
  else if vi = 0 then { resetPackage 1 s with booted := s.booted }
  else
    let s1 := s.modVi vi fun v =>
      { v with
        tencfg := v.tencfg &&& 0x7FFFFFFFFFFFFFFF
        queues := [], rotq := 0, cqbase := 0, cqctl := 0, cqtail := 0, cqhead := 0, cqie := false, waiting := []
        nonce := [], raddr := 0, go := false, made := false }
    let s2 := (s1.launches.filter fun e => e.1 == vi).foldl (fun t e => unbindRing t vi e.2.id) s1
    let s3 := freeFarChans (freePersistent (dropLaunches (endTenant s2 vi) vi) vi) fun f => f.vi == vi
    let s4 := (broadcast s3 (devicePacket s3 14 0 vi)).modVi vi fun v => { v with spill := [] }
    { s4 with
      regns := s4.regns.map fun (e : Nat × Regn) =>
        if e.2.vi == vi then (e.1, { e.2 with w1 := e.2.w1 &&& 0x7FFFFFFFFFFFFFFF }) else e
      sendqs := s4.sendqs.map fun (e : Nat × SendQ) =>
        if bits e.2.ctl.toNat 37 32 == vi then (e.1, { e.2 with ctl := e.2.ctl &&& 0x7FFFFFFFFFFFFFFF }) else e }

/-- FUNCTION_LEVEL_RESET (24 R355). -/
def execFunctionLevelReset (vi : Nat) (s : State) := event (functionLevelReset vi) s

/-! ### Power -/

/-- The P-state that a request stands for (24 R366): while TRIPPED is 1, one below TRIPP acts as TRIPP. -/
def wantedP (s : State) (d : Nat) : Nat :=
  let w := s.therm.toNat
  let q := (s.die d).preq
  if bit w 62 ∧ q < bits w 1 0 then bits w 1 0 else q

/-- PSTATE_REQUEST (24 R365). -/
def pstateRequest (d : Nat) (s : State) : State := if 4 ≤ d then s else s.modDie d fun x => { x with pcur := wantedP s d }

/-- PSTATE_REQUEST (24 R365). -/
def execPstateRequest (die : Nat) (s : State) := event (pstateRequest die) s

/-- CSTATE_C0 (24 R365): the resolver starts again with pointer 0; after C2 the lease pointer is 63 (12 R204), as the lost lease is. -/
def cstateC0 (p : Nat) (s : State) : State :=
  let c := s.cluster p
  if 128 ≤ p ∨ c.req ≠ 0 ∨ c.cur = 0 ∨ (s.die (p / 32)).off = true then s
  else unpark ((s.modCluster p fun x => { x with cur := 0, woke := s.time }).modHome p fun r => { r with ptr := 0 })

/-- CSTATE_C0 (24 R365). -/
def execCstateC0 (cl : Nat) (s : State) := event (cstateC0 cl) s

/-- CSTATE_C1 (24 R365): the clock stops; from C2 the power comes back. -/
def cstateC1 (p : Nat) (s : State) : State :=
  let c := s.cluster p
  if 128 ≤ p ∨ c.req ≠ 1 ∨ c.cur = 1 ∨ (s.die (p / 32)).off = true then s else s.modCluster p fun x => { x with cur := 1 }

/-- CSTATE_C1 (24 R365). -/
def execCstateC1 (cl : Nat) (s : State) := event (cstateC1 cl) s

/-- Whether C2 is refused for cluster `p` (24 R365). -/
def refusesC2 (s : State) (p : Nat) : Bool :=
  let c := s.cluster p
  ((List.range 64).any fun j => match (s.slot (64 * p + j)).st with
    | .free => false
    | .reserved _ _ _ _ _ => false
    | _ => true) ||
    !c.mx.isEmpty || (c.copies.any fun (q : Nat × List CpCmd) => !q.2.isEmpty) ||
    (c.rings.any fun (r : Nat × Ring) => r.2.kind != 0) || (s.home p).evs.any fun v => v.2.live

/-- CSTATE_C2 (24 R365): refused, which ends the request, or Tarn, accumulators, rings and resolver contents are lost. -/
def cstateC2 (p : Nat) (s : State) : State :=
  let c := s.cluster p
  if 128 ≤ p ∨ c.req ≠ 2 ∨ c.cur = 2 ∨ c.refused = true then s
  else if refusesC2 s p then s.modCluster p fun x => { x with err := true, refused := true }
  else
    let s1 := clearRange (clearRange s (tarnBase p) (2 ^ 22)) (accBase p 0) (2 ^ 18)
    (s1.modCluster p fun x => { x with cur := 2, lease := {}, rings := [], chans := [], far := [], mrb := [] }).modHome p fun _ => {}

/-- CSTATE_C2 (24 R365). -/
def execCstateC2 (cl : Nat) (s : State) := event (cstateC2 cl) s

/-- Whether C3 is refused for die `d` (24 R365). The events that the device itself makes at reset are none that EVNEW made live
(10 R172) and do not count. -/
def refusesC3 (s : State) (d : Nat) : Bool :=
  ((List.range 32).any fun j => (s.cluster (32 * d + j)).cur != 2) ||
    (s.home (128 + d)).evs.any fun v => v.2.live && decide (48 ≤ v.1)

/-- The lanes of die `d` gone from its ports (24 R340). -/
def dropLanes (s : State) (d : Nat) : State := (List.range 36).foldl (fun t l => laneTrainingLost d l t) s

/-- DIE_C3 (24 R365): refused, which ends the request, or every part of the die is off; its Mere scratch is lost, its ports go down (R340). -/
def dieC3 (d : Nat) (s : State) : State :=
  let x := s.die d
  if 4 ≤ d ∨ x.offReq = false ∨ x.off = true ∨ x.refused = true then s
  else if refusesC3 s d then s.modDie d fun y => { y with offErr := true, refused := true }
  else (dropLanes (clearRange s (mereBase d) (2 ^ 27)) d).modDie d fun y => { y with off := true }

/-- DIE_C3 (24 R365). -/
def execDieC3 (die : Nat) (s : State) := event (dieC3 die) s

/-- DIE_C0 (24 R365). -/
def dieC0 (d : Nat) (s : State) : State :=
  let x := s.die d
  if 4 ≤ d ∨ x.offReq = true ∨ x.off = false then s
  else unpark ((s.modDie d fun y => { y with off := false }).modHome (128 + d) fun r => { r with ptr := 0 })

/-- DIE_C0 (24 R365). -/
def execDieC0 (die : Nat) (s : State) := event (dieC0 die) s

/-- THERMAL_TRIP (24 R366): the hottest sensor of die `d` reads `t`; at TEMPC the die enters TRIPP. -/
def thermalTrip (d t : Nat) (s : State) : State :=
  let w := s.therm.toNat
  if 4 ≤ d ∨ (s.die d).off = true then s
  else
    let s1 := s.modDie d fun x => { x with temp := t % 256 }
    if bit w 63 ∧ bits w 15 8 ≤ t % 256 ∧ (s.die d).pcur < bits w 1 0 then
      { s1.modDie d fun x => { x with pcur := bits w 1 0 } with
        therm := s.therm ||| BitVec.ofNat 64 (2 ^ 62 + 2 ^ (48 + d)), irqs := s.irqs ++ [(0, 1)] }
    else s1

/-- THERMAL_TRIP (24 R366). -/
def execThermalTrip (die t : Nat) (s : State) := event (thermalTrip die t) s

/-- THERMAL_SHUTDOWN (24 R366): at TEMPC + 15 °C the package loses its power. -/
def thermalShutdown (d t : Nat) (s : State) : State :=
  if 4 ≤ d ∨ t < bits s.therm.toNat 15 8 + 15 then s else { s with power := false }

/-- THERMAL_SHUTDOWN (24 R366). -/
def execThermalShutdown (die t : Nat) (s : State) := event (thermalShutdown die t) s

end Sys2Proof.Machine
end

