-- ==== Sys2Proof/Machine/Ether.lean ====
section
/-!
DEFINITION. The Ultra Ethernet engine (24 R358 to R363). What it sends to peers stands in `ueOut`; what peers answer comes as the
arguments of the steps.

Readings and choices of the model (log): DESIGN CHOICE 23, 138; DEDUCED 139, 167.
-/

namespace Sys2Proof.Machine

open Sys2Proof

/-! ### Send queues -/

/-- Send queue `q`. -/
def sendQ (s : State) (q : Nat) : SendQ := s.sendqs.get q {}

/-- Send queue `q` changed. -/
def modSendQ (s : State) (q : Nat) (f : SendQ → SendQ) : State := { s with sendqs := s.sendqs.set q (f (sendQ s q)) }

/-- The owner of a send queue. -/
def SendQ.vi (u : SendQ) : Nat := bits u.ctl.toNat 37 32

/-- The cells of `n` bytes at an offset of a VI's Mere window on die 0 (R360; 08 R141). -/
def ueCells (s : State) (vi off n : Nat) : Option (List Nat) := (List.range n).mapM fun j =>
  match mereCell s vi 0 (off + j) with
  | .ok c => some c
  | .error _ => none

/-- The doorbell of an enabled queue, when it runs ahead of HEAD. -/
def nextWork (s : State) (q : Nat) : Option Nat :=
  let u := sendQ s q
  if bit u.ctl.toNat 63 = false ∨ 1024 ≤ q then none
  else match ueCells s u.vi u.db.toNat 8 with
    | none => none
    | some cells => if asleep s cells ∨ u.head = numOf (readCells s cells) % 2 ^ 32 then none else some u.head

/-- The eight words of request `i`; a request that lies outside the window reads as zeros, which BADWR refuses. -/
def workWords (s : State) (q i : Nat) : List Word :=
  let u := sendQ s q
  match ueCells s u.vi (u.base.toNat + 64 * (i % 2 ^ bits u.ctl.toNat 3 0)) 64 with
  | none => List.replicate 8 0
  | some cells =>
    let bs := readCells s cells
    (List.range 8).map fun j => BitVec.ofNat 64 (numOf ((bs.drop (8 * j)).take 8))

/-- Word `j` of a request. -/
def workWord (l : List Word) (j : Nat) : Nat := (l.getD j 0).toNat

/-- OP of a request. -/
def workOp (l : List Word) : Nat := bits (workWord l 0) 63 56
/-- LEN of a request. -/
def workLen (l : List Word) : Nat := bits (workWord l 0) 31 0
/-- Endpoint of a request. -/
def workEp (l : List Word) : Nat := bits (workWord l 0) 43 32

/-- The cells of a request's local bytes, when they are local device memory (R361). -/
def localBytes (s : State) (vi : Nat) (l : List Word) (kind : Nat) : Option (List Nat) :=
  let ea := workWord l 1
  if isRemote s ea then none
  else match agentCells s ingressTlb vi ea (workLen l) kind with
    | .error _ => none
    | .ok cells => if cells.any isHost then none else some cells

/-- Whether a request breaks R361. -/
def workBad (s : State) (vi : Nat) (l : List Word) : Bool :=
  let op := workOp l
  let w := workWord l
  let n := workLen l
  op == 0 || decide (3 < op) || decide (1 < bits (w 0) 55 54) || bits (w 0) 53 44 != 0 || w 3 / 2 ^ 32 != 0 || bits (w 5) 62 45 != 0 ||
    w 6 != 0 || w 7 != 0 || (op == 1 && (w 2 != 0 || decide (n < 8) || decide (248 < n))) || n == 0 || decide (2 ^ 30 < n) ||
    (localBytes s vi l (if op = 3 then 2 else 1)).isNone

/-- Whether a request's endpoint is disabled or another VI's (R363). -/
def epBad (s : State) (vi : Nat) (l : List Word) : Bool :=
  let e := (s.endpts.get (workEp l) {}).w0.toNat
  bit e 63 == false || bits e 37 32 != vi

/-! ### Completion -/

/-- The release AADD on a request's counter (R363): 1 on success, 2^48 on failure. One that lies outside the window is dropped. -/
def countWork (s : State) (vi : Nat) (l : List Word) (st : Nat) : State :=
  match ueCells s vi (workWord l 4) 8 with
  | none => s
  | some cells => agentStore s cells (bytesOf 8 (numOf (readCells s cells) + if st = 0 then 1 else 2 ^ 48))

/-- A completion record (R363): its header and its payload. -/
def workRecord (i user st : Nat) : Nat := 16 * 2 ^ 48 + 2 ^ 40 + user % 2 ^ 32 + (i % 2 ^ 32 * 2 ^ 32 + st) * 2 ^ 64

/-- A record appended to ring `r` of the own node (08 R150): its status as of an append (08 R168), 2 where tenant `vi` has no such ring. -/
def ownRecord (s : State) (vi r rec len : Nat) : Nat × State :=
  let g := s.regn r
  if bit g.w1.toNat 63 = false ∨ g.vi ≠ vi then (2, s)
  else
    let (st, _, t) := appendRing s r vi g.brb rec len
    (st, t)

/-- The completion records of a queue appended in order, up to one that is refused (R363). -/
def flushRecs (q : Nat) (fuel : Nat) (s : State) : State :=
  match fuel with
  | 0 => s
  | f + 1 =>
    match (sendQ s q).recs with
    | [] => s
    | (i, user, ring, st) :: rest =>
      let (st', s1) := ownRecord s (sendQ s q).vi ring (workRecord i user st) 16
      if st' = 0 then flushRecs q f (modSendQ s1 q fun u => { u with recs := rest }) else s1

/-- Request `i` of a queue is complete with a status (R363): the counter, then the record when NOTIFY is set. -/
def completeWork (s : State) (q i : Nat) (l : List Word) (st : Nat) : State :=
  let s1 := countWork s (sendQ s q).vi l st
  let w5 := workWord l 5
  let s2 := modSendQ s1 q fun u =>
    { u with
      work := u.work.filter fun e => e.1 != i
      recs := if bit w5 63 then u.recs ++ [(i, bits w5 31 0, bits w5 44 32, st)] else u.recs }
  flushRecs q (sendQ s2 q).recs.length s2

/-- The IPv6 address of an endpoint's peer, whose most significant byte lies lowest (R360). -/
def Endpt.peer (e : Endpt) : Nat := numOf (bytesOf 8 e.a0.toNat ++ bytesOf 8 e.a1.toNat).reverse

/-- What the engine sends for a request: the bytes of a SEND or a WRITE, the request of a READ; in MODE's delivery, to the endpoint's peer, over
its ports (R358, R360, R361). -/
def workMsg (s : State) (vi : Nat) (l : List Word) : UeMsg :=
  let e := s.endpts.get (workEp l) {}
  { op := workOp l, rod := bits (workWord l 0) 55 54 == 1, peer := e.peer, pep := bits e.w3.toNat 31 0, ports := bits e.w0.toNat 3 0,
    ep := workEp l, off := workWord l 2, rkey := bits (workWord l 3) 31 0,
    data := if workOp l = 3 then [] else readCells s ((localBytes s vi l 1).getD []) }

/-- The next request of a queue is taken when its OP is one of `ops` (R361, R362). A bad one completes at once with failure; the status
of a bad endpoint is a free value, BADWR or DENIED. -/
def takeWork (q : Nat) (ops : Nat → Bool) (s : State) : State :=
  match nextWork s q with
  | none => s
  | some i =>
    let l := workWords s q i
    let vi := (sendQ s q).vi
    if !ops (workOp l) then s
    else
      let s1 := modSendQ s q fun u => { u with head := inc32 u.head }
      if workBad s vi l then completeWork s1 q i l 3
      else if epBad s vi l then
        let (w, s2) := draw s1
        completeWork s2 q i l (3 + w.toNat % 2)
      else { modSendQ s1 q fun u => { u with work := u.work ++ [(i, l, 0)] } with ueOut := s.ueOut ++ [workMsg s vi l] }

/-- UE_SEND (R362). A request with an unknown OP is read here too. -/
def execUeSend (q : Nat) (s : State) := event (takeWork q fun op => op != 2 && op != 3) s

/-- UE_WRITE (R361). -/
def execUeWrite (q : Nat) (s : State) := event (takeWork q fun op => op == 2) s

/-- UE_READ (R361). -/
def execUeRead (q : Nat) (s : State) := event (takeWork q fun op => op == 3) s

/-- UE_COMPLETION (R363): a request in progress completes with status `st`; a READ that succeeds writes its bytes first. For a request
that is not in progress, the records that are held back are tried again. -/
def ueCompletion (q i st : Nat) (data : List Nat) (s : State) : State :=
  match (sendQ s q).work.find? fun e => e.1 == i with
  | none => flushRecs q (sendQ s q).recs.length s
  | some (_, l, _) =>
    if st = 3 ∨ 4 < st then s
    else if st = 0 ∧ workOp l = 3 then
      (match localBytes s (sendQ s q).vi l 2 with
       | none => completeWork s q i l 1
       | some cells =>
         if data.length ≠ cells.length then s else completeWork (agentStore s cells data) q i l 0)
    else completeWork s q i l st

/-- UE_COMPLETION (R363). -/
def execUeCompletion (q i st : Nat) (data : List Nat) (s : State) := event (ueCompletion q i st data) s

/-- UE_RETRANSMISSION (R358): the unacknowledged packets of a request are sent again. -/
def ueRetransmission (q i : Nat) (s : State) : State :=
  match (sendQ s q).work.find? fun e => e.1 == i with
  | none => s
  | some (_, l, _) =>
    { modSendQ s q fun u => { u with work := u.work.map fun e => if e.1 == i then (e.1, e.2.1, e.2.2 + 1) else e } with
      ueOut := s.ueOut ++ [workMsg s (sendQ s q).vi l] }

/-- UE_RETRANSMISSION (R358). -/
def execUeRetransmission (q i : Nat) (s : State) := event (ueRetransmission q i) s

/-! ### What peers send -/

/-- What the engine tells the sender of a SEND whose ring is not registered: DENIED (R366). -/
def sendDenied (ep : Nat) (rod : Bool) (e : Endpt) : UeMsg := ⟨5, rod, e.peer, bits e.w3.toNat 31 0, bits e.w0.toNat 3 0, ep, 0, 0, []⟩

/-- The data of a SEND published as a TYPE 1 record in the ring that RXRING of the endpoint names (R362); false where that ring refuses. The
record's USER, and the bytes up to a multiple of 8, are free values. -/
def ueDeliver (s : State) (u : UeIn) : Bool × State :=
  let e := s.endpts.get u.ep {}
  let w := e.w0.toNat
  let n := u.data.length
  let len := 8 + (n + 7) / 8 * 8
  let (user, s1) := draw s
  let (pad, s2) := freeBytes s1 (len - 8 - n)
  let entry := len * 2 ^ 48 + 2 ^ 40 + user.toNat % 2 ^ 40 + numOf (u.data ++ pad) * 2 ^ 64
  let (st, s3) := ownRecord s2 (bits w 37 32) (bits w 16 4) entry len
  if st = 2 then (true, { s with ueOut := s.ueOut ++ [sendDenied u.ep u.rod e] }) else (st == 0, s3)

/-- Whether a SEND waits behind one of ordered delivery to the same endpoint among those in `l` (R362). -/
def ueBehind (l : List UeIn) (u : UeIn) : Bool := u.rod && l.any fun k => k.rod && k.ep == u.ep

/-- UE_SEND_ARRIVAL (R362): the data of a SEND is published; one that the ring refuses, and an ordered one behind it, is held. Whether its
sender asked for ordered delivery is a free value. -/
def ueSendArrival (ep : Nat) (data : List Nat) (s : State) : State :=
  let n := data.length
  if bit (s.endpts.get ep {}).w0.toNat 63 = false ∨ n < 8 ∨ 248 < n then s
  else
    let (w, t) := draw s
    let u : UeIn := ⟨ep, bit w.toNat 0, data⟩
    if ueBehind t.ueIn u then { t with ueIn := t.ueIn ++ [u] }
    else
      let (ok, t1) := ueDeliver t u
      if ok then t1 else { t1 with ueIn := t1.ueIn ++ [u] }

/-- A SEND that is held is tried again (R362). -/
def ueRetry (i : Nat) (s : State) : State :=
  match s.ueIn[i]? with
  | none => s
  | some u =>
    if ueBehind (s.ueIn.take i) u then s
    else
      let (ok, t) := ueDeliver s u
      if ok then { t with ueIn := t.ueIn.eraseIdx i } else t

/-- UE_SEND_ARRIVAL (R362). -/
def execUeSendArrival (ep : Nat) (data : List Nat) (s : State) := event (ueSendArrival ep data) s

/-- The cells of a peer's access to the region that an RKEY names (R361); none where it does not fit or is not permitted. -/
def regionCells (s : State) (rkey off n kind : Nat) : Option (List Nat) :=
  match Config.ueRegion rkey with
  | none => none
  | some (vi, addr, len) =>
    if len < off + n then none
    else match agentCells s ingressTlb vi (addr + off) n kind with
      | .error _ => none
      | .ok cells => if cells.any fun c => isHost c || poisoned s c then none else some cells

/-- UE_WRITE_ARRIVAL (R361). -/
def ueWriteArrival (rkey off : Nat) (data : List Nat) (s : State) : State :=
  match regionCells s rkey off data.length 2 with
  | none => s
  | some cells => agentStore s cells data

/-- UE_WRITE_ARRIVAL (R361). -/
def execUeWriteArrival (rkey off : Nat) (data : List Nat) (s : State) := event (ueWriteArrival rkey off data) s

/-- UE_READ_ARRIVAL (R361): the bytes are returned to the peer. -/
def ueReadArrival (rkey off len : Nat) (s : State) : State :=
  match regionCells s rkey off len 1 with
  | none => s
  | some cells => { s with ueOut := s.ueOut ++ [⟨4, false, 0, 0, 0, 0, off, rkey, readCells s cells⟩] }

/-- UE_READ_ARRIVAL (R361). -/
def execUeReadArrival (rkey off len : Nat) (s : State) := event (ueReadArrival rkey off len) s

end Sys2Proof.Machine
end

