-- ==== Sys2Proof/Machine/Scalar.lean ====
section
/-!
DEFINITION. The scalar register family and the immediate families (04 R79, R80).
-/

namespace Sys2Proof.Machine

open Sys2Proof

/-- A member with two source registers: both are read before s[d] is written (R79). -/
def alu2 (f : Word → Word → Word) (d a b : Nat) (s : State) (n : Nat) : Except Trap Res :=
  writeDone s n d (f ((s.slot n).rs a) ((s.slot n).rs b))

/-- A member with one source register (R79, R80). -/
def alu1 (f : Word → Word) (d a : Nat) (s : State) (n : Nat) : Except Trap Res :=
  writeDone s n d (f ((s.slot n).rs a))

/-- A member that reads the old s[d] as well (R79 SEL, INS). -/
def alu3 (f : Word → Word → Word → Word) (d a b : Nat) (s : State) (n : Nat) : Except Trap Res :=
  writeDone s n d (f ((s.slot n).rs d) ((s.slot n).rs a) ((s.slot n).rs b))

/-- 1 or 0. -/
def flagWord (b : Bool) : Word := if b then 1 else 0

/-- The shift amount in bits 5 to 0 of an operand (R79). -/
def shAmt (b : Word) : Nat := b.toNat % 64

/-- MULH: bits 127 to 64 of the signed product. -/
def mulHigh (a b : Word) : Word := toWord (a.toInt * b.toInt / 2 ^ 64)

/-- MULHN: bits 127 to 64 of the natural product. -/
def mulHighN (a b : Word) : Word := BitVec.ofNat 64 (a.toNat * b.toNat / 2 ^ 64)

/-- DIV: signed quotient, truncated toward zero; all ones for a zero divisor. -/
def divS (a b : Word) : Word := if b = 0 then BitVec.allOnes 64 else toWord (a.toInt.tdiv b.toInt)

/-- DIVN: natural quotient; all ones for a zero divisor. -/
def divN (a b : Word) : Word := if b = 0 then BitVec.allOnes 64 else BitVec.ofNat 64 (a.toNat / b.toNat)

/-- REM: signed remainder with the sign of s[a]; s[a] for a zero divisor. -/
def remS (a b : Word) : Word := if b = 0 then a else toWord (a.toInt.tmod b.toInt)

/-- REMN: natural remainder; s[a] for a zero divisor. -/
def remN (a b : Word) : Word := if b = 0 then a else BitVec.ofNat 64 (a.toNat % b.toNat)

/-- ROTL by `k` below 64. -/
def rotL (a : Word) (k : Nat) : Word := (a <<< k) ||| (a >>> (64 - k))

/-- Zero bits above the highest one. -/
def clzWord (a : Word) : Word := if a = 0 then 64 else BitVec.ofNat 64 (63 - Nat.log2 a.toNat)

/-- Zero bits below the lowest one. -/
def ctzWord (a : Word) : Word :=
  BitVec.ofNat 64 (((List.range 64).find? fun i => bit a.toNat i).getD 64)

/-- One bits. -/
def popWord (a : Word) : Word := BitVec.ofNat 64 (((List.range 64).filter fun i => bit a.toNat i).length)

/-- SEXT: sign extension from bit p (R79). -/
def sextWord (a b : Word) : Word := toWord (sx (shAmt b + 1) a.toNat)

/-- Lowest bit and width of the field that EXT and INS name in s[b] (R79). -/
def extField (b : Word) : Nat × Nat := (bits b.toNat 5 0, bits b.toNat 13 8 + 1)

/-- EXT (R79). -/
def extWord (a b : Word) : Word :=
  let (p, w) := extField b
  BitVec.ofNat 64 (a.toNat / 2 ^ p % 2 ^ w)

/-- INS (R79). -/
def insWord (d a b : Word) : Word :=
  let (p, w) := extField b
  let m : Word := BitVec.ofNat 64 ((2 ^ w - 1) * 2 ^ p)
  (d &&& ~~~m) ||| ((a <<< p) &&& m)

/-- A 14-bit immediate, sign-extended (R80). -/
def imm14 (i : Nat) : Word := toWord (sx 14 i)

/-- ADD (R79). -/
def execAdd (d a b : Nat) (s : State) := plain (alu2 (fun a b => a + b) d a b) s

/-- SUB (R79). -/
def execSub (d a b : Nat) (s : State) := plain (alu2 (fun a b => a - b) d a b) s

/-- MUL (R79). -/
def execMul (d a b : Nat) (s : State) := plain (alu2 (fun a b => a * b) d a b) s

/-- MULH (R79). -/
def execMulh (d a b : Nat) (s : State) := plain (alu2 (fun a b => mulHigh a b) d a b) s

/-- MULHN (R79). -/
def execMulhn (d a b : Nat) (s : State) := plain (alu2 (fun a b => mulHighN a b) d a b) s

/-- DIV (R79). -/
def execDiv (d a b : Nat) (s : State) := plain (alu2 (fun a b => divS a b) d a b) s

/-- DIVN (R79). -/
def execDivn (d a b : Nat) (s : State) := plain (alu2 (fun a b => divN a b) d a b) s

/-- REM (R79). -/
def execRem (d a b : Nat) (s : State) := plain (alu2 (fun a b => remS a b) d a b) s

/-- REMN (R79). -/
def execRemn (d a b : Nat) (s : State) := plain (alu2 (fun a b => remN a b) d a b) s

/-- AND (R79). -/
def execAnd (d a b : Nat) (s : State) := plain (alu2 (fun a b => a &&& b) d a b) s

/-- OR (R79). -/
def execOr (d a b : Nat) (s : State) := plain (alu2 (fun a b => a ||| b) d a b) s

/-- XOR (R79). -/
def execXor (d a b : Nat) (s : State) := plain (alu2 (fun a b => a ^^^ b) d a b) s

/-- ANDN (R79). -/
def execAndn (d a b : Nat) (s : State) := plain (alu2 (fun a b => a &&& ~~~b) d a b) s

/-- SHL (R79). -/
def execShl (d a b : Nat) (s : State) := plain (alu2 (fun a b => a <<< shAmt b) d a b) s

/-- SHR (R79). -/
def execShr (d a b : Nat) (s : State) := plain (alu2 (fun a b => a >>> shAmt b) d a b) s

/-- SAR (R79). -/
def execSar (d a b : Nat) (s : State) := plain (alu2 (fun a b => a.sshiftRight (shAmt b)) d a b) s

/-- ROTL (R79). -/
def execRotl (d a b : Nat) (s : State) := plain (alu2 (fun a b => rotL a (shAmt b)) d a b) s

/-- MIN (R79). -/
def execMin (d a b : Nat) (s : State) := plain (alu2 (fun a b => if a.toInt ≤ b.toInt then a else b) d a b) s

/-- MAX (R79). -/
def execMax (d a b : Nat) (s : State) := plain (alu2 (fun a b => if a.toInt ≤ b.toInt then b else a) d a b) s

/-- MINN (R79). -/
def execMinn (d a b : Nat) (s : State) := plain (alu2 (fun a b => if a.toNat ≤ b.toNat then a else b) d a b) s

/-- MAXN (R79). -/
def execMaxn (d a b : Nat) (s : State) := plain (alu2 (fun a b => if a.toNat ≤ b.toNat then b else a) d a b) s

/-- SEQ (R79). -/
def execSeq (d a b : Nat) (s : State) := plain (alu2 (fun a b => flagWord (decide (a = b))) d a b) s

/-- SNE (R79). -/
def execSne (d a b : Nat) (s : State) := plain (alu2 (fun a b => flagWord (decide (a ≠ b))) d a b) s

/-- SLT (R79). -/
def execSlt (d a b : Nat) (s : State) := plain (alu2 (fun a b => flagWord (decide (a.toInt < b.toInt))) d a b) s

/-- SLTN (R79). -/
def execSltn (d a b : Nat) (s : State) := plain (alu2 (fun a b => flagWord (decide (a.toNat < b.toNat))) d a b) s

/-- SLE (R79). -/
def execSle (d a b : Nat) (s : State) := plain (alu2 (fun a b => flagWord (decide (a.toInt ≤ b.toInt))) d a b) s

/-- SLEN (R79). -/
def execSlen (d a b : Nat) (s : State) := plain (alu2 (fun a b => flagWord (decide (a.toNat ≤ b.toNat))) d a b) s

/-- SEL: s[a] if the old s[d] is not zero, else s[b] (R79). -/
def execSel (d a b : Nat) (s : State) := plain (alu3 (fun d a b => if d ≠ 0 then a else b) d a b) s

/-- CLZ (R79). -/
def execClz (d a : Nat) (s : State) := plain (alu1 clzWord d a) s

/-- CTZ (R79). -/
def execCtz (d a : Nat) (s : State) := plain (alu1 ctzWord d a) s

/-- POPC (R79). -/
def execPopc (d a : Nat) (s : State) := plain (alu1 popWord d a) s

/-- SEXT (R79). -/
def execSext (d a b : Nat) (s : State) := plain (alu2 sextWord d a b) s

/-- EXT (R79). -/
def execExt (d a b : Nat) (s : State) := plain (alu2 extWord d a b) s

/-- INS (R79). -/
def execIns (d a b : Nat) (s : State) := plain (alu3 insWord d a b) s

/-- ADDI (R80). -/
def execAddi (d a i : Nat) (s : State) := plain (alu1 (fun a => a + imm14 i) d a) s

/-- ANDI (R80). -/
def execAndi (d a i : Nat) (s : State) := plain (alu1 (fun a => a &&& imm14 i) d a) s

/-- ORI (R80). -/
def execOri (d a i : Nat) (s : State) := plain (alu1 (fun a => a ||| BitVec.ofNat 64 i) d a) s

/-- XORI (R80). -/
def execXori (d a i : Nat) (s : State) := plain (alu1 (fun a => a ^^^ BitVec.ofNat 64 i) d a) s

/-- SLTI (R80). -/
def execSlti (d a i : Nat) (s : State) := plain (alu1 (fun a => flagWord (decide (a.toInt < (imm14 i).toInt))) d a) s

/-- SLTIN (R80). -/
def execSltin (d a i : Nat) (s : State) := plain (alu1 (fun a => flagWord (decide (a.toNat < (imm14 i).toNat))) d a) s

/-- SHLI (R80). -/
def execShli (d a k : Nat) (s : State) := plain (alu1 (fun a => a <<< (k % 64)) d a) s

/-- SHRI (R80). -/
def execShri (d a k : Nat) (s : State) := plain (alu1 (fun a => a >>> (k % 64)) d a) s

/-- SARI (R80). -/
def execSari (d a k : Nat) (s : State) := plain (alu1 (fun a => a.sshiftRight (k % 64)) d a) s

/-- ROTLI (R80). -/
def execRotli (d a k : Nat) (s : State) := plain (alu1 (fun a => rotL a (k % 64)) d a) s

/-- LUI: the sign-extended 20-bit immediate, 14 places up (R80). -/
def execLui (d i : Nat) (s : State) := plain (fun t n => writeDone t n d (toWord (sx 20 i * 2 ^ 14))) s

/-- ADDPC: the address of the target, modulo 2^52 (R80). -/
def execAddpc (d i : Nat) (s : State) :=
  plain (fun t n => writeDone t n d (BitVec.ofNat 64 (wrap 52 ((t.slot n).pc + sx 20 i * 4)))) s

end Sys2Proof.Machine
end

