-- ==== Sys2Proof/Machine/Dispatch.lean ====
section
/-!
DEFINITION. The dispatch: one arm for every constructor of Instr, one direct call of its meaning. An instruction word is run
by slot `s.cur`; the step of another agent names the agent.
-/

namespace Sys2Proof.Machine

open Sys2Proof

/-- What one instruction, or one step of another agent, does. -/
def exec (i : Instr) (s : State) : Host.Outcome State Fault Refusal :=
  match i with
  | .nop => Sys2Proof.Machine.execNop s
  | .trap d a b => Sys2Proof.Machine.execTrap d a b s
  | .eret => Sys2Proof.Machine.execEret s
  | .icinv d a b => Sys2Proof.Machine.execIcinv d a b s
  | .brk => Sys2Proof.Machine.execBrk s
  | .csrr d b => Sys2Proof.Machine.execCsrr d b s
  | .csrw d a b => Sys2Proof.Machine.execCsrw d a b s
  | .csrs d a b => Sys2Proof.Machine.execCsrs d a b s
  | .csrc d a b => Sys2Proof.Machine.execCsrc d a b s
  | .ctxsave b => Sys2Proof.Machine.execCtxsave b s
  | .ctxrest => Sys2Proof.Machine.execCtxrest s
  | .svcreply d a b => Sys2Proof.Machine.execSvcreply d a b s
  | .gstopPartition a => Sys2Proof.Machine.execGstopPartition a s
  | .gstopPackage a => Sys2Proof.Machine.execGstopPackage a s
  | .gstopResume a => Sys2Proof.Machine.execGstopResume a s
  | .add d a b => Sys2Proof.Machine.execAdd d a b s
  | .sub d a b => Sys2Proof.Machine.execSub d a b s
  | .mul d a b => Sys2Proof.Machine.execMul d a b s
  | .mulh d a b => Sys2Proof.Machine.execMulh d a b s
  | .mulhn d a b => Sys2Proof.Machine.execMulhn d a b s
  | .div d a b => Sys2Proof.Machine.execDiv d a b s
  | .divn d a b => Sys2Proof.Machine.execDivn d a b s
  | .rem d a b => Sys2Proof.Machine.execRem d a b s
  | .remn d a b => Sys2Proof.Machine.execRemn d a b s
  | .and d a b => Sys2Proof.Machine.execAnd d a b s
  | .or d a b => Sys2Proof.Machine.execOr d a b s
  | .xor d a b => Sys2Proof.Machine.execXor d a b s
  | .andn d a b => Sys2Proof.Machine.execAndn d a b s
  | .shl d a b => Sys2Proof.Machine.execShl d a b s
  | .shr d a b => Sys2Proof.Machine.execShr d a b s
  | .sar d a b => Sys2Proof.Machine.execSar d a b s
  | .rotl d a b => Sys2Proof.Machine.execRotl d a b s
  | .min d a b => Sys2Proof.Machine.execMin d a b s
  | .max d a b => Sys2Proof.Machine.execMax d a b s
  | .minn d a b => Sys2Proof.Machine.execMinn d a b s
  | .maxn d a b => Sys2Proof.Machine.execMaxn d a b s
  | .seq d a b => Sys2Proof.Machine.execSeq d a b s
  | .sne d a b => Sys2Proof.Machine.execSne d a b s
  | .slt d a b => Sys2Proof.Machine.execSlt d a b s
  | .sltn d a b => Sys2Proof.Machine.execSltn d a b s
  | .sle d a b => Sys2Proof.Machine.execSle d a b s
  | .slen d a b => Sys2Proof.Machine.execSlen d a b s
  | .sel d a b => Sys2Proof.Machine.execSel d a b s
  | .clz d a => Sys2Proof.Machine.execClz d a s
  | .ctz d a => Sys2Proof.Machine.execCtz d a s
  | .popc d a => Sys2Proof.Machine.execPopc d a s
  | .sext d a b => Sys2Proof.Machine.execSext d a b s
  | .ext d a b => Sys2Proof.Machine.execExt d a b s
  | .ins d a b => Sys2Proof.Machine.execIns d a b s
  | .addi d a im => Sys2Proof.Machine.execAddi d a im s
  | .andi d a im => Sys2Proof.Machine.execAndi d a im s
  | .ori d a im => Sys2Proof.Machine.execOri d a im s
  | .xori d a im => Sys2Proof.Machine.execXori d a im s
  | .shli d a n => Sys2Proof.Machine.execShli d a n s
  | .shri d a n => Sys2Proof.Machine.execShri d a n s
  | .sari d a n => Sys2Proof.Machine.execSari d a n s
  | .rotli d a n => Sys2Proof.Machine.execRotli d a n s
  | .slti d a im => Sys2Proof.Machine.execSlti d a im s
  | .sltin d a im => Sys2Proof.Machine.execSltin d a im s
  | .lui d im => Sys2Proof.Machine.execLui d im s
  | .addpc d im => Sys2Proof.Machine.execAddpc d im s
  | .bz a p => Sys2Proof.Machine.execBz a p s
  | .bnz a p => Sys2Proof.Machine.execBnz a p s
  | .bltz a p => Sys2Proof.Machine.execBltz a p s
  | .bgez a p => Sys2Proof.Machine.execBgez a p s
  | .bgtz a p => Sys2Proof.Machine.execBgtz a p s
  | .blez a p => Sys2Proof.Machine.execBlez a p s
  | .j p => Sys2Proof.Machine.execJ p s
  | .jl p => Sys2Proof.Machine.execJl p s
  | .jx a b => Sys2Proof.Machine.execJx a b s
  | .callx a b => Sys2Proof.Machine.execCallx a b s
  | .ret => Sys2Proof.Machine.execRet s
  | .jt d a b => Sys2Proof.Machine.execJt d a b s
  | .pad l => Sys2Proof.Machine.execPad l s
  | .rpt l c x y z => Sys2Proof.Machine.execRpt l c x y z s
  | .tid d => Sys2Proof.Machine.execTid d s
  | .tgrp d => Sys2Proof.Machine.execTgrp d s
  | .texit a => Sys2Proof.Machine.execTexit a s
  | .launch d a x e => Sys2Proof.Machine.execLaunch d a x e s
  | .lb d b o f => Sys2Proof.Machine.execLb d b o f s
  | .lbn d b o f => Sys2Proof.Machine.execLbn d b o f s
  | .lh d b o f => Sys2Proof.Machine.execLh d b o f s
  | .lhn d b o f => Sys2Proof.Machine.execLhn d b o f s
  | .lw d b o f => Sys2Proof.Machine.execLw d b o f s
  | .lwn d b o f => Sys2Proof.Machine.execLwn d b o f s
  | .ld d b o f => Sys2Proof.Machine.execLd d b o f s
  | .ldp d b o f => Sys2Proof.Machine.execLdp d b o f s
  | .stb d b o f => Sys2Proof.Machine.execStb d b o f s
  | .sth d b o f => Sys2Proof.Machine.execSth d b o f s
  | .stw d b o f => Sys2Proof.Machine.execStw d b o f s
  | .std d b o f => Sys2Proof.Machine.execStd d b o f s
  | .stp d b o f => Sys2Proof.Machine.execStp d b o f s
  | .ldx d a b o sv w => Sys2Proof.Machine.execLdx d a b o sv w s
  | .stx d a b o sv w => Sys2Proof.Machine.execStx d a b o sv w s
  | .fence sv => Sys2Proof.Machine.execFence sv s
  | .fenceAcq sv => Sys2Proof.Machine.execFenceAcq sv s
  | .fenceRel sv => Sys2Proof.Machine.execFenceRel sv s
  | .fenceSs sv => Sys2Proof.Machine.execFenceSs sv s
  | .aadd d a b o w => Sys2Proof.Machine.execAadd d a b o w s
  | .aand d a b o w => Sys2Proof.Machine.execAand d a b o w s
  | .aor d a b o w => Sys2Proof.Machine.execAor d a b o w s
  | .axor d a b o w => Sys2Proof.Machine.execAxor d a b o w s
  | .amin d a b o w => Sys2Proof.Machine.execAmin d a b o w s
  | .amax d a b o w => Sys2Proof.Machine.execAmax d a b o w s
  | .aminn d a b o w => Sys2Proof.Machine.execAminn d a b o w s
  | .amaxn d a b o w => Sys2Proof.Machine.execAmaxn d a b o w s
  | .aswp d a b o w => Sys2Proof.Machine.execAswp d a b o w s
  | .acas d a b o w => Sys2Proof.Machine.execAcas d a b o w s
  | .afadd d a b o w => Sys2Proof.Machine.execAfadd d a b o w s
  | .afmin d a b o w => Sys2Proof.Machine.execAfmin d a b o w s
  | .afmax d a b o w => Sys2Proof.Machine.execAfmax d a b o w s
  | .acas2 d a b o => Sys2Proof.Machine.execAcas2 d a b o s
  | .btag b => Sys2Proof.Machine.execBtag b s
  | .bclose e a b => Sys2Proof.Machine.execBclose e a b s
  | .rappend e a b => Sys2Proof.Machine.execRappend e a b s
  | .vadd d a b k w => Sys2Proof.Machine.execVadd d a b k w s
  | .vsub d a b k w => Sys2Proof.Machine.execVsub d a b k w s
  | .vmul d a b k w => Sys2Proof.Machine.execVmul d a b k w s
  | .vmulh d a b k w => Sys2Proof.Machine.execVmulh d a b k w s
  | .vmin d a b k w => Sys2Proof.Machine.execVmin d a b k w s
  | .vmax d a b k w => Sys2Proof.Machine.execVmax d a b k w s
  | .vminn d a b k w => Sys2Proof.Machine.execVminn d a b k w s
  | .vmaxn d a b k w => Sys2Proof.Machine.execVmaxn d a b k w s
  | .vand d a b k w => Sys2Proof.Machine.execVand d a b k w s
  | .vor d a b k w => Sys2Proof.Machine.execVor d a b k w s
  | .vxor d a b k w => Sys2Proof.Machine.execVxor d a b k w s
  | .vandn d a b k w => Sys2Proof.Machine.execVandn d a b k w s
  | .vshl d a b k w => Sys2Proof.Machine.execVshl d a b k w s
  | .vshr d a b k w => Sys2Proof.Machine.execVshr d a b k w s
  | .vsar d a b k w => Sys2Proof.Machine.execVsar d a b k w s
  | .vabs d a k w => Sys2Proof.Machine.execVabs d a k w s
  | .vneg d a k w => Sys2Proof.Machine.execVneg d a k w s
  | .vpopc d a k w => Sys2Proof.Machine.execVpopc d a k w s
  | .vfadd d a b k => Sys2Proof.Machine.execVfadd d a b k s
  | .vfsub d a b k => Sys2Proof.Machine.execVfsub d a b k s
  | .vfmul d a b k => Sys2Proof.Machine.execVfmul d a b k s
  | .vfmin d a b k => Sys2Proof.Machine.execVfmin d a b k s
  | .vfmax d a b k => Sys2Proof.Machine.execVfmax d a b k s
  | .vfabs d a k => Sys2Proof.Machine.execVfabs d a k s
  | .vfneg d a k => Sys2Proof.Machine.execVfneg d a k s
  | .vfma d a b c k => Sys2Proof.Machine.execVfma d a b c k s
  | .vfms d a b c k => Sys2Proof.Machine.execVfms d a b c k s
  | .vfnma d a b c k => Sys2Proof.Machine.execVfnma d a b c k s
  | .vfnms d a b c k => Sys2Proof.Machine.execVfnms d a b c k s
  | .vmadd d a b c k => Sys2Proof.Machine.execVmadd d a b c k s
  | .vmsub d a b c k => Sys2Proof.Machine.execVmsub d a b c k s
  | .vcmpi d a b k w n => Sys2Proof.Machine.execVcmpi d a b k w n s
  | .vcmpf d a b k n => Sys2Proof.Machine.execVcmpf d a b k n s
  | .vsel d a b k w => Sys2Proof.Machine.execVsel d a b k w s
  | .vred d a b k w o => Sys2Proof.Machine.execVred d a b k w o s
  | .vscan d a b k w o => Sys2Proof.Machine.execVscan d a b k w o s
  | .vperm d a b k w => Sys2Proof.Machine.execVperm d a b k w s
  | .vbcast d a k w h => Sys2Proof.Machine.execVbcast d a k w h s
  | .vgetl d a l w h => Sys2Proof.Machine.execVgetl d a l w h s
  | .vsetl d a l w h => Sys2Proof.Machine.execVsetl d a l w h s
  | .vslideDn d a n k w => Sys2Proof.Machine.execVslideDn d a n k w s
  | .vslideUp d a n k w => Sys2Proof.Machine.execVslideUp d a n k w s
  | .viota d k w => Sys2Proof.Machine.execViota d k w s
  | .viotaCnt d k w => Sys2Proof.Machine.execViotaCnt d k w s
  | .vcvt d a k p => Sys2Proof.Machine.execVcvt d a k p s
  | .vquant d a p => Sys2Proof.Machine.execVquant d a p s
  | .vdeq d a k p => Sys2Proof.Machine.execVdeq d a k p s
  | .vdec d a k p => Sys2Proof.Machine.execVdec d a k p s
  | .venc d a k p => Sys2Proof.Machine.execVenc d a k p s
  | .vbadd d a b => Sys2Proof.Machine.execVbadd d a b s
  | .tblld sv t a b h => Sys2Proof.Machine.execTblld sv t a b h s
  | .vrcp d a k => Sys2Proof.Machine.execVrcp d a k s
  | .vrsq d a k => Sys2Proof.Machine.execVrsq d a k s
  | .vexp2 d a k => Sys2Proof.Machine.execVexp2 d a k s
  | .vlog2 d a k => Sys2Proof.Machine.execVlog2 d a k s
  | .vsqrt d a k => Sys2Proof.Machine.execVsqrt d a k s
  | .vdiv d a b k => Sys2Proof.Machine.execVdiv d a b k s
  | .kand d a b => Sys2Proof.Machine.execKand d a b s
  | .kor d a b => Sys2Proof.Machine.execKor d a b s
  | .kxor d a b => Sys2Proof.Machine.execKxor d a b s
  | .knot d a => Sys2Proof.Machine.execKnot d a s
  | .kmov d a => Sys2Proof.Machine.execKmov d a s
  | .kpopc d a w h => Sys2Proof.Machine.execKpopc d a w h s
  | .kfirst d a w h => Sys2Proof.Machine.execKfirst d a w h s
  | .vld v b x k o w => Sys2Proof.Machine.execVld v b x k o w s
  | .vlds v b x k o w => Sys2Proof.Machine.execVlds v b x k o w s
  | .vldx v b x k o w => Sys2Proof.Machine.execVldx v b x k o w s
  | .vldb v b x k o w => Sys2Proof.Machine.execVldb v b x k o w s
  | .vst v b x k o w => Sys2Proof.Machine.execVst v b x k o w s
  | .vsts v b x k o w => Sys2Proof.Machine.execVsts v b x k o w s
  | .vstx v b x k o w => Sys2Proof.Machine.execVstx v b x k o w s
  | .mlease e => Sys2Proof.Machine.execMlease e s
  | .mfree => Sys2Proof.Machine.execMfree s
  | .mring a n => Sys2Proof.Machine.execMring a n s
  | .mrpub d a n => Sys2Proof.Machine.execMrpub d a n s
  | .mrpop d a n => Sys2Proof.Machine.execMrpop d a n s
  | .mma x e r c sv => Sys2Proof.Machine.execMma x e r c sv s
  | .mmah x e r c sv => Sys2Proof.Machine.execMmah x e r c sv s
  | .mzero x e c => Sys2Proof.Machine.execMzero x e c s
  | .mlda x e c b => Sys2Proof.Machine.execMlda x e c b s
  | .msta x e c b => Sys2Proof.Machine.execMsta x e c b s
  | .mscale x e a => Sys2Proof.Machine.execMscale x e a s
  | .msplit x e a b => Sys2Proof.Machine.execMsplit x e a b s
  | .msmm x e a b => Sys2Proof.Machine.execMsmm x e a b s
  | .msfin x e a b => Sys2Proof.Machine.execMsfin x e a b s
  | .sbind x e a r => Sys2Proof.Machine.execSbind x e a r s
  | .sfree r => Sys2Proof.Machine.execSfree r s
  | .sstat d r => Sys2Proof.Machine.execSstat d r s
  | .srd v r => Sys2Proof.Machine.execSrd v r s
  | .swr v r => Sys2Proof.Machine.execSwr v r s
  | .cpy x e a q => Sys2Proof.Machine.execCpy x e a q s
  | .cpys x e a q => Sys2Proof.Machine.execCpys x e a q s
  | .cpyg x e a q => Sys2Proof.Machine.execCpyg x e a q s
  | .cpym x e a q => Sys2Proof.Machine.execCpym x e a q s
  | .evnew d a => Sys2Proof.Machine.execEvnew d a s
  | .evfree a => Sys2Proof.Machine.execEvfree a s
  | .evbind e a => Sys2Proof.Machine.execEvbind e a s
  | .evdrop e => Sys2Proof.Machine.execEvdrop e s
  | .evbreak e => Sys2Proof.Machine.execEvbreak e s
  | .evstat d e => Sys2Proof.Machine.execEvstat d e s
  | .offer d a b => Sys2Proof.Machine.execOffer d a b s
  | .offert d a b => Sys2Proof.Machine.execOffert d a b s
  | .offers d a b => Sys2Proof.Machine.execOffers d a b s
  | .ofcan d => Sys2Proof.Machine.execOfcan d s
  | .ofcanRet => Sys2Proof.Machine.execOfcanRet s
  | .get d e => Sys2Proof.Machine.execGet d e s
  | .put d e => Sys2Proof.Machine.execPut d e s
  | .sync d => Sys2Proof.Machine.execSync d s
  | .eqp => Sys2Proof.Machine.execEqp s
  | .chfold d => Sys2Proof.Machine.execChfold d s
  | .chspread d => Sys2Proof.Machine.execChspread d s
  | .chstat d => Sys2Proof.Machine.execChstat d s
  | .ccenrol d a b => Sys2Proof.Machine.execCcenrol d a b s
  | .ccdrop d a => Sys2Proof.Machine.execCcdrop d a s
  | .ccmove d a b => Sys2Proof.Machine.execCcmove d a b s
  | .ccsettle x e a => Sys2Proof.Machine.execCcsettle x e a s
  | .ccread d a => Sys2Proof.Machine.execCcread d a s
  | .ccreadT d a => Sys2Proof.Machine.execCcreadT d a s
  | .cccmp d a b => Sys2Proof.Machine.execCccmp d a b s
  | .fmtp a b r m sv => Sys2Proof.Machine.execFmtp a b r m sv s
  | .taskRetirement slot => Sys2Proof.Machine.execTaskRetirement slot s
  | .loadDataReturn slot st data => Sys2Proof.Machine.execLoadDataReturn slot st data s
  | .fenceDrainEnd slot => Sys2Proof.Machine.execFenceDrainEnd slot s
  | .icinvDone slot => Sys2Proof.Machine.execIcinvDone slot s
  | .heldRecordPost die im => Sys2Proof.Machine.execHeldRecordPost die im s
  | .preempt slot => Sys2Proof.Machine.execPreempt slot s
  | .taskDispatch pick => Sys2Proof.Machine.execTaskDispatch pick s
  | .taskRedispatch pick => Sys2Proof.Machine.execTaskRedispatch pick s
  | .chainSwitch vi id => Sys2Proof.Machine.execChainSwitch vi id s
  | .leaseGrantOffer cl => Sys2Proof.Machine.execLeaseGrantOffer cl s
  | .leaseOfferTimeout cl => Sys2Proof.Machine.execLeaseOfferTimeout cl s
  | .leaseExpiry cl => Sys2Proof.Machine.execLeaseExpiry cl s
  | .mxeCommandExecute cl => Sys2Proof.Machine.execMxeCommandExecute cl s
  | .msmmPass cl => Sys2Proof.Machine.execMsmmPass cl s
  | .msmmBlockReserve cl => Sys2Proof.Machine.execMsmmBlockReserve cl s
  | .copyExecute cl q n => Sys2Proof.Machine.execCopyExecute cl q n s
  | .ringPush cl q => Sys2Proof.Machine.execRingPush cl q s
  | .copyComplete cl q => Sys2Proof.Machine.execCopyComplete cl q s
  | .streamBeat slot r => Sys2Proof.Machine.execStreamBeat slot r s
  | .streamComplete slot r => Sys2Proof.Machine.execStreamComplete slot r s
  | .offerRegistration im => Sys2Proof.Machine.execOfferRegistration im s
  | .resolverWindow home => Sys2Proof.Machine.execResolverWindow home s
  | .claim im => Sys2Proof.Machine.execClaim im s
  | .claimAnswer im => Sys2Proof.Machine.execClaimAnswer im s
  | .claimRevoke im => Sys2Proof.Machine.execClaimRevoke im s
  | .claimRelease im => Sys2Proof.Machine.execClaimRelease im s
  | .commitNotify im => Sys2Proof.Machine.execCommitNotify im s
  | .freeAnnounce im => Sys2Proof.Machine.execFreeAnnounce im s
  | .offertExpiry slot => Sys2Proof.Machine.execOffertExpiry slot s
  | .handlerEntry slot => Sys2Proof.Machine.execHandlerEntry slot s
  | .settleComplete slot im => Sys2Proof.Machine.execSettleComplete slot im s
  | .rollup vi => Sys2Proof.Machine.execRollup vi s
  | .batchSummary slot tag answers => Sys2Proof.Machine.execBatchSummary slot tag answers s
  | .closeRequest vi im => Sys2Proof.Machine.execCloseRequest vi im s
  | .appendStatus slot im st pos => Sys2Proof.Machine.execAppendStatus slot im st pos s
  | .atomicReply slot st old flags => Sys2Proof.Machine.execAtomicReply slot st old flags s
  | .ingressDequeue vi cls => Sys2Proof.Machine.execIngressDequeue vi cls s
  | .remoteAppend vi => Sys2Proof.Machine.execRemoteAppend vi s
  | .pubPublish ring => Sys2Proof.Machine.execPubPublish ring s
  | .arrivalRecord ring => Sys2Proof.Machine.execArrivalRecord ring s
  | .ringLaunchRecord ring => Sys2Proof.Machine.execRingLaunchRecord ring s
  | .arrivalRingRelease ring => Sys2Proof.Machine.execArrivalRingRelease ring s
  | .hostLaunch vi => Sys2Proof.Machine.execHostLaunch vi s
  | .hostCancel vi => Sys2Proof.Machine.execHostCancel vi s
  | .completionEntryPost vi => Sys2Proof.Machine.execCompletionEntryPost vi s
  | .launchCompletion vi id => Sys2Proof.Machine.execLaunchCompletion vi id s
  | .tencfgWrite vi x => Sys2Proof.Machine.execTencfgWrite vi x s
  | .registrationWrite ring j x => Sys2Proof.Machine.execRegistrationWrite ring j x s
  | .mscrWrite die x => Sys2Proof.Machine.execMscrWrite die x s
  | .atomflagsClear die vi x => Sys2Proof.Machine.execAtomflagsClear die vi x s
  | .smdataWrite x => Sys2Proof.Machine.execSmdataWrite x s
  | .smdataRead => Sys2Proof.Machine.execSmdataRead s
  | .invalidateRange => Sys2Proof.Machine.execInvalidateRange s
  | .invalidateSpace => Sys2Proof.Machine.execInvalidateSpace s
  | .invalidateAll => Sys2Proof.Machine.execInvalidateAll s
  | .invalidationAck => Sys2Proof.Machine.execInvalidationAck s
  | .attestationReport vi => Sys2Proof.Machine.execAttestationReport vi s
  | .pstateRequest die => Sys2Proof.Machine.execPstateRequest die s
  | .cstateC0 cl => Sys2Proof.Machine.execCstateC0 cl s
  | .cstateC1 cl => Sys2Proof.Machine.execCstateC1 cl s
  | .cstateC2 cl => Sys2Proof.Machine.execCstateC2 cl s
  | .dieC3 die => Sys2Proof.Machine.execDieC3 die s
  | .dieC0 die => Sys2Proof.Machine.execDieC0 die s
  | .thermalTrip die t => Sys2Proof.Machine.execThermalTrip die t s
  | .thermalShutdown die t => Sys2Proof.Machine.execThermalShutdown die t s
  | .pminApply port => Sys2Proof.Machine.execPminApply port s
  | .flitReceive port flit => Sys2Proof.Machine.execFlitReceive port flit s
  | .linkReplay port failed => Sys2Proof.Machine.execLinkReplay port failed s
  | .portTrained port => Sys2Proof.Machine.execPortTrained port s
  | .nodeLoss node => Sys2Proof.Machine.execNodeLoss node s
  | .functionLevelReset vi => Sys2Proof.Machine.execFunctionLevelReset vi s
  | .packageReset verified => Sys2Proof.Machine.execPackageReset verified s
  | .scAnnouncement w => Sys2Proof.Machine.execScAnnouncement w s
  | .ueSend q => Sys2Proof.Machine.execUeSend q s
  | .ueWrite q => Sys2Proof.Machine.execUeWrite q s
  | .ueRead q => Sys2Proof.Machine.execUeRead q s
  | .ueCompletion q im st data => Sys2Proof.Machine.execUeCompletion q im st data s
  | .ueSendArrival ep data => Sys2Proof.Machine.execUeSendArrival ep data s
  | .registerWrite off x => Sys2Proof.Machine.execRegisterWrite off x s
  | .storeBufferDrain slot im => Sys2Proof.Machine.execStoreBufferDrain slot im s
  | .treeOperationResult slot => Sys2Proof.Machine.execTreeOperationResult slot s
  | .uncorrectableError granule => Sys2Proof.Machine.execUncorrectableError granule s
  | .laneTrainingLost die lane => Sys2Proof.Machine.execLaneTrainingLost die lane s
  | .hostMemoryWrite addr data => Sys2Proof.Machine.execHostMemoryWrite addr data s
  | .ueWriteArrival rkey off data => Sys2Proof.Machine.execUeWriteArrival rkey off data s
  | .ueReadArrival rkey off len => Sys2Proof.Machine.execUeReadArrival rkey off len s
  | .ueRetransmission q im => Sys2Proof.Machine.execUeRetransmission q im s

end Sys2Proof.Machine
end

