-- ==== Sys2Proof/Machine/Run.lean ====
section
/-!
DEFINITION. One step of the package: which slot of a core issues (01 R9; 02 R26), what it runs (04 R57, R78, R88, R90; 20 R304, R305),
and what else happens between two instructions.

Readings and choices of the model (log): DESIGN CHOICE 7, 8, 122; DEDUCED 30, 31, 47, 48, 79, 80, 136, 144.
-/

namespace Sys2Proof.Machine

open Sys2Proof

/-! ### What a slot runs -/

/-- The word that slot `n` runs next: the next word of its repeat frame, a word to be executed again, or the word at PC. -/
def nextWord (s : State) (n : Nat) : Except Trap Nat :=
  let x := s.slot n
  match x.frame, x.again with
  | some f, _ => .ok (f.words.getD f.rpos 0)
  | none, some w => .ok w
  | none, none => fetchWord s n x.pc

/-- The instruction that slot `n` runs next, with its word: staggered in a repeat frame (04 R88). -/
def nextInstr (s : State) (n : Nat) : Except Trap (Nat × Option Instr) :=
  match nextWord s n with
  | .error t => .error t
  | .ok w => .ok (w, match decode w, (s.slot n).frame with
    | .ok i, some f => some (stagger f i)
    | .ok i, none => some i
    | .error _, _ => none)

/-- Slot `n` issues: a word that cannot be fetched raises its fault, one that stands for no instruction raises ILLEGAL (04 R57,
R64). -/
def issueSlot (s : State) (n : Nat) : Host.Outcome State Fault Refusal :=
  match nextInstr s n with
  | .error t => .next (takeTrap s n t)
  | .ok (w, i?) =>
    let t := s.modSlot n fun x => { x with iw := w }
    match i? with
    | none => .next (takeTrap t n illegal)
    | some i => exec i t

/-! ### The issue rotation -/

/-- Whether the stage on a slot may issue (14 R248): a stage that is not parked, in folded form the active one; the resident handler
always. -/
def stageIssues (s : State) (x : Slot) : Bool :=
  x.inh || ((x.task.all fun k => k.kind != 2 || k.park == 0) && stageActive s x)

/-- Whether slot `n`, which waits for a resource or for its unit to leave, would not wait for it again if it were tried now. -/
def waitOver (s : State) (n : Nat) : Bool :=
  match issueSlot { s with cur := n } n with
  | .next t => (t.slot n).st != (s.slot n).st
  | _ => true

/-- Whether slot `n` can issue an instruction now (02 R26, R45): it runs, or what it waits for is there; the slot at which a PREEMPT request
is being taken issues nothing. -/
def issuable (s : State) (n : Nat) : Bool :=
  let x := s.slot n
  stageIssues s x && !preemptDue s n &&
    (x.st == .running || ((x.st == .interlocked .busy || x.st == .leaving) && waitOver s n))

/-- Whether core `c` issues at all: its die and its cluster run, and no stop holds it (20 R313; 24 R365). -/
def coreRuns (s : State) (c : Nat) : Bool :=
  if c < 2048 then clusterRuns s (c / 16) && !haltedCore s c
  else decide (c < 2096) && !(s.die (dieOfSlot (4 * c))).off && !haltedCore s c

/-- Whether slot `n` reaches a BRK in the cycle in which its core halts for that of another slot (20 R318). -/
def brkToo (s : State) (n : Nat) : Bool :=
  let c := s.core (coreOf n)
  c.brk && !c.halted && dieCycles s (dieOfSlot n) == c.brkAt && (s.slot n).st == .running && stageIssues s (s.slot n) &&
    (match nextInstr s n with
     | .ok (_, some .brk) => true
     | _ => false)

/-- Whether slot `n` has something to do at its turn. -/
def hasTurn (s : State) (n : Nat) : Bool := preemptActs s n || handlerDue s n || issuable s n

/-- The slot of core `c` whose turn it is (01 R9): the first in the order of their turns that has something to do. -/
def nextSlot (s : State) (c : Nat) : Option Nat :=
  let order := (s.core c).rot.map (4 * c + ·)
  if coreRuns s c then order.find? (hasTurn s) else order.find? (brkToo s)

/-- The order of turns after slot Tt has had its own: it comes last, and a slot that was skipped keeps its turn (01 R9): it
stays before the slots that have issued since (DESIGN CHOICE, log 7). -/
def turnDone (rot : List Nat) (t : Nat) : List Nat := rot.erase t ++ [t]

/-- The turn of core `c`: a PREEMPT request comes first, then a handler that is due, then an instruction. -/
def issueCore (s : State) (c : Nat) : Host.Outcome State Fault Refusal :=
  match nextSlot s c with
  | none => .next s
  | some n =>
    let t := { s.modCore c fun x => { x with rot := turnDone x.rot (slotIn n) } with cur := n }
    if preemptActs t n then execPreempt n t
    else if handlerDue t n then execHandlerEntry n t
    else issueSlot t n

/-! ### What happens between instructions -/

/-- Whether translations may be held by this number: a core's TLB, or the ingress translator (20 R298). -/
def holdsLeaves (holder : Nat) : Bool := decide (holder < 2096) || holder == ingressTlb

/-- A TLB, or the ingress translator, takes a leaf that a walk finds (20 R298). -/
def tlbFill (s : State) (core vi va : Nat) : State :=
  match walk s vi va with
  | none => s
  | some (e, size) => if holdsLeaves core then { s with tlb := s.tlb ++ [⟨core, vi, va / size * size, size, e⟩] } else s

/-- It takes the entry of a table above a leaf (20 R298). -/
def tlbTable (s : State) (core vi va size : Nat) : State :=
  let b := (s.vif vi).ptbr.toNat
  match walkTable s va size (bits b 51 15 * 2 ^ 15) walkLevels with
  | some e =>
    if bit b 0 && holdsLeaves core then { s with tlb := s.tlb ++ [⟨core, vi, va / size * size, size, e⟩] } else s
  | none => s

/-- Words that a quad's instruction cache of 64 KiB holds (01 R8). -/
def icWords : Nat := 16384

/-- A word put into the cache of its quad; the oldest one of a full cache goes. -/
def cacheWord (l : List ICell) (e : ICell) : List ICell :=
  if icWords ≤ (l.filter fun c => c.quad == e.quad).length then
    (match l.find? fun c => c.quad == e.quad with
     | some old => l.erase old
     | none => l) ++ [e]
  else l ++ [e]

/-- A quad's instruction cache takes the word that a fetch of slot `n` at `addr` would read from memory (04 R58). -/
def icFill (s : State) (n addr : Nat) : State :=
  let a := addr / 4 * 4
  match fetchCell s n a with
  | .error _ => s
  | .ok c =>
    let q := quadOf n
    let v := fetchSpace (s.slot n)
    if poisoned s c || s.icache.any fun e => e.quad == q && e.vi == v && e.addr == a then s
    else { s with icache := cacheWord s.icache ⟨q, v, a, s.raw c 4⟩ }

/-- One act of the agenda. -/
def perform (s : State) (a : Act) : Host.Outcome State Fault Refusal :=
  match a with
  | .issue c => issueCore s c
  | .event i => exec i s
  | .tlbFill c vi va => .next (tlbFill s c vi va)
  | .tlbTable c vi va size => .next (tlbTable s c vi va size)
  | .tlbDrop n => .next { s with tlb := s.tlb.eraseIdx n }
  | .icFill n addr => .next (icFill s n addr)
  | .icDrop n => .next { s with icache := s.icache.eraseIdx n }
  | .hostStore addr bs => .next (putBytes s (hostBase + addr % 2 ^ 63) (bs.map (· % 256)))
  | .mode late hold => .next { s with late := late, hold := hold }
  | .merge m => .next (mergeAtoms s m)
  | .mergeIn vi ks => .next (mergeIngress vi ks s)
  | .ack n seq => .next (storeAck s n seq)
  | .credit p i => .next (creditReturn p i s)
  | .attach p node => .next (attach p node s)
  | .nodeReset node => .next (nodeReset node s)
  | .ueRetry i => .next (ueRetry i s)
  | .barRead off => .next (barRead off s)
  | .aer vi => .next (aerError vi s)

/-- The next turn: the head of the agenda, or, when it is empty, one tick and the core of the slot that ran last. -/
def takeTurn (s : State) : Turn × State :=
  match s.agenda with
  | [] => (⟨1, .issue (coreOf s.cur)⟩, s)
  | t :: rest => (t, { s with agenda := rest })

/-- One step (95). -/
def runStep (s : State) : Host.Outcome State Fault Refusal :=
  if s.power = false then .fault .poweredOff
  else
    let (t, s1) := takeTurn s
    perform (tick s1 t.dt) t.act

/-! ### Placing an instruction -/

/-- Slot `n` brought to the point of a fetch: it runs, nothing is due before its next word, its turn is the next of its core, and
its core runs. -/
def readySlot (s : State) (n : Nat) : State :=
  let c := coreOf n
  let x := s.slot n
  let s1 := s.setSlot n { x with st := .running, frame := none, again := none, preReq := false, ready := none }
  let s2 := s1.modCore c fun y => { y with rot := slotIn n :: y.rot.erase (slotIn n), halted := false, brk := false }
  let s3 := s2.modDie (dieOfSlot n) fun d => { d with off := false }
  let s4 := if isWorker n then s3.modCluster (clusterOf n) fun y => { y with cur := 0 } else s3
  match x.task with
  | some k =>
    if k.kind = 2 then modChain (setPark s4 n 0) k.vi k.id fun d => { d with active := k.part } else s4
  | none => s4

/-- The slot's fetch address made one that translates: where it does not, the slot fetches privileged, from address 0 when PC lies
in the window space. -/
def readyFetch (s : State) (n : Nat) : State :=
  match fetchCell s n (s.slot n).pc with
  | .ok _ => s
  | .error _ => s.modSlot n fun x => { x with mode := true, pc := if winBase ≤ x.pc then 0 else x.pc }

/-- The word `w` stored where slot `n` fetches next, in no cache and not poisoned. -/
def storeFetch (s : State) (n w : Nat) : State :=
  let x := s.slot n
  match fetchCell s n x.pc with
  | .error _ => s
  | .ok c =>
    let s1 := s.setRaw c 4 (w % 2 ^ 32)
    { s1 with
      poison := s1.poison.filter fun g => g != c / 64
      icache := s1.icache.filter fun e => !(e.quad == quadOf n && e.vi == fetchSpace x && e.addr == x.pc) }

/-- `s` with a word where its next step fetches. -/
def placeWord (s : State) (nbits w : Nat) : State :=
  let n := s.cur
  let t := storeFetch (readyFetch (readySlot s n) n) n (w % 2 ^ nbits)
  { t with power := true, agenda := ⟨1, .issue (coreOf n)⟩ :: t.agenda }

end Sys2Proof.Machine
end

