-- ==== Sys2Proof/Machine/Step.lean ====
section
/-!
DEFINITION. The step of the machine, and the state in which its next step runs a given word.

Readings and choices of the model (log): DESIGN CHOICE 122.
-/

namespace Sys2Proof.Machine

open Sys2Proof

/-- One step of the package: what Machine/Run.lean says of its next turn. -/
def step (s : State) : Host.Outcome State Fault Refusal := Sys2Proof.Machine.runStep s

/-- `s` with the instruction whose bits are `w`, `nbits` of them and zeros above, where `step` fetches its next one. -/
def State.withFetchWord (s : State) (nbits w : Nat) : State := Sys2Proof.Machine.placeWord s nbits w

end Sys2Proof.Machine
end

