-- ==== Sys2Proof/Safety.lean ====
section
/-!
DEFINITION. What counts as a safe state and a safe run, and the frames that the claims use: which parts of a state an
instruction leaves as they are.
-/

namespace Sys2Proof

/-- The members that are no words: the steps of other agents (95). -/
def Instr.isAgentStep (i : Instr) : Bool :=
  match i with
  | .taskRetirement .. | .loadDataReturn .. | .fenceDrainEnd .. | .icinvDone .. | .heldRecordPost .. | .preempt ..
  | .taskDispatch .. | .taskRedispatch .. | .chainSwitch .. | .leaseGrantOffer .. | .leaseOfferTimeout .. | .leaseExpiry ..
  | .mxeCommandExecute .. | .msmmPass .. | .msmmBlockReserve .. | .copyExecute .. | .ringPush .. | .copyComplete ..
  | .streamBeat .. | .streamComplete .. | .offerRegistration .. | .resolverWindow .. | .claim .. | .claimAnswer ..
  | .claimRevoke .. | .claimRelease .. | .commitNotify .. | .freeAnnounce .. | .offertExpiry .. | .handlerEntry ..
  | .settleComplete .. | .rollup .. | .batchSummary .. | .closeRequest .. | .appendStatus .. | .atomicReply ..
  | .ingressDequeue .. | .remoteAppend .. | .pubPublish .. | .arrivalRecord .. | .ringLaunchRecord ..
  | .arrivalRingRelease .. | .hostLaunch .. | .hostCancel .. | .completionEntryPost .. | .launchCompletion ..
  | .tencfgWrite .. | .registrationWrite .. | .mscrWrite .. | .atomflagsClear .. | .smdataWrite .. | .smdataRead ..
  | .invalidateRange .. | .invalidateSpace .. | .invalidateAll .. | .invalidationAck .. | .attestationReport ..
  | .pstateRequest .. | .cstateC0 .. | .cstateC1 .. | .cstateC2 .. | .dieC3 .. | .dieC0 .. | .thermalTrip ..
  | .thermalShutdown .. | .pminApply .. | .flitReceive .. | .linkReplay .. | .portTrained .. | .nodeLoss ..
  | .functionLevelReset .. | .packageReset .. | .scAnnouncement .. | .ueSend .. | .ueWrite .. | .ueRead .. | .ueCompletion ..
  | .ueSendArrival .. | .registerWrite .. | .storeBufferDrain .. | .treeOperationResult .. | .uncorrectableError ..
  | .laneTrainingLost .. | .hostMemoryWrite .. | .ueWriteArrival .. | .ueReadArrival .. | .ueRetransmission .. => true
  | _ => false

end Sys2Proof

namespace Sys2Proof.Machine

open Sys2Proof

/-- The canonical form of the package's memory: cells ascending, none that reads as an unlisted one. -/
abbrev State.MemWf (s : State) : Prop := Memory.wf s.mem = true

/-- A state that a run can reach in some number of steps. -/
inductive Reaches : State → State → Prop where
  | refl (s : State) : Reaches s s
  | step {s t u : State} : Reaches s t → Sys2Proof.Machine.step t = .next u → Reaches s u

/-- A state from which a run does not stop with a fault. -/
def State.Goes (s : State) : Prop := ∃ t, Sys2Proof.Machine.step s = .next t

/-- The slot whose turn it is. -/
abbrev State.me (s : State) : Slot := s.slot s.cur

/-- No format prefix is pending, which is what an instruction that takes no format asks for (04 R77). -/
abbrev State.NoPrefix (s : State) : Prop := s.me.pfx = none

/-- Nothing of the state has changed but the running slot and its core's count of completed instructions: every byte of
memory, every other slot, every unit, every special register outside the slot is as before. -/
structure OwnSlotOnly (s t : State) : Prop where
  rest  : t = { s with slots := t.slots, cores := t.cores }
  bytes : ∀ a, t.byte a = s.byte a
  slots : ∀ m, m ≠ s.cur → t.slot m = s.slot m
  cores : ∀ c, t.core c = if c = coreOf s.cur then { s.core c with retired := (s.core c).retired + 1 } else s.core c

/-- The slot has completed one instruction (04 R56, R72, R77): INSTRET counts it, no prefix is pending, PC has moved to the next
word (inside a repeat frame as R88 says), and nothing but PC, INSTRET, the frame, the register files and FLAGS may differ. -/
structure Slot.Completed (x y : Slot) : Prop where
  pc      : x.frame = none → y.pc = (x.pc + 4) % 2 ^ 52 ∧ y.frame = none
  instret : y.instret = (x.instret + 1) % 2 ^ 64
  running : y.st = .running
  pfx     : y.pfx = none
  rest    : y = { x with
    st := .running, again := none, pfx := none, instret := y.instret, pc := y.pc, frame := y.frame,
    s := y.s, v := y.v, k := y.k, flags := y.flags }

/-- Every scalar register reads as before, but for register `d`, which reads `v`; s0 reads zero whatever is written (04 R65). -/
def Slot.WritesS (x y : Slot) (d : Nat) (v : Word) : Prop :=
  ∀ r, y.rs r = if r % 64 = d % 64 ∧ d % 64 ≠ 0 then v else x.rs r

/-- Every scalar register reads as before. -/
def Slot.KeepsS (x y : Slot) : Prop := ∀ r, y.rs r = x.rs r

/-- Every vector register reads as before. -/
def Slot.KeepsV (x y : Slot) : Prop := ∀ r, y.rv r = x.rv r

/-- Every predicate register reads as before. -/
def Slot.KeepsK (x y : Slot) : Prop := ∀ r, y.rk r = x.rk r

/-- Element `j` of width `w` of vector register `d` is `f j`, for every element, and every other vector register reads as
before (06 R93). -/
def Slot.WritesV (x y : Slot) (d w : Nat) (f : Nat → Nat) : Prop :=
  (∀ j, j < 1024 / w → elem w (y.rv d) j = f j) ∧ ∀ r, r % 32 ≠ d % 32 → y.rv r = x.rv r

/-- Bit `i` of predicate register `d` is `f i`, for every byte lane, and every other predicate register reads as before; k0 reads
all ones whatever is written (04 R65). -/
def Slot.WritesK (x y : Slot) (d : Nat) (f : Nat → Bool) : Prop :=
  (d % 8 ≠ 0 → ∀ i, i < 128 → (y.rk d).getLsbD i = f i) ∧ (∀ r, r % 8 ≠ d % 8 → y.rk r = x.rk r) ∧
    (d % 8 = 0 → x.KeepsK y)

/-- From `s` to `t` the running slot completes an instruction that writes scalar register `d` and nothing else. -/
abbrev ScalarDone (d : Nat) (v : Word) (s t : State) : Prop :=
  OwnSlotOnly s t ∧ s.me.Completed (t.slot s.cur) ∧ s.me.WritesS (t.slot s.cur) d v ∧
    s.me.KeepsV (t.slot s.cur) ∧ s.me.KeepsK (t.slot s.cur) ∧ (t.slot s.cur).flags = s.me.flags

/-- `exec i s` completes; it writes scalar register `d` and nothing else. -/
def ScalarResult (i : Instr) (s : State) (d : Nat) (v : Word) : Prop := ∃ t, exec i s = .next t ∧ ScalarDone d v s t

/-- `exec i s` completes; it writes vector register `d`, whose elements of width `w` are `f`, adds `fl` to FLAGS, and changes
nothing else. -/
def VectorResult (i : Instr) (s : State) (d w : Nat) (f : Nat → Nat) (fl : Nat) : Prop :=
  ∃ t, exec i s = .next t ∧ OwnSlotOnly s t ∧ s.me.Completed (t.slot s.cur) ∧ s.me.WritesV (t.slot s.cur) d w f ∧
    s.me.KeepsS (t.slot s.cur) ∧ s.me.KeepsK (t.slot s.cur) ∧ (t.slot s.cur).flags = s.me.flags ||| BitVec.ofNat 64 (fl % 32)

/-- `exec i s` completes; it writes predicate register `d`, whose bits are `f`, adds `fl` to FLAGS, and changes nothing else. -/
def PredResult (i : Instr) (s : State) (d : Nat) (f : Nat → Bool) (fl : Nat) : Prop :=
  ∃ t, exec i s = .next t ∧ OwnSlotOnly s t ∧ s.me.Completed (t.slot s.cur) ∧ s.me.WritesK (t.slot s.cur) d f ∧
    s.me.KeepsS (t.slot s.cur) ∧ s.me.KeepsV (t.slot s.cur) ∧ (t.slot s.cur).flags = s.me.flags ||| BitVec.ofNat 64 (fl % 32)

/-- `exec i s` completes and changes nothing but PC and INSTRET. -/
def NoEffect (i : Instr) (s : State) : Prop :=
  ∃ t, exec i s = .next t ∧ OwnSlotOnly s t ∧ s.me.Completed (t.slot s.cur) ∧ s.me.KeepsS (t.slot s.cur) ∧
    s.me.KeepsV (t.slot s.cur) ∧ s.me.KeepsK (t.slot s.cur) ∧ (t.slot s.cur).flags = s.me.flags

/-- `exec i s` completes with the slot as `y` in everything but PC, INSTRET and the state of a running slot: PC is `pc`. -/
def GoesTo (i : Instr) (s : State) (y : Slot) (pc : Nat) : Prop :=
  ∃ t, exec i s = .next t ∧ OwnSlotOnly s t ∧
    t.slot s.cur = { y with st := .running, again := none, pc := pc, instret := (s.me.instret + 1) % 2 ^ 64 }

/-- `exec i s` completes: control register `num` of the slot reads `new` after it, s[d] the old value, and no other register differs
(INSTRET counts). -/
def CsrResult (i : Instr) (s : State) (d num : Nat) (old new : Word) : Prop :=
  ∃ t, exec i s = .next t ∧ OwnSlotOnly s t ∧ (t.slot s.cur).pc = (s.me.pc + 4) % 2 ^ 52 ∧
    s.me.WritesS (t.slot s.cur) d old ∧ s.me.KeepsV (t.slot s.cur) ∧ s.me.KeepsK (t.slot s.cur) ∧
    csrRead t s.cur num = some new ∧ ∀ m, m ≠ num → m ≠ 0x05 → csrRead t s.cur m = csrRead s s.cur m

/-- `exec i s` completes and writes a control register that the slot may share with others (20 R296): register `num` reads `new` after it, s[d]
the old value; no other register of the slot differs, and no other control register that it reads, but INSTRET, and, after VISEL, the copies
that it selects; no other slot and no byte differs, but for MSCR bytes of Mere scratch. -/
def CsrWritten (i : Instr) (s : State) (d num : Nat) (old new : Word) : Prop :=
  ∃ t, exec i s = .next t ∧ (s.me.frame = none → (t.slot s.cur).pc = (s.me.pc + 4) % 2 ^ 52) ∧
    s.me.WritesS (t.slot s.cur) d old ∧ s.me.KeepsV (t.slot s.cur) ∧ s.me.KeepsK (t.slot s.cur) ∧
    csrRead t s.cur num = some new ∧
    (∀ m, m ≠ num → m ≠ 0x05 → ¬(num = 0x20 ∧ 0x21 ≤ m ∧ m ≤ 0x26) → csrRead t s.cur m = csrRead s s.cur m) ∧
    (∀ m, m ≠ s.cur → t.slot m = s.slot m) ∧ ∀ a, num ≠ 0x27 ∨ a < 2 ^ 67 ∨ 2 ^ 68 ≤ a → t.byte a = s.byte a

/-- Whether RPT may capture a word (04 R89): majors 0x01 to 0x08, majors 0x20 to 0x27 but TBLLD, FMTP. -/
abbrev mayCapture (w : Nat) : Prop :=
  let m := w / 2 ^ 26 % 64
  (1 ≤ m ∧ m ≤ 8) ∨ (0x20 ≤ m ∧ m ≤ 0x27 ∧ ¬(m = 0x25 ∧ w % 8 = 6)) ∨ m = 0x3F

/-! ### Elements of vector registers -/

/-- The flags of the active elements of width `w` together (06 R94). -/
def activeFlags (k : Pred) (w : Nat) (fl : Nat → Nat) : Nat :=
  (List.range (1024 / w)).foldl (fun m j => if active k w j then m ||| fl j else m) 0

/-- `exec i s` completes and writes element `j` of width `w` of vector register `d` with `f j` where the element is active in `k`, adds
the flags of the active elements, and changes nothing else (06 R94). -/
def LaneResult (i : Instr) (s : State) (d k w : Nat) (f : Nat → Nat × Nat) : Prop :=
  VectorResult i s d w (fun j => if active (s.me.rk k) w j then (f j).1 else elem w (s.me.rv d) j)
    (activeFlags (s.me.rk k) w fun j => (f j).2)

/-- Element `j` of width `w` of a vector register, as bits (06 R93). -/
def laneBits (v : Vec) (w j : Nat) : BitVec w := v.extractLsb' (w * j) w

/-! ### Rounding -/

/-- The number that a finite value stands for (06 R95). -/
def FVal.rat (v : FVal) : ℚ :=
  match v with
  | .fin b m e => (if b then -1 else 1) * m * 2 ^ e
  | _ => 0

/-- Whether the number `x`, rounded with unbounded exponents into a format with infinities, exceeds its largest finite number (06 R99): that
is one unit of its last place below 2^(ones − bias). -/
def overflows (f : Fmt) (md : Rnd) (x : ℚ) : Prop :=
  let top : ℚ := 2 ^ ((f.ones : Int) - f.bias)
  let ulp : ℚ := 2 ^ ((f.ones : Int) - f.bias - 1 - f.m)
  match md with
  | .rne => top - ulp / 2 ≤ |x|
  | .rtz => top ≤ |x|
  | .rup => if 0 < x then top - ulp < x else top ≤ -x
  | .rdn => if x < 0 then top - ulp < -x else top ≤ x
  | .sr _ _ => False

/-- Whether the number `x` is tiny (06 R98): rounded with unbounded exponents it stays below the smallest normal magnitude. -/
def tinyFor (f : Fmt) (md : Rnd) (x : ℚ) : Prop :=
  let least : ℚ := 2 ^ (1 - (f.bias : Int))
  let step : ℚ := 2 ^ (-(f.bias : Int) - f.m)
  match md with
  | .rne => |x| < least - step / 2
  | .rup => if 0 < x then x ≤ least - step else |x| < least
  | .rdn => if x < 0 then -x ≤ least - step else |x| < least
  | _ => |x| < least

/-- `r` is the code and the flags of the nonzero number `x` rounded into a format with infinities (06 R98, R99, R101). -/
structure Rounds (f : Fmt) (md : Rnd) (x : ℚ) (r : Nat × Nat) : Prop where
  beyond : overflows f md x → r = (overflowCode f md (decide (x < 0)), flOF + flNX)
  finite : ¬overflows f md x → r.1 < 2 ^ f.w ∧ ∃ m e, fdec f r.1 = .fin (decide (x < 0)) m e
  flags  : ¬overflows f md x →
    ((fdec f r.1).rat = x → r.2 = 0) ∧ ((fdec f r.1).rat ≠ x → tinyFor f md x → r.2 = flNX + flUF) ∧
    ((fdec f r.1).rat ≠ x → ¬tinyFor f md x → r.2 = flNX)
  picked : ¬overflows f md x → ∀ c, c < 2 ^ f.w → (fdec f c).isFin = true →
    let v := (fdec f r.1).rat
    let u := (fdec f c).rat
    match md with
    | .rne => |x - v| ≤ |x - u| ∧ (|x - v| = |x - u| → u ≠ v → r.1 % 2 = 0)
    | .rtz => |v| ≤ |x| ∧ (|u| ≤ |x| → |u| ≤ |v|)
    | .rup => x ≤ v ∧ (x ≤ u → v ≤ u)
    | .rdn => v ≤ x ∧ (u ≤ x → u ≤ v)
    | .sr _ _ => True

/-! ### Accesses to memory -/

/-- An access of the running slot that meets nothing out of the way (08 R135 to R144, R152, R154): it stays on the node, is aligned as
`align` says and names the cells `cells`; no byte of it lies in a guard granule or in a poisoned one; no earlier store of the slot
waits. -/
structure Accessible (s : State) (ea size align kind order : Nat) (cells : List Nat) : Prop where
  here    : isRemote s ea = false
  aligned : ea % align = 0
  named   : localCells s s.cur s.me.mode ea size kind order = .ok cells
  clean   : ∀ c ∈ cells, guarded s c = false ∧ poisoned s c = false
  quiet   : s.me.sb = []
  awake   : asleep s cells = false

/-- What a store to `cells` asks besides: the memory is in canonical form, the cells differ, and a cell of a Tarn lies in one in which
no multicast ring is known (08 R146, R147: a ring's REL words have an effect of their own). -/
structure Storable (s : State) (cells : List Nat) : Prop where
  wf    : s.MemWf
  nodup : cells.Nodup
  ring  : ∀ c ∈ cells, isTarn c = true → (s.cluster ((c - 2 ^ 66) / 2 ^ 22)).mrb = []

/-- From `s` to `t`, slot `n` apart, only the bytes `cells` change, to `data`; of the dies at most tile counts and ATOMFLAGS differ, of
the tenants at most the bumps owed to the roll-up (16 R265, R266; 08 R162). -/
structure StoresOnly (s t : State) (n : Nat) (cells data : List Nat) : Prop where
  stored : cells.map t.byte = data
  bytes  : ∀ a, a ∉ cells → t.byte a = s.byte a
  wf     : t.MemWf
  slots  : ∀ m, m ≠ n → t.slot m = s.slot m
  cores  : ∀ c, c ≠ coreOf n → t.core c = s.core c
  dies   : ∀ d, t.die d = { s.die d with tiles := (t.die d).tiles, atomf := (t.die d).atomf }
  vis    : ∀ v, t.vif v = { s.vif v with owed := (t.vif v).owed }
  rest   : t = { s with
    slots := t.slots, cores := t.cores, mem := t.mem, poison := t.poison, dies := t.dies, vis := t.vis, fresh := t.fresh }

/-- From `s` to `t` the running slot completes an instruction that stores `data` to `cells` and changes no register. -/
abbrev StoreDone (cells data : List Nat) (s t : State) : Prop :=
  StoresOnly s t s.cur cells data ∧ s.me.Completed (t.slot s.cur) ∧ s.me.KeepsS (t.slot s.cur) ∧
    s.me.KeepsV (t.slot s.cur) ∧ s.me.KeepsK (t.slot s.cur) ∧ (t.slot s.cur).flags = s.me.flags

/-- From `s` to `t` the running slot completes an instruction that stores `data` to `cells`, returns `old` in scalar register `d`, adds
`fl` to FLAGS unless `d` is s0, and changes no other register. -/
abbrev AtomicDone (d : Nat) (cells data : List Nat) (old : Word) (fl : Nat) (s t : State) : Prop :=
  StoresOnly s t s.cur cells data ∧ s.me.Completed (t.slot s.cur) ∧ s.me.WritesS (t.slot s.cur) d old ∧
    s.me.KeepsV (t.slot s.cur) ∧ s.me.KeepsK (t.slot s.cur) ∧
    (t.slot s.cur).flags = if d % 64 = 0 then s.me.flags else s.me.flags ||| BitVec.ofNat 64 (fl % 32)

/-- `exec i s` completes, stores `data` to `cells`, and changes no register. -/
def StoreResult (i : Instr) (s : State) (cells data : List Nat) : Prop := ∃ t, exec i s = .next t ∧ StoreDone cells data s t

/-- `exec i s` completes an access of order `o` with the outcome `r`. One of order 11 is besides announced among the SC operations, in
the window of the present tick, with its core's number and its place among the announced operations of the core (18 R282). -/
def Ordered (i : Instr) (s : State) (o : Nat) (r : State → State → Prop) : Prop :=
  if o = 3 then
    ∃ t e, exec i s = .next t ∧ t.sc = s.sc ++ [e] ∧ e.window = s.time / 64 ∧ e.core = coreOf s.cur ∧ e.slot = s.cur ∧
      e.idx = (s.sc.filter fun f => f.window == s.time / 64 && f.core == coreOf s.cur).length ∧ r s { t with sc := s.sc }
  else ∃ t, exec i s = .next t ∧ r s t

/-- What a load of width code `w` makes of a number of its size (04 R61; 08 R153); not for pairs. -/
def loadValue (w v : Nat) : Word :=
  if w = 0 then (BitVec.ofNat 8 v).signExtend 64
  else if w = 2 then (BitVec.ofNat 16 v).signExtend 64
  else if w = 4 then (BitVec.ofNat 32 v).signExtend 64
  else BitVec.ofNat 64 v

/-- From `s` to `t` the running slot completes an instruction that writes the pair of scalar registers `d`, `d + 1` and nothing else. -/
abbrev PairDone (d : Nat) (lo hi : Word) (s t : State) : Prop :=
  OwnSlotOnly s t ∧ s.me.Completed (t.slot s.cur) ∧
    (∀ r, (t.slot s.cur).rs r =
      if r % 64 = d % 64 ∧ d % 64 ≠ 0 then lo else if r % 64 = (d + 1) % 64 then hi else s.me.rs r) ∧
    s.me.KeepsV (t.slot s.cur) ∧ s.me.KeepsK (t.slot s.cur) ∧ (t.slot s.cur).flags = s.me.flags

/-- The slot waits as `w` says: PC, registers, flags and everything else of it are as before, and it replays the word that it has
fetched. -/
def Slot.Waits (x y : Slot) (w : Wait) : Prop :=
  y = { x with st := .interlocked w, again := if x.frame.isNone then some x.iw else none }

/-- From `s` to `t`, party `p` offers event `ev`: the offer is on its way to the event's home, unless the event is stale or broken
(10 R172, R180, R186). -/
def Offered (s t : State) (p : Nat) (ev : Option EvRef) : Prop :=
  ∀ r v, ev = some r → r.away = false → evOf s r = some v → v.broken = false →
    ⟨agentSrc p, homeSrc r.home, .engine p r.idx r.gen⟩ ∈ t.msgs

/-- The device writes the doubleword `w` at cell `c` and then offers event `ev` for party `p` (08 R166, R168; 10 R180): no other byte
differs; an offer for a broken or stale event is discarded. -/
structure WordAndOffer (s t : State) (c w p : Nat) (ev : Option EvRef) : Prop where
  word  : t.raw c 8 = w
  bytes : ∀ a, a < c ∨ c + 8 ≤ a → t.byte a = s.byte a
  offer : Offered s t p ev

/-- The cells of a doubleword that the device may write: memory in canonical form, no byte in a guard granule or in a Tarn in which a
multicast ring is known. -/
def State.WordAt (s : State) (c : Nat) : Prop :=
  s.MemWf ∧ ∀ j, j < 8 → guarded s (c + j) = false ∧ (isTarn (c + j) = true → (s.cluster ((c + j - 2 ^ 66) / 2 ^ 22)).mrb = [])

/-- A message with this packet stands in the replay buffer of a port, or waits there for its credits (24 R343, R344). -/
def State.Sent (s : State) (m : Packet) : Prop := ∃ p, (∃ f ∈ (s.port p).buf, f.packet = some m) ∨ m ∈ (s.port p).wait

/-! ### The engines of a cluster -/

/-- The cluster of the running slot. -/
abbrev State.mine (s : State) : Nat := clusterOf s.cur

/-- A command of the matrix engine is accepted (12 R205, R213): it stands last in the queue with its event, its PC and the decode
tables of now; the lease, for a command that needs one, has one command less; PC moves on; no byte of memory, no other cluster and no
other slot differs. -/
structure MxAccepted (s t : State) (leased : Bool) (op : MxOp) (tiles : List Nat) (ev : Option EvRef) : Prop where
  queue  : (t.cluster s.mine).mx = (s.cluster s.mine).mx ++
    [⟨op, s.cur, tiles, s.me.pc, ev, s.me.instret, (s.core (coreOf s.cur)).tabA, (s.core (coreOf s.cur)).tabB⟩]
  lease  : (t.cluster s.mine).lease =
    let l := (s.cluster s.mine).lease
    if leased then (if l.count + 1 < 32 then { l with count := l.count + 1 } else { l with holder := none, count := 0 }) else l
  pc     : (t.slot s.cur).pc = (s.me.pc + 4) % 2 ^ 52
  pfx    : (t.slot s.cur).pfx = none
  bytes  : ∀ a, t.byte a = s.byte a
  other  : ∀ q, q ≠ s.mine → t.cluster q = s.cluster q
  slots  : ∀ n, n ≠ s.cur → t.slot n = s.slot n

/-- Ring `r` of cluster `p` (12 R209). -/
abbrev State.ring (s : State) (p r : Nat) : Ring := (s.cluster p).rings.get r {}

/-- A command of the matrix engine at the head of the queue of cluster `p`, which runs; its slot's core is not halted, and no
command that a task has brought back still waits for room (12 R213, R215; 20 R313). -/
structure MxHead (s : State) (p : Nat) (c : MxCmd) (rest : List MxCmd) : Prop where
  runs    : clusterRuns s p = true
  queue   : (s.cluster p).mx = c :: rest
  going   : haltedCore s (coreOf c.slot) = false
  settled : ∀ n, clusterOf n = p → (s.slot n).held = [] ∨ (s.slot n).inh = true

/-- The head command of cluster `p` has completed (12 R213, R214): it has left the queue, its flags wait with its slot, its agent
offers its event. -/
structure MxCompleted (s t : State) (p : Nat) (c : MxCmd) (rest : List MxCmd) (fl : Nat) : Prop where
  queue : (t.cluster p).mx = rest
  flags : (t.slot c.slot).mflags = (s.slot c.slot).mflags ||| fl
  offer : Offered s t (partyOf s 3 c.slot) c.ev

end Sys2Proof.Machine
end

