-- ==== Sys2Proof/Certificates/Slice0/Obligations.lean ====
section
/-!
DEFINITION. The statements of this row. Each says under its name what a rule of spec/ says; the frames are those of
Sys2Proof/Safety.lean.
-/

open Sys2Proof Sys2Proof.Machine

/-! ### Scalar instructions -/

/-- 04 R79, the arithmetic members: results modulo 2^64, the high halves of the products, the division corners. -/
def Obligations.ScalarArithmeticResults : Prop :=
  ∀ (s : State) (d a b : Nat), s.NoPrefix →
    let x := s.me.rs a
    let y := s.me.rs b
    ScalarResult (.add d a b) s d (BitVec.ofNat 64 (x.toNat + y.toNat)) ∧
    ScalarResult (.sub d a b) s d (BitVec.ofInt 64 (x.toInt - y.toInt)) ∧
    ScalarResult (.mul d a b) s d (BitVec.ofNat 64 (x.toNat * y.toNat)) ∧
    ScalarResult (.mulh d a b) s d (BitVec.extractLsb' 64 64 (BitVec.ofInt 128 (x.toInt * y.toInt))) ∧
    ScalarResult (.mulhn d a b) s d (BitVec.extractLsb' 64 64 (BitVec.ofNat 128 (x.toNat * y.toNat))) ∧
    ScalarResult (.div d a b) s d
      (if y = 0 then BitVec.allOnes 64 else BitVec.ofInt 64 (Int.tdiv x.toInt y.toInt)) ∧
    ScalarResult (.divn d a b) s d
      (if y = 0 then BitVec.allOnes 64 else BitVec.ofNat 64 (x.toNat / y.toNat)) ∧
    ScalarResult (.rem d a b) s d (if y = 0 then x else BitVec.ofInt 64 (Int.tmod x.toInt y.toInt)) ∧
    ScalarResult (.remn d a b) s d (if y = 0 then x else BitVec.ofNat 64 (x.toNat % y.toNat))

/-- 04 R79, the logical, shift, rotate, minimum, maximum, compare and select members. -/
def Obligations.ScalarLogicShiftCompareResults : Prop :=
  ∀ (s : State) (d a b : Nat), s.NoPrefix →
    let x := s.me.rs a
    let y := s.me.rs b
    let sh := y.toNat % 64
    ScalarResult (.and d a b) s d (x &&& y) ∧ ScalarResult (.or d a b) s d (x ||| y) ∧
    ScalarResult (.xor d a b) s d (x ^^^ y) ∧ ScalarResult (.andn d a b) s d (x &&& ~~~y) ∧
    ScalarResult (.shl d a b) s d (BitVec.ofNat 64 (x.toNat * 2 ^ sh)) ∧
    ScalarResult (.shr d a b) s d (BitVec.ofNat 64 (x.toNat / 2 ^ sh)) ∧
    ScalarResult (.sar d a b) s d (BitVec.ofInt 64 (x.toInt / 2 ^ sh)) ∧
    ScalarResult (.rotl d a b) s d (x.rotateLeft sh) ∧
    ScalarResult (.min d a b) s d (if x.sle y then x else y) ∧
    ScalarResult (.max d a b) s d (if x.sle y then y else x) ∧
    ScalarResult (.minn d a b) s d (if x ≤ y then x else y) ∧
    ScalarResult (.maxn d a b) s d (if x ≤ y then y else x) ∧
    ScalarResult (.seq d a b) s d (if x = y then 1 else 0) ∧
    ScalarResult (.sne d a b) s d (if x = y then 0 else 1) ∧
    ScalarResult (.slt d a b) s d (if x.slt y then 1 else 0) ∧
    ScalarResult (.sltn d a b) s d (if x < y then 1 else 0) ∧
    ScalarResult (.sle d a b) s d (if x.sle y then 1 else 0) ∧
    ScalarResult (.slen d a b) s d (if x ≤ y then 1 else 0) ∧
    ScalarResult (.sel d a b) s d (if s.me.rs d ≠ 0 then x else y)

/-- 04 R79, the bit counts, SEXT, EXT and INS. -/
def Obligations.ScalarBitFieldResults : Prop :=
  ∀ (s : State) (d a b : Nat), s.NoPrefix →
    let x := s.me.rs a
    let y := s.me.rs b
    let p := y.toNat % 64
    let w := y.toNat / 2 ^ 8 % 64 + 1
    let m : Word := BitVec.ofNat 64 ((2 ^ w - 1) * 2 ^ p)
    (∃ k, k ≤ 64 ∧ (∀ i, 64 - k ≤ i → x.getLsbD i = false) ∧ (k < 64 → x.getLsbD (63 - k) = true) ∧
      ScalarResult (.clz d a) s d (BitVec.ofNat 64 k)) ∧
    (∃ k, k ≤ 64 ∧ (∀ i, i < k → x.getLsbD i = false) ∧ (k < 64 → x.getLsbD k = true) ∧
      ScalarResult (.ctz d a) s d (BitVec.ofNat 64 k)) ∧
    ScalarResult (.popc d a) s d (BitVec.ofNat 64 ((List.range 64).countP fun i => x.getLsbD i)) ∧
    ScalarResult (.sext d a b) s d ((x.setWidth (p + 1)).signExtend 64) ∧
    ScalarResult (.ext d a b) s d ((x >>> p) &&& BitVec.ofNat 64 (2 ^ w - 1)) ∧
    ScalarResult (.ins d a b) s d ((s.me.rs d &&& ~~~m) ||| ((x <<< p) &&& m))

/-- 04 R80: the words and the results of the immediate families, of LUI and of ADDPC; a shift immediate with a nonzero bit 11–6 is
ILLEGAL. -/
def Obligations.ScalarImmediateResults : Prop :=
  (∀ d a i k u : Nat, d < 64 → a < 64 → i < 2 ^ 14 → k < 64 → u < 2 ^ 20 →
    let w := fun (m : Nat) => m * 2 ^ 26 + d * 2 ^ 20 + a * 2 ^ 14
    decode (w 2 + i) = .ok (.addi d a i) ∧ decode (w 3 + i) = .ok (.andi d a i) ∧ decode (w 4 + i) = .ok (.ori d a i) ∧
    decode (w 5 + i) = .ok (.xori d a i) ∧ decode (w 7 + i) = .ok (.slti d a i) ∧ decode (w 8 + i) = .ok (.sltin d a i) ∧
    decode (w 6 + k) = .ok (.shli d a k) ∧ decode (w 6 + 2 ^ 12 + k) = .ok (.shri d a k) ∧
    decode (w 6 + 2 ^ 13 + k) = .ok (.sari d a k) ∧ decode (w 6 + 3 * 2 ^ 12 + k) = .ok (.rotli d a k) ∧
    decode (9 * 2 ^ 26 + d * 2 ^ 20 + u) = .ok (.lui d u) ∧ decode (10 * 2 ^ 26 + d * 2 ^ 20 + u) = .ok (.addpc d u)) ∧
  (∀ (s : State) (n w : Nat), nextWord s n = .ok w → w < 2 ^ 32 → bits w 31 26 = 6 → bits w 11 6 ≠ 0 →
    issueSlot s n = .next (takeTrap (s.modSlot n fun x => { x with iw := w }) n { code := 0x01 })) ∧
  ∀ (s : State) (d a i k : Nat), s.NoPrefix → i < 2 ^ 14 → k < 64 →
    let x := s.me.rs a
    let se := (BitVec.ofNat 14 i).signExtend 64
    let ze := (BitVec.ofNat 14 i).setWidth 64
    ScalarResult (.addi d a i) s d (x + se) ∧ ScalarResult (.andi d a i) s d (x &&& se) ∧
    ScalarResult (.ori d a i) s d (x ||| ze) ∧ ScalarResult (.xori d a i) s d (x ^^^ ze) ∧
    ScalarResult (.slti d a i) s d (if x.slt se then 1 else 0) ∧
    ScalarResult (.sltin d a i) s d (if x < se then 1 else 0) ∧
    ScalarResult (.shli d a k) s d (BitVec.ofNat 64 (x.toNat * 2 ^ k)) ∧
    ScalarResult (.shri d a k) s d (BitVec.ofNat 64 (x.toNat / 2 ^ k)) ∧
    ScalarResult (.sari d a k) s d (BitVec.ofInt 64 (x.toInt / 2 ^ k)) ∧
    ScalarResult (.rotli d a k) s d (x.rotateLeft k) ∧
    ∀ u, u < 2 ^ 20 →
      ScalarResult (.lui d u) s d (((BitVec.ofNat 20 u).signExtend 64) <<< 14) ∧
      ScalarResult (.addpc d u) s d
        ((BitVec.ofNat 52 s.me.pc + ((BitVec.ofNat 20 u).signExtend 52) <<< 2).setWidth 64)

/-! ### Control transfer -/

/-- 04 R81, R82: the words and the effects of the conditional branches, J and JL; a branch or jump stands outside every repeat frame
(R89). A word of major 0x0B with the conditions 110 or 111 is ILLEGAL. -/
def Obligations.BranchesAndDirectJumps : Prop :=
  (∀ a p q : Nat, a < 64 → p < 2 ^ 17 → q < 2 ^ 26 →
    let w := fun (c : Nat) => 0x0B * 2 ^ 26 + c * 2 ^ 23 + a * 2 ^ 17 + p
    decode (w 0) = .ok (.bz a p) ∧ decode (w 1) = .ok (.bnz a p) ∧ decode (w 2) = .ok (.bltz a p) ∧
    decode (w 3) = .ok (.bgez a p) ∧ decode (w 4) = .ok (.bgtz a p) ∧ decode (w 5) = .ok (.blez a p) ∧
    decode (0x0C * 2 ^ 26 + q) = .ok (.j q) ∧ decode (0x0D * 2 ^ 26 + q) = .ok (.jl q)) ∧
  (∀ (s : State) (n w : Nat), nextWord s n = .ok w → w < 2 ^ 32 → bits w 31 26 = 0x0B → 6 ≤ bits w 25 23 →
    issueSlot s n = .next (takeTrap (s.modSlot n fun x => { x with iw := w }) n { code := 0x01 })) ∧
  ∀ (s : State) (a p q : Nat), s.NoPrefix → s.me.frame = none →
    let x := s.me.rs a
    let next := (s.me.pc + 4) % 2 ^ 52
    let target := (BitVec.ofNat 52 s.me.pc + 4 * (BitVec.ofNat 17 p).signExtend 52).toNat
    let far := (BitVec.ofNat 52 s.me.pc + 4 * (BitVec.ofNat 26 q).signExtend 52).toNat
    GoesTo (.bz a p) s s.me (if x = 0 then target else next) ∧
    GoesTo (.bnz a p) s s.me (if x = 0 then next else target) ∧
    GoesTo (.bltz a p) s s.me (if x.msb then target else next) ∧
    GoesTo (.bgez a p) s s.me (if x.msb then next else target) ∧
    GoesTo (.bgtz a p) s s.me (if x.msb ∨ x = 0 then next else target) ∧
    GoesTo (.blez a p) s s.me (if x.msb ∨ x = 0 then target else next) ∧
    GoesTo (.j q) s s.me far ∧
    GoesTo (.jl q) s (s.me.ws 62 (BitVec.ofNat 64 next)) far

/-- 04 R84, R85: JX and CALLX go to an aligned target that holds a PAD with the label asked for; RET goes to s62; CALLX writes the
return address to s62. The hypotheses on the target are what the landing check reads: the word fetched there. Where the check fails, the
transfer takes its fault, with the target in the record, and no register is written: ALIGN for a misaligned target, CFI for a word that is
no PAD with the label; RET raises CFI for a zero return address. -/
def Obligations.IndirectTransfersLandOnPads : Prop :=
  ∀ (s : State) (a b w : Nat), s.NoPrefix →
    let t := (s.me.rs a).toNat % 2 ^ 52
    let label := (s.me.rs b).toNat % 2 ^ 20
    let back := (s.me.rs 62).toNat % 2 ^ 52
    (t % 4 = 0 → fetchWord s s.cur t = .ok (0x3C000000 + label) →
      GoesTo (.jx a b) s s.me t ∧
      GoesTo (.callx a b) s (s.me.ws 62 (BitVec.ofNat 64 ((s.me.pc + 4) % 2 ^ 52))) t) ∧
    (back % 4 = 0 → back ≠ 0 → GoesTo .ret s s.me back) ∧
    (t % 4 ≠ 0 → ∀ i, i = .jx a b ∨ i = .callx a b →
      exec i s = .next (takeTrap s s.cur { code := 0x03, addr := t })) ∧
    (t % 4 = 0 → w < 2 ^ 32 → fetchWord s s.cur t = .ok w → w ≠ 0x3C000000 + label → ∀ i, i = .jx a b ∨ i = .callx a b →
      exec i s = .next (takeTrap s s.cur { code := 0x07, addr := t })) ∧
    (back = 0 → exec .ret s = .next (takeTrap s s.cur { code := 0x07 })) ∧
    (back % 4 ≠ 0 → exec .ret s = .next (takeTrap s s.cur { code := 0x03, addr := back }))

/-- 04 R84, R86: JT takes the entry of its table, below the bound, and lands on the PAD that the entry names (`s1` is the state after the
load of the entry, an ordinary load of the slot: it follows the slot's stores, and adds a guard report at most). An entry on another
node is asked for there, and the slot waits for it. An index that is not below the bound, as natural numbers, raises BOUND and nothing
else happens. -/
def Obligations.TableJumps : Prop :=
  (∀ (s s1 : State) (d a b e : Nat), s.NoPrefix →
     let base := (s.me.rs d).toNat
     let i := (s.me.rs a).toNat
     let ea := (base + 8 * i) % 2 ^ 64
     let t := (BitVec.ofNat 52 base + (BitVec.ofNat 32 (e % 2 ^ 32)).signExtend 52).toNat
     i < (s.me.rs b).toNat → base % 8 = 0 →
     (isRemote s ea = false → sleeps s s.cur s.me.mode ea 8 1 = false → readLocal (drainStores s s.cur) s.cur ea 8 1 0 = .ok (e, s1) →
       bits e 43 32 = 0 → t % 4 = 0 → bits e 1 0 = 0 → fetchWord s1 s.cur t = .ok (0x3C000000 + bits e 63 44) →
       ∃ u, exec (.jt d a b) s = .next u ∧ OwnSlotOnly { s1 with cur := s.cur } u ∧
         u.slot s.cur = { s1.slot s.cur with
           st := .running, again := none, pc := t, instret := ((s1.slot s.cur).instret + 1) % 2 ^ 64 }) ∧
     (isRemote s ea = true → usablePorts s (ea / 2 ^ 52) ≠ [] → ∃ u, exec (.jt d a b) s = .next u ∧
       (u.slot s.cur).st = .interlocked (.remote (.jt d a b) [⟨s.me.seq, ea / 2 ^ 52, ea⟩]) ∧ (u.slot s.cur).pc = s.me.pc ∧
       ∀ c, u.byte c = s.byte c)) ∧
  (∀ (s : State) (d a b : Nat), s.NoPrefix → (s.me.rs b).toNat ≤ (s.me.rs a).toNat →
     exec (.jt d a b) s = .next (takeTrap s s.cur { code := 0x08 }))

/-- 04 R75, R83, R91: NOP and PAD only advance PC; TID and TGRP read the numbers of the task (02 R27). 04 R77: FMTP makes the prefix
pending, and the formats in force for the next instruction are those of the prefix. A prefix before an instruction that takes no format
raises ILLEGAL at that instruction, whichever it is; the slot's own step does nothing else. -/
def Obligations.NopPadTaskNumbersAndPrefixes : Prop :=
  (∀ (s : State) (d l : Nat), s.NoPrefix →
    NoEffect .nop s ∧ NoEffect (.pad l) s ∧
    ∀ k, s.me.task = some k →
      ScalarResult (.tid d) s d
        (BitVec.ofNat 16 0 ++ BitVec.ofNat 16 k.z ++ BitVec.ofNat 16 k.y ++ BitVec.ofNat 16 k.x) ∧
      ScalarResult (.tgrp d) s d ((BitVec.ofNat 32 k.group).setWidth 64)) ∧
  (∀ (s : State) (a b r m k : Nat), s.NoPrefix → s.me.frame = none → a < 16 → b < 16 → r < 16 → m < 4 → k < 16 →
     ∃ p, GoesTo (.fmtp a b r m k) s { s.me with pfx := some p } ((s.me.pc + 4) % 2 ^ 52) ∧
       fmtsOf { s.me with pfx := some p } = ⟨a, b, r, k, m⟩) ∧
  (∀ (s : State) (i : Instr), s.me.pfx ≠ none → i.isAgentStep = false → i.takesFormat = false →
     exec i s = .next (takeTrap s s.cur { code := 0x01 }))

/-- 04 R87 to R89: RPT of words that may all be captured, each FMTP followed in the body by an instruction that takes formats, begins a
frame at the first of them, or moves past them when the count is zero; any other word makes it ILLEGAL. -/
def Obligations.RepeatCapturesItsBody : Prop :=
  ∀ (s : State) (l c x y z : Nat) (ws : List Nat), s.NoPrefix →
    captureWords s s.cur ((s.me.pc + 4) % 2 ^ 52) (l + 1) = .ok ws → 5 ∉ ws →
    let count := (s.me.rs c).toNat % 2 ^ 32
    let ok := (∀ w ∈ ws, mayCapture w) ∧ ∀ i w, ws[i]? = some w → w / 2 ^ 26 % 64 = 0x3F →
      ∃ u j, ws[i + 1]? = some u ∧ decode u = .ok j ∧ j.takesFormat = true
    (ok → count = 0 → GoesTo (.rpt l c x y z) s s.me ((s.me.pc + 4 + 4 * (l + 1)) % 2 ^ 52)) ∧
    (ok → count ≠ 0 →
      GoesTo (.rpt l c x y z) s { s.me with frame := some ⟨ws, count, x, y, z, 0, 0, s.me.pc⟩ } ((s.me.pc + 4) % 2 ^ 52)) ∧
    (¬ok → exec (.rpt l c x y z) s = .next (takeTrap s s.cur { code := 0x01 }))

/-- 04 R88: while a frame runs, the slot runs the captured word at its position, its register fields staggered by the iteration; and
the completion of an instance moves to the next position, to the next iteration, or past the body. ADD stands for the scalar
members, VADD for the vector ones, KAND for the predicate ones; the vc and k fields, immediates and fields that an entry shows as zero stay
as they are (VFMA, ADDI, VIOTA, VRED, VSLIDEDN, CLZ). 06 R113: a scalar number whose bit 5 is a func bit is staggered whole, modulo 64 (VBCAST,
VGETL, KPOPC), and so is the predicate that a compare writes, modulo 8. A prefix word has no such field. -/
def Obligations.RepeatFrameRunsStaggered : Prop :=
  ∀ (s : State) (f : Frame) (d a b c k w h : Nat), s.me.frame = some f → s.NoPrefix →
    let i := f.ridx
    let word := f.words.getD f.rpos 0
    let sc := fun (r g : Nat) => (r + i * g) % 64
    let ve := fun (r g : Nat) => (r + i * g) % 32
    let pr := fun (r g : Nat) => (r + i * g) % 8
    let runs := fun (j j' : Instr) => decode word = .ok j → nextInstr s s.cur = .ok (word, some j')
    runs (.vfma d a b c k) (.vfma (ve d f.dd) (ve a f.da) (ve b f.db) c k) ∧ runs (.addi d a c) (.addi (sc d f.dd) (sc a f.da) c) ∧
    runs (.clz d a) (.clz (sc d f.dd) (sc a f.da)) ∧ runs (.viota d k w) (.viota (ve d f.dd) k w) ∧
    runs (.vslideDn d a c k w) (.vslideDn (ve d f.dd) (ve a f.da) c k w) ∧
    runs (.vred d a b k w c) (.vred (ve d f.dd) (ve a f.da) b k w c) ∧
    runs (.vcmpi d a b k w c) (.vcmpi (pr d f.dd) (ve a f.da) (ve b f.db) k w c) ∧
    runs (.vbcast d a k w h) (.vbcast (ve d f.dd) (sc (h * 32 + a) f.da % 32) k w (sc (h * 32 + a) f.da / 32)) ∧
    runs (.vgetl d a c w h) (.vgetl (sc (h * 32 + d) f.dd % 32) (ve a f.da) c w (sc (h * 32 + d) f.dd / 32)) ∧
    runs (.kpopc d a w h) (.kpopc (sc (h * 32 + d) f.dd % 32) (pr a f.da) w (sc (h * 32 + d) f.dd / 32)) ∧
    runs (.fmtp a b c k w) (.fmtp a b c k w) ∧
    (decode (f.words.getD f.rpos 0) = .ok (.add d a b) → nextInstr s s.cur =
      .ok (f.words.getD f.rpos 0, some (.add ((d + i * f.dd) % 64) ((a + i * f.da) % 64) ((b + i * f.db) % 64)))) ∧
    (decode (f.words.getD f.rpos 0) = .ok (.vadd d a b k w) → nextInstr s s.cur =
      .ok (f.words.getD f.rpos 0, some (.vadd ((d + i * f.dd) % 32) ((a + i * f.da) % 32) ((b + i * f.db) % 32) k w))) ∧
    (decode (f.words.getD f.rpos 0) = .ok (.kand d a b) → nextInstr s s.cur =
      .ok (f.words.getD f.rpos 0, some (.kand ((d + i * f.dd) % 8) ((a + i * f.da) % 8) ((b + i * f.db) % 8)))) ∧
    ∃ t, exec (.add d a b) s = .next t ∧
      (f.rpos + 1 < f.words.length → (t.slot s.cur).frame = some { f with rpos := f.rpos + 1 }) ∧
      (f.words.length ≤ f.rpos + 1 → i + 1 < f.count →
        (t.slot s.cur).frame = some { f with rpos := 0, ridx := i + 1 }) ∧
      (f.words.length ≤ f.rpos + 1 → f.count ≤ i + 1 →
        (t.slot s.cur).frame = none ∧ (t.slot s.cur).pc = (f.base + 4 + 4 * f.words.length) % 2 ^ 52)

/-! ### Control registers -/

/-- 04 R67 to R75; 20 R295: CSRR reads; a write of STAT, CYCLE, INSTRET or OFR is ignored and still reads the old value; no other
register changes. ILLEGAL for 0x08 to 0x0F and for a number that the core does not hold, PRIV for 0x10 and above in user mode. (With
stores of the slot still buffered, `StoreBufferHoldsAndDrains` says what comes first.) -/
def Obligations.CsrReadsIgnoredWritesAndTraps : Prop :=
  (∀ (s : State) (d a : Nat), s.NoPrefix → s.me.sb = [] →
     ScalarResult (.csrr d 0x00) s d s.me.fmt ∧ ScalarResult (.csrr d 0x02) s d s.me.flags ∧
     ScalarResult (.csrr d 0x03) s d s.me.rmode ∧ ScalarResult (.csrr d 0x07) s d s.me.domain ∧
     ScalarResult (.csrr d 0x05) s d (BitVec.ofNat 64 s.me.instret) ∧
     (∀ num, num < 8 → ∀ old, csrRead s s.cur num = some old → ScalarResult (.csrr d num) s d old) ∧
     (∀ num, num = 1 ∨ num = 4 ∨ num = 5 ∨ num = 6 → ∀ old, csrRead s s.cur num = some old →
       ScalarResult (.csrw d a num) s d old ∧ ScalarResult (.csrs d a num) s d old ∧ ScalarResult (.csrc d a num) s d old) ∧
     (s.me.mode = true → ∀ num, 0x10 ≤ num → ∀ old, csrRead s s.cur num = some old → ScalarResult (.csrr d num) s d old)) ∧
  (∀ (s : State) (d a num : Nat) (i : Instr), s.NoPrefix → s.me.sb = [] →
     i = .csrr d num ∨ i = .csrw d a num ∨ i = .csrs d a num ∨ i = .csrc d a num →
     (8 ≤ num → num < 16 → exec i s = .next (takeTrap s s.cur { code := 0x01 })) ∧
     (16 ≤ num → s.me.mode = false → exec i s = .next (takeTrap s s.cur { code := 0x02 })) ∧
     (16 ≤ num → s.me.mode = true → csrRead s s.cur num = none → exec i s = .next (takeTrap s s.cur { code := 0x01 })))

/-- 04 R75; 20 R296: the registers that software writes take the new value in their fields, s[d] takes the old one, and no other register
changes: those of a slot (FMT, FLAGS, RMODE, DOMAIN, EPC, PSCRATCH; PSTAT.PMODE, VBASE, SAVEPTR), those of a core (TRGN0 to TRGN7, VISEL), and
those of a tenant or a die (PTBR, MSTW, CCQUOTA, CCNODETAB, CTXBUF, MSCR, TQBASE, TQHEAD, INVQ, INVDB), of which VISEL selects the per-VI
copies. A one written to ATOMFLAGS, INVACK.ERR or STOPCAUSE.VALID clears the bit, any other bit of these stays. CSRS and CSRC with s0 act as a
read of any register: nothing is written, not even a bit that a one would clear. A write of MSCR may change Mere scratch of its die. -/
def Obligations.CsrWritesTakeEffect : Prop :=
  (∀ (s : State) (d a num : Nat) (mask old : Word), s.NoPrefix → s.me.sb = [] → s.me.mode = true → csrRead s s.cur num = some old →
    let x := s.me.rs a
    ((num, mask) ∈ [(0x10, 0x2), (0x13, 0xFFFFFFFFFFFFFFFC), (0x14, BitVec.allOnes 64), (0x18, 0xFF0000000000FFF0), (0x19, 0xFF0000000000FFF0),
        (0x1A, 0xFF0000000000FFF0), (0x1B, 0xFF0000000000FFF0), (0x1C, 0xFF0000000000FFF0), (0x1D, 0xFF0000000000FFF0),
        (0x1E, 0xFF0000000000FFF0), (0x1F, 0xFF0000000000FFF0), (0x20, 0x3F), (0x21, 0xFFFFFFFFF8001), (0x22, 0xFFFFFFFF000), (0x24, 0x3FFFFF),
        (0x25, 0xFFFFFFE000000), (0x26, 0xFFFFFFFFFFFFF), (0x27, 0x7F), (0x28, 0xFFFFFFFFFC000), (0x2A, 0xFFFFFFFF), (0x2B, 0xFFFFFFFFFF800),
        (0x2C, 0xFFFFFFFF)] →
      let kept := if num = 0x10 then old &&& ~~~mask else 0
      CsrWritten (.csrw d a num) s d num old (kept ||| (x &&& mask)) ∧
      (a % 64 ≠ 0 → CsrWritten (.csrs d a num) s d num old (kept ||| ((old ||| x) &&& mask)) ∧
        CsrWritten (.csrc d a num) s d num old (kept ||| ((old &&& ~~~x) &&& mask)))) ∧
    (num = 0x23 → old.toNat < 32 → CsrWritten (.csrw d a num) s d num old (old &&& ~~~x)) ∧
    (num = 0x2D ∨ num = 0x2E → CsrWritten (.csrw d a num) s d num old (old &&& ~~~(x &&& BitVec.twoPow 64 63)))) ∧
  ∀ (s : State) (d a num : Nat) (mask old : Word), s.NoPrefix → s.me.sb = [] →
    (a % 64 = 0 → num < 8 ∨ (0x10 ≤ num ∧ s.me.mode = true) → csrRead s s.cur num = some old →
      ScalarResult (.csrs d a num) s d old ∧ ScalarResult (.csrc d a num) s d old) ∧
    (s.me.frame = none →
    (num, mask) ∈ [(0x00, 0xFFFF), (0x02, 0x1F), (0x03, 0x3), (0x07, 0xC000007FFFFFFFFF), (0x11, BitVec.allOnes 64),
      (0x15, BitVec.allOnes 64)] → (0x10 ≤ num → s.me.mode = true) → csrRead s s.cur num = some old →
    let x := s.me.rs a
    CsrResult (.csrw d a num) s d num old (x &&& mask) ∧
    (a % 64 ≠ 0 → CsrResult (.csrs d a num) s d num old ((old ||| x) &&& mask) ∧
      CsrResult (.csrc d a num) s d num old ((old &&& ~~~x) &&& mask)))

/-! ### Exceptions and system instructions -/

/-- 20 R301, R302, R304: a fault that is not fatal, with room in the trap queue of its die, writes its record at TQTAIL's place,
advances TQTAIL, and leaves the slot Faulted at its PC; no other register of the slot, no other slot and no other byte changes. With 252
records or more in the queue it is held in its core: the slot is Faulted, nothing is posted.
The model's choices, not the spec's: that the slot keeps the word that a replay runs again (field `again`, log entry 48), what the fields of
the record hold where R301 leaves them open (log entry 49), and the epoch of a lost node that is kept with the record (log entry 156). -/
def Obligations.NonFatalFaultsPostOrHold : Prop :=
  (∀ (s : State) (n : Nat) (f : Trap), s.MemWf → (s.slot n).sb = [] → f.code ∈ [0x04, 0x0F, 0x20, 0x21] → f.engine = false →
     f.pc = none →
     let t := { f with remote := f.remote || (decide (1 ≤ f.kind) && decide (f.kind ≤ 5) && isRemote s f.addr) }
     let d := dieOfSlot n
     let q := (s.die d).tqtail
     let c := bits (s.die d).tqbase.toNat 51 14 * 2 ^ 14 + 64 * (q % 256)
     queued s d < 252 → asleep s ((List.range 64).map (c + ·)) = false →
     let u := takeTrap s n f
     u.slot n = { s.slot n with
       st := .faulted, posted := some ⟨d, some q, t, epochOf s t⟩
       again := if (s.slot n).frame.isNone && t.kind ≠ 0 then some (s.slot n).iw else none } ∧
     (u.die d).tqtail = (q + 1) % 2 ^ 32 ∧
     bits (u.raw c 8) 7 0 = t.code ∧ bits (u.raw c 8) 15 8 = (if t.remote then 2 else 0) ∧ bits (u.raw c 8) 21 16 = (s.slot n).vi % 64 ∧
     bits (u.raw c 8) 63 32 = agentId s n % 2 ^ 32 ∧
     u.raw (c + 8) 8 = (s.slot n).pc % 2 ^ 64 ∧ u.raw (c + 16) 8 = t.addr % 2 ^ 64 ∧
     bits (u.raw (c + 24) 8) 31 0 = (s.slot n).iw % 2 ^ 32 ∧ bits (u.raw (c + 24) 8) 35 32 = t.kind % 16 ∧
     bits (u.raw (c + 24) 8) 39 36 = t.size % 16 ∧ bits (u.raw (c + 24) 8) 41 40 = t.order % 4 ∧
     u.raw (c + 32) 8 = t.data0 % 2 ^ 64 ∧ u.raw (c + 40) 8 = t.data1 % 2 ^ 64 ∧ u.raw (c + 48) 8 = t.info % 2 ^ 64 ∧
     u.raw (c + 56) 8 = q % 2 ^ 32 ∧
     (∀ a, a < c ∨ c + 64 ≤ a → u.byte a = s.byte a) ∧ ∀ m, m ≠ n → u.slot m = s.slot m) ∧
  (∀ (s : State) (n : Nat) (f : Trap), (s.slot n).sb = [] → f.pc = none → f.code ∈ [0x04, 0x0F, 0x20, 0x21] →
     252 ≤ queued s (dieOfSlot n) →
     let t := { f with remote := f.remote || (decide (1 ≤ f.kind) && decide (f.kind ≤ 5) && isRemote s f.addr) }
     let u := takeTrap s n f
     (u.slot n).st = .faulted ∧ (u.slot n).posted = some ⟨dieOfSlot n, none, t, epochOf s t⟩ ∧ (u.slot n).pc = (s.slot n).pc ∧
     (u.die (dieOfSlot n)).tqtail = (s.die (dieOfSlot n)).tqtail ∧
     (∃ r, (u.die (dieOfSlot n)).held = (s.die (dieOfSlot n)).held ++ [r] ∧ r.slot = n ∧ r.trap = t ∧ r.pc = (s.slot n).pc) ∧
     ∀ a, u.byte a = s.byte a)

/-- 20 R300; 02 R38, R48: a fatal fault of a worker or Mace slot ends its task: the slot is Free, holds no task, no offer and no binding; that
of a co-launch team lingers, without offer and binding, while another team of its instance has not ended. 20 R300, R313, R314: a fatal fault of
a Sumac slot stops every core of the package, and each core whose STOPCAUSE is not valid records it. 20 R302: with 256 records in the trap queue
nothing is posted, and the partition stops with FATALQ.
That a Mace slot becomes Free is the model's reading (log entry 42). -/
def Obligations.FatalFaultEndsTheTask : Prop :=
  ∀ (s : State) (n : Nat) (t : Trap), fatalCode t.code = true →
    let u := takeTrap s n t
    let ended := (u.slot n).offer = none ∧ (u.slot n).stand = none ∧ ∀ e, (u.slot n).bound e = 0
    let cause := fun (fq : Nat) => BitVec.ofNat 64
      (2 ^ 63 + fq * 2 ^ 62 + t.code % 256 * 2 ^ 48 + (s.slot n).vi % 64 * 2 ^ 32 + agentId s n % 2 ^ 25)
    let full := 256 ≤ queued s (dieOfSlot n)
    (isSumac n = false → (∀ k, (s.slot n).task = some k → k.kind ≠ 1) → (u.slot n).st = .free ∧ (u.slot n).task = none ∧ ended) ∧
    (∀ k m, isSumac n = false → (s.slot n).task = some k → k.kind = 1 → m ∈ teamSlots s n → m ≠ n → (s.slot m).st ≠ .lingering →
      (u.slot n).st = .lingering ∧ ended) ∧
    (isSumac n = true → n < 8384 → ∀ c, c < 2096 → (u.core c).halted = true ∧ ((s.core c).cause.toNat / 2 ^ 63 = 0 →
      ((u.core c).cause = if full then cause 1 else cause 0))) ∧
    (isSumac n = false → full → (u.die (dieOfSlot n)).tqtail = (s.die (dieOfSlot n)).tqtail ∧ ∀ c, c < 2096 →
      partitionCore s (s.slot n).vi c = true → (u.core c).halted = true ∧ ((s.core c).cause.toNat / 2 ^ 63 = 0 → (u.core c).cause = cause 1))

/-- 20 R295, R317: TRAP in user mode posts SVC with s[a] and the service number, BRK posts BRKPT and halts its core; the slot is
Faulted at its PC. TRAP in privileged mode raises ILLEGAL. -/
def Obligations.ServiceCallsAndBreakpointsPost : Prop :=
  ∀ (s : State) (d a b : Nat), s.NoPrefix → queued s (dieOfSlot s.cur) < 252 →
    let q := (s.die (dieOfSlot s.cur)).tqtail
    (s.me.mode = false → ∃ u, exec (.trap d a b) s = .next u ∧ (u.slot s.cur).st = .faulted ∧
      (u.slot s.cur).posted =
        some ⟨dieOfSlot s.cur, some q, { code := 0x20, kind := 6, data0 := (s.me.rs a).toNat, data1 := b }, 0⟩ ∧
      (u.slot s.cur).pc = s.me.pc ∧ (u.die (dieOfSlot s.cur)).tqtail = (q + 1) % 2 ^ 32 ∧
      (u.core (coreOf s.cur)).brk = (s.core (coreOf s.cur)).brk) ∧
    (s.me.mode = true → exec (.trap d a b) s = .next (takeTrap s s.cur { code := 0x01 })) ∧
    ∃ u, exec .brk s = .next u ∧ (u.slot s.cur).st = .faulted ∧
      (u.slot s.cur).posted = some ⟨dieOfSlot s.cur, some q, { code := 0x21, kind := 7 }, 0⟩ ∧
      (u.slot s.cur).pc = s.me.pc ∧ (u.die (dieOfSlot s.cur)).tqtail = (q + 1) % 2 ^ 32 ∧
      (u.core (coreOf s.cur)).brk = true

/-- 04 R75: a privileged member in user mode raises PRIV and has no effect of its own; SVCREPLY of a slot that is no Sumac slot is
ILLEGAL in either mode (20 R318). 20 R317; 04 R58: ICINV of no bytes has no effect; else the slot is interlocked until ICINV_DONE, when
no line of the range is left in the quads it names and the instruction completes; a scope above 1 is ILLEGAL. A range of local
addresses is the same whichever way its node field names this node (08 R135). (With stores of the slot still buffered,
`StoreBufferHoldsAndDrains` says what comes first.)
The model's choices, not the spec's: SVCREPLY on a slot that is no Sumac slot is ILLEGAL in user mode too, where R75 alone would say PRIV (log
entry 28); the space of ICINV on a Sumac slot is the one that VISEL selects, and untranslated lines of the range go too (log entry 46). -/
def Obligations.PrivilegeAndInstructionCaches : Prop :=
  (∀ (s : State) (d a b : Nat) (i : Instr), s.NoPrefix → s.me.mode = false →
    i ∈ [.eret, .icinv d a b, .ctxsave b, .ctxrest, .gstopPartition a, .gstopPackage a, .gstopResume a] →
    exec i s = .next (takeTrap s s.cur { code := 0x02 })) ∧
  (∀ (s : State) (d a b : Nat), s.NoPrefix → s.me.sb = [] → isSumac s.cur = false →
    exec (.svcreply d a b) s = .next (takeTrap s s.cur { code := 0x01 })) ∧
  (∀ (s : State) (d a b : Nat), s.NoPrefix → s.me.sb = [] → s.me.mode = true →
    let ea := (s.me.rs a).toNat
    let len := (s.me.rs b).toNat
    let vi := icinvSpace s s.cur
    (1 < d → exec (.icinv d a b) s = .next (takeTrap s s.cur { code := 0x01 })) ∧
    (d ≤ 1 → len = 0 → NoEffect (.icinv d a b) s) ∧
    (d ≤ 1 → len ≠ 0 → ∃ t, exec (.icinv d a b) s = .next t ∧
      (t.slot s.cur).st = .interlocked (.icinv d vi (if isRemote s ea then ea else ea % 2 ^ 52) len) ∧
      (t.slot s.cur).pc = s.me.pc)) ∧
    ∀ (s : State) (n sc v lo k : Nat), (s.slot n).st = .interlocked (.icinv sc v lo k) → (s.slot n).frame = none →
      ∃ t, exec (.icinvDone n) s = .next t ∧ (t.slot n).st = .running ∧ (t.slot n).pc = ((s.slot n).pc + 4) % 2 ^ 52 ∧
        ∀ e ∈ t.icache, e ∈ s.icache ∧
          ((sc = 1 ∨ e.quad = quadOf n) → (e.vi = v ∨ e.vi = 64) → ¬(lo < e.addr + 4 ∧ e.addr < lo + k))

/-- 20 R304, R317: SVCREPLY on a Sumac slot. A reply to no record has no effect; RESUME of a TRAP writes its s[d] and goes on at PC + 4, that of
a BRK goes on at PC + 4; EMULATE gives the slot of a BRK the word to run at its PC; REPLAY of a PAGE record lets the slot run again at its PC, and
so does that of a PEER_LOST whose node is still in the epoch of the record; KILL, and an act that is not permitted for the code, ends the task of
a worker or Mace slot (no co-launch team) and posts nothing. 25 R369: a PEER_LOST of a returning access whose node has begun a new epoch is posted
again with bit 12 of INFO, without an access.
That the recorded word is executed again at a replay is the model's reading (log entry 48); when a node begins a new epoch, log entry 156. -/
def Obligations.ServiceReplies : Prop :=
  ∀ (s : State) (d a b n : Nat) (r : Posted), s.NoPrefix → s.me.sb = [] → isSumac s.cur = true → n ≠ s.cur →
    let die := dieOfSlot s.cur
    let seq := (s.me.rs a).toNat % 2 ^ 32
    let act := (s.me.rs b).toNat % 8
    (slotAwaiting s die seq = none → streamAwaiting s die seq = none → copyAwaiting s die seq = none →
      NoEffect (.svcreply d a b) s) ∧
    (slotAwaiting s die seq = some n → (s.slot n).posted = some r → (s.slot n).frame = none → act = 1 → r.trap.code = 0x20 →
      ∃ t, exec (.svcreply d a b) s = .next t ∧ (t.slot n).st = .running ∧ (t.slot n).posted = none ∧
        (t.slot n).pc = ((s.slot n).pc + 4) % 2 ^ 52 ∧
        (∀ j, (t.slot n).rs j = if j % 64 = bits (s.slot n).iw 25 20 % 64 ∧ bits (s.slot n).iw 25 20 % 64 ≠ 0 then s.me.rs d
          else (s.slot n).rs j) ∧ (s.me.frame = none → (t.slot s.cur).pc = (s.me.pc + 4) % 2 ^ 52)) ∧
    (slotAwaiting s die seq = some n → (s.slot n).posted = some r → act = 0 → r.trap.code = 0x04 →
      ∃ t, exec (.svcreply d a b) s = .next t ∧ (t.slot n).st = .running ∧ (t.slot n).posted = none ∧
        (t.slot n).pc = (s.slot n).pc ∧ ∀ j, (t.slot n).rs j = (s.slot n).rs j) ∧
    (slotAwaiting s die seq = some n → (s.slot n).posted = some r →
      let runs := fun (t : State) => exec (.svcreply d a b) s = .next t ∧ (t.slot n).st = .running ∧ (t.slot n).posted = none ∧
        ∀ j, (t.slot n).rs j = (s.slot n).rs j
      let new := (r.trap.kind = 1 ∨ r.trap.kind = 3 ∨ r.trap.kind = 4) ∧ epochOf s r.trap ≠ r.epoch
      let code := bits (s.me.rs b).toNat 15 8
      (act = 1 → r.trap.code = 0x21 → (s.slot n).frame = none → ∃ t, runs t ∧ (t.slot n).pc = ((s.slot n).pc + 4) % 2 ^ 52) ∧
      (act = 2 → r.trap.code = 0x21 → ∃ t, runs t ∧ (t.slot n).pc = (s.slot n).pc ∧
        (t.slot n).again = some ((s.me.rs d).toNat % 2 ^ 32)) ∧
      (act = 0 → r.trap.code = 0x0F → ¬new → ∃ t, runs t ∧ (t.slot n).pc = (s.slot n).pc) ∧
      (act = 0 → r.trap.code = 0x0F → new → r.trap.remote = true → ∃ t p, exec (.svcreply d a b) s = .next t ∧
        (t.slot n).st = .faulted ∧ (t.slot n).posted = some p ∧ p.trap.code = 0x0F ∧ p.trap.info = r.trap.info % 2 ^ 12 + 2 ^ 12 ∧
        (t.slot n).pc = (s.slot n).pc) ∧
      ((act = 3 ∧ 1 ≤ code ∧ code ≤ 0x11) ∨ (act = 0 ∧ r.trap.code ∈ [0x20, 0x21]) ∨ (act = 1 ∧ r.trap.code ∈ [0x04, 0x0F]) ∨
          (act = 2 ∧ r.trap.code ≠ 0x21) → isSumac n = false → (∀ k, (s.slot n).task = some k → k.kind ≠ 1) →
        ∃ t, exec (.svcreply d a b) s = .next t ∧ (t.slot n).st = .free ∧ (t.slot n).task = none ∧
          ∀ e, (t.die e).tqtail = (s.die e).tqtail))

/-- 20 R313, R314, R317: GSTOP stops the cores of the partition (the worker cores of its clusters, the Mace cores of the dies on which it
has one), or every worker and Mace core; a core that it stops records the stop unless a record is still valid; GSTOP with m = 2
restarts the partition's cores and leaves STOPCAUSE as it is.
Which cores record the stop is the model's reading (log entries 44, 45); so is which partition a GSTOP names: of a Sumac slot VISEL's, of a
worker slot its own tenant's, with m = 2 too (log entry 46). -/
def Obligations.GangStopsAndResume : Prop :=
  ∀ (s : State) (a : Nat), s.NoPrefix → s.me.mode = true → s.me.frame = none →
    let vi := gstopVi s s.cur
    let code := (s.me.rs a).toNat % 256
    let mine := fun (c : Nat) => coreInMesh s vi c = true ∨
      (2048 ≤ c ∧ c < 2080 ∧ ∃ p, p < 128 ∧ inMesh s vi p = true ∧ p / 32 = (c - 2048) / 8)
    (∃ t, exec (.gstopPartition a) s = .next t ∧ (t.slot s.cur).pc = (s.me.pc + 4) % 2 ^ 52 ∧
      (∀ c, c < 2096 → ((t.core c).halted = true ↔ mine c ∨ (s.core c).halted = true)) ∧
      ∀ c, c < 2096 → mine c ∨ 2080 ≤ c → (s.core c).cause.toNat / 2 ^ 63 = 0 →
        (t.core c).cause = BitVec.ofNat 64 (2 ^ 63 + code * 2 ^ 48 + vi % 64 * 2 ^ 32 + agentId s s.cur % 2 ^ 25)) ∧
    (∃ t, exec (.gstopPackage a) s = .next t ∧ (t.slot s.cur).pc = (s.me.pc + 4) % 2 ^ 52 ∧
      (∀ c, c < 2096 → (t.core c).halted = (decide (c < 2080) || (s.core c).halted)) ∧
      ∀ c, c < 2096 → (s.core c).cause.toNat / 2 ^ 63 = 0 →
        (t.core c).cause = BitVec.ofNat 64 (2 ^ 63 + code * 2 ^ 48 + vi % 64 * 2 ^ 32 + agentId s s.cur % 2 ^ 25)) ∧
    ∃ t, exec (.gstopResume a) s = .next t ∧ (t.slot s.cur).pc = (s.me.pc + 4) % 2 ^ 52 ∧
      ∀ c, c < 2096 → ((t.core c).halted = true ↔ ¬mine c ∧ (s.core c).halted = true) ∧ (t.core c).cause = (s.core c).cause

/-- 20 R305, R295, R317: PREEMPT of a Running slot that holds no lease, no command of the matrix engine and no tile enters the resident
handler: EPC takes PC, PMODE 0, MODE and INH 1, ECAUSE 1, PC goes to VBASE, and no general register changes. ERET moves PC to EPC,
MODE to PMODE (a Sumac slot stays privileged), ends INH; what lay dormant in the handler is in force again.
The model's choices, not the spec's: that a pending prefix, a repeat frame, the count of instructions and the word to be run again lie dormant
in the handler and come back at ERET (log entries 38, 57), and when a PREEMPT request is due (log entry 51). -/
def Obligations.HandlerEntryAndReturn : Prop :=
  (∀ (s : State) (n : Nat) (k : Task), preemptDue s n = true → (s.slot n).st = .running → (s.slot n).task = some k →
     k.tiles = [] → (s.slot n).offer = none → (s.slot n).stand = none → (s.slot n).susp = none →
     leaseLive s n = false → mxOut s n = false →
     ∃ t, exec (.preempt n) s = .next t ∧
       (t.slot n).epc = BitVec.ofNat 64 (s.slot n).pc ∧ (t.slot n).pmode = false ∧ (t.slot n).mode = true ∧
       (t.slot n).inh = true ∧ (t.slot n).ecause = 1 ∧ (t.slot n).pc = bits (s.slot n).vbase.toNat 51 2 * 4 ∧
       (t.slot n).preReq = false ∧ (t.slot n).task = some k ∧
       (∀ r, (t.slot n).rs r = (s.slot n).rs r) ∧ (∀ r, (t.slot n).rv r = (s.slot n).rv r) ∧
       (∀ r, (t.slot n).rk r = (s.slot n).rk r) ∧ ∀ a, t.byte a = s.byte a) ∧
  (∀ s : State, s.NoPrefix → s.me.mode = true → s.me.held = [] → s.me.stand = none → s.me.susp = none →
     let y := { wake { s.me with
         st := .running, again := none, instret := (s.me.instret + 1) % 2 ^ 64, pc := bits s.me.epc.toNat 51 2 * 4 } with
       mode := s.me.pmode || isSumac s.cur, inh := false }
     ∃ t, exec .eret s = .next t ∧ OwnSlotOnly s t ∧
       t.slot s.cur = if s.me.dorm.isSome then { y with want := false, cut := none } else y)

/-- 20 R306, R308, R317; 02 R39: CTXSAVE in the resident handler, where its writes succeed, keeps the context of the slot, registers
included, and goes on; with r = 1 the TCM image is written too and the task is Pre-empted, its slot Free, as soon as every other task
that is pre-empted with it as a whole may leave; until then it is being pre-empted and issues nothing. CTXREST, where the save area and the
extension area read as CTXSAVE left them, gives the task its registers and its PC back, in user mode; where they do not, SAVE_LOST
ends the task.
That CTXREST gives back what the device kept, the order of the bytes of the extension area, and that a unit leaves in one step, are
the model's choices (log entries 55, 56, 64). -/
def Obligations.ContextSaveAndRestore : Prop :=
  (∀ (s s1 s2 : State) (k : Task) (e : Pre), s.NoPrefix → s.me.mode = true → s.me.inh = true → s.me.task = some k → s.me.sb = [] →
     mxOut s s.cur = false → recordPending s s.cur = false → saveContext s s.cur k = some (e, s1) →
     (∃ t, exec (.ctxsave 0) s = .next t ∧ e ∈ t.pre ∧ e.home = s.cur ∧ e.out = false ∧ (∀ r, e.slot.rs r = s.me.rs r) ∧
       t.mem = s1.mem ∧ (s.me.frame = none → (t.slot s.cur).pc = (s.me.pc + 4) % 2 ^ 52)) ∧
     (unitSlots s s.cur k = [s.cur] → s.me.st = .running → keepImage s s.cur k = some s2 →
       ∃ t f, exec (.ctxsave 1) s = .next t ∧ f ∈ t.pre ∧ f.out = true ∧ f.home = s.cur ∧ f.check = e.check ∧
         (t.slot s.cur).st = .free ∧ (t.slot s.cur).task = none)) ∧
  (∀ (s : State) (k : Task) (r : Nat), s.NoPrefix → s.me.mode = true → s.me.inh = true → s.me.task = some k →
     (1 < r → exec (.ctxsave r) s = .next (takeTrap s s.cur { code := 0x01 })) ∧
     (∀ m, m ∈ unitSlots s s.cur k → m ≠ s.cur → leaveReady s m = false → mxOut s s.cur = false → recordPending s s.cur = false →
       exec (.ctxsave 1) s = .next (s.setSlot s.cur { s.me with st := .leaving }))) ∧
  (∀ (s : State) (k : Task) (e : Pre) (area ext : List Nat), s.NoPrefix → s.me.mode = true → s.me.inh = true →
     s.me.task = some k → s.pre.find? (fun f => !f.out && f.home == s.cur) = some e →
     saveRead s s.cur (localEa s.me.saveptr.toNat) 0x400 = some area →
     saveRead s s.cur (localEa (frameAt s k)) (e.bytes.length - 0x3F8) = some ext →
     (area.take 0x3F8 ++ ext = e.bytes → numOf (area.drop 0x3F8) = e.check.toNat → e.slot.held = [] → e.slot.stand = none →
       e.slot.susp = none →
       ∃ t, exec .ctxrest s = .next t ∧ (t.slot s.cur).mode = false ∧ (t.slot s.cur).inh = false ∧
         (∀ d, e.slot.dorm = some d → (t.slot s.cur).pc = d.entry % 2 ^ 52 ∧ (t.slot s.cur).pfx = d.pfx ∧
           (t.slot s.cur).frame = d.frame ∧ (t.slot s.cur).instret = d.instret) ∧
         (∀ r, (t.slot s.cur).rs r = e.slot.rs r) ∧ (∀ r, (t.slot s.cur).rv r = e.slot.rv r) ∧
         (∀ r, (t.slot s.cur).rk r = e.slot.rk r) ∧ ∀ a, t.byte a = s.byte a) ∧
     (area.take 0x3F8 ++ ext ≠ e.bytes → exec .ctxrest s = .next (takeTrap s s.cur { code := 0x11 })))

/-! ### Memory -/

/-- 08 R153, R155: a scalar load of local memory returns its bytes, the lowest address in the lowest byte, sign-extended or zero-extended as
its width says; a pair returns bytes 7 to 0 in s[d] and 15 to 8 in s[d+1]. 08 R154; 18 R282: an SC load is announced besides, and one that
its key places before an announced operation of this window waits.
That an SC operation waits for its window by the numbers of the cores is the model's reading (log entry 69). -/
def Obligations.LocalLoadsReturnTheBytes : Prop :=
  ∀ (s : State) (d a b f o sc : Nat) (cells : List Nat), s.NoPrefix → (o ≤ 1 ∧ s.late = false) ∨ o = 3 →
    let v := numOf (cells.map s.byte)
    let ea := memAddr s.me b f
    let ok := fun w => Accessible s (ea w) (memSize w) (memAlign (memSize w) o) 1 o cells
    let one := fun (i : Instr) (x : Word) => Ordered i s o (ScalarDone d x)
    let two := fun (i : Instr) => Ordered i s o (PairDone d (BitVec.ofNat 64 v) (BitVec.ofNat 64 (v / 2 ^ 64)))
    (o = 3 → scMayAct s s.cur = false → ok 6 → ∃ t, exec (.ld d b o f) s = .next t ∧ s.me.Waits (t.slot s.cur) .busy) ∧
    ((o = 3 → scMayAct s s.cur = true) →
      (ok 0 → one (.lb d b o f) ((BitVec.ofNat 8 v).signExtend 64)) ∧ (ok 1 → one (.lbn d b o f) ((BitVec.ofNat 8 v).setWidth 64)) ∧
      (ok 2 → one (.lh d b o f) ((BitVec.ofNat 16 v).signExtend 64)) ∧ (ok 3 → one (.lhn d b o f) ((BitVec.ofNat 16 v).setWidth 64)) ∧
      (ok 4 → one (.lw d b o f) ((BitVec.ofNat 32 v).signExtend 64)) ∧ (ok 5 → one (.lwn d b o f) ((BitVec.ofNat 32 v).setWidth 64)) ∧
      (ok 6 → one (.ld d b o f) (BitVec.ofNat 64 v)) ∧ (ok 7 → d % 2 = 0 → two (.ldp d b o f)) ∧
      ∀ w, w < 8 → Accessible s (idxAddr s.me a b sc w) (memSize w) (memAlign (memSize w) o) 1 o cells →
        (w ≠ 7 → one (.ldx d a b o sc w) (loadValue w v)) ∧ (w = 7 → d % 2 = 0 → two (.ldx d a b o sc w)))

/-- 08 R137 to R140, R144, R152 to R155, R163; 20 R297: the addresses of loads and stores: base plus the offset times the access size, and
the sum of two registers, the second scaled by the size in the SCL form, modulo 2^64. What stops an access before it touches memory: ALIGN
for a misaligned address, ILLEGAL for order 10 of a load, order 01 of a store and an odd pair register, PROT for order 11 of another
node. A walk finds the leaf that R297 describes; an access of a page without one raises PAGE, one that the page does not permit, and an
atomic on host memory, PROT, and any other reaches the byte that the leaf gives. In the own-TCM window the lowest enabled region of the
slot that holds the page governs a user access; without one, or without its permission, it raises PROT, and privileged mode bypasses the
unit. A guarded byte reads zero and keeps its value, the rest of the access proceeds, and a report is recorded or counted. -/
def Obligations.AddressesAndAccessTraps : Prop :=
  (∀ (x : Slot) (a b f : Nat),
     (∀ w k, (w, k) ∈ [(0, 1), (1, 1), (2, 2), (3, 2), (4, 4), (5, 4), (6, 8), (7, 16)] →
       memAddr x b f w = (x.rs b + (BitVec.ofNat 9 f).signExtend 64 * BitVec.ofNat 64 k).toNat ∧
       idxAddr x a b 0 w = (x.rs a + x.rs b).toNat ∧
       idxAddr x a b 1 w = (x.rs a + x.rs b * BitVec.ofNat 64 k).toNat)) ∧
  (∀ (s : State) (d a b f o : Nat), s.NoPrefix →
     let ea := memAddr s.me b f 6
     let al := fun (addr kind size order : Nat) (i : Instr) => exec i s = .next (takeTrap s s.cur
       { code := 0x03, addr := addr, kind := kind, size := size, order := order })
     (o ≠ 2 → ea % 8 ≠ 0 → al ea 1 3 o (.ld d b o f)) ∧
     (o ≠ 1 → ea % 8 ≠ 0 → exec (.std d b o f) s = .next (takeTrap s s.cur
       { code := 0x03, addr := ea, kind := 2, size := 3, order := o, data0 := (s.me.rs d).toNat })) ∧
     (d % 2 = 0 → b % 2 = 0 → (s.me.rs a).toNat % 16 ≠ 0 → al (s.me.rs a).toNat 3 4 o (.acas2 d a b o)) ∧
     exec (.ld d b 2 f) s = .next (takeTrap s s.cur { code := 0x01 }) ∧
     exec (.std d b 1 f) s = .next (takeTrap s s.cur { code := 0x01 }) ∧
     (d % 2 = 1 → exec (.ldp d b o f) s = .next (takeTrap s s.cur { code := 0x01 }) ∧
       exec (.stp d b o f) s = .next (takeTrap s s.cur { code := 0x01 }) ∧
       exec (.acas2 d a b o) s = .next (takeTrap s s.cur { code := 0x01 }))) ∧
  (∀ (s : State) (vi va e size : Nat),
     let entry := fun (t i : Nat) => s.raw (t + 8 * i) 8
     let to_ := fun (x : Nat) => x / 2 ^ 8 % 2 ^ 44 * 2 ^ 8
     let valid := fun (x : Nat) => bit x 63 = true ∧ bits x 57 52 = 0 ∧ bits x 7 0 = 0
     let table := fun (x n : Nat) => valid x ∧ bit x 62 = false ∧ to_ x % n = 0
     let leaf := fun (x n : Nat) => valid x ∧ bit x 62 = true ∧ to_ x % n = 0 ∧ e = x ∧ size = n
     let e0 := entry ((s.vif vi).ptbr.toNat / 2 ^ 15 % 2 ^ 37 * 2 ^ 15) (va / 2 ^ 40 % 4096)
     let e1 := entry (to_ e0) (va / 2 ^ 29 % 2048)
     let e2 := entry (to_ e1) (va / 2 ^ 21 % 256)
     let e3 := entry (to_ e2) (va / 2 ^ 16 % 32)
     walk s vi va = some (e, size) ↔ (s.vif vi).ptbr.getLsbD 0 = true ∧ table e0 (2 ^ 14) ∧
       (leaf e1 (2 ^ 29) ∨ (table e1 (2 ^ 11) ∧ (leaf e2 (2 ^ 21) ∨ (table e2 (2 ^ 8) ∧ leaf e3 (2 ^ 16)))))) ∧
  (∀ (s : State) (d a b f o : Nat), s.NoPrefix →
     let n := s.cur
     let ea := memAddr s.me b f 6
     let at_ := (s.me.rs a).toNat
     let ld := fun (code : Nat) => exec (.ld d b o f) s = .next (takeTrap s n
       { code := code, addr := ea, kind := 1, size := 3, order := o })
     let st := fun (code : Nat) => exec (.std d b o f) s = .next (takeTrap s n
       { code := code, addr := ea, kind := 2, size := 3, order := o, data0 := (s.me.rs d).toNat })
     let rmw := fun (code : Nat) => exec (.aadd d a b o 1) s = .next (takeTrap s n
       { code := code, addr := at_, kind := 3, size := 3, order := o, data0 := (s.me.rs b).toNat })
     let reaches := fun (x kind c : Nat) => localCells s n s.me.mode x 8 kind o = .ok ((List.range 8).map (c + ·))
     (o = 3 → ea % 8 = 0 → isRemote s ea = true → ld 0x05 ∧ st 0x05) ∧
     (o = 3 → at_ % 8 = 0 → isRemote s at_ = true → rmw 0x05) ∧
     (isSumac n = false → s.tlb = [] →
       let plain := fun (x : Nat) => x % 8 = 0 ∧ isRemote s x = false ∧ x % 2 ^ 52 < winBase
       let leaf := fun (x : Nat) => walk s s.me.vi (x % 2 ^ 52)
       let cell := fun (x e size : Nat) => (if bit e 58 then hostBase else 0) + e / 2 ^ 8 % 2 ^ 44 * 2 ^ 8 + x % 2 ^ 52 % size
       (o ≠ 2 → plain ea → (leaf ea = none → ld 0x04) ∧
         ∀ e size, leaf ea = some (e, size) → (bit e 61 = false → ld 0x05) ∧ (bit e 61 = true → reaches ea 1 (cell ea e size))) ∧
       (o ≠ 1 → plain ea → (leaf ea = none → st 0x04) ∧
         ∀ e size, leaf ea = some (e, size) → (bit e 60 = false → st 0x05) ∧ (bit e 60 = true → reaches ea 2 (cell ea e size))) ∧
       (plain at_ → (leaf at_ = none → rmw 0x04) ∧
         ∀ e size, leaf at_ = some (e, size) → (bit e 61 = false ∨ bit e 60 = false ∨ bit e 58 = true → rmw 0x05) ∧
           (bit e 61 = true → bit e 60 = true → bit e 58 = false → reaches at_ 3 (cell at_ e size)))) ∧
     (∀ w, isWorker n = true → ea % 2 ^ 52 = winBase + w → w < 0x10000 → w % 8 = 0 →
       let core := coreOf n
       let page := w / 4096
       let reg := fun (i : Nat) => ((s.core core).trgn.get i 0).toNat
       let holds := fun (i : Nat) => bit (reg i) 63 = true ∧ bit (reg i) (59 + n % 4) = true ∧ bits (reg i) 15 12 ≤ bits (reg i) 11 8 ∧
         bits (reg i) 7 4 ≤ page ∧ page + bits (reg i) 15 12 ≤ bits (reg i) 7 4 + bits (reg i) 11 8
       let bank := fun (i : Nat) => tcmBase core + (bits (reg i) 15 12 + page - bits (reg i) 7 4) * 4096 + w % 4096
       (s.me.mode = true → reaches ea 1 (tcmBase core + w) ∧ reaches ea 2 (tcmBase core + w)) ∧
       (s.me.mode = false → (∀ i, i < 8 → ¬holds i) → (o ≠ 2 → ld 0x05) ∧ (o ≠ 1 → st 0x05)) ∧
       ∀ i, s.me.mode = false → i < 8 → holds i → (∀ j, j < i → ¬holds j) →
         (o ≠ 2 → bit (reg i) 57 = false → ld 0x05) ∧ (o ≠ 1 → bit (reg i) 58 = false → st 0x05) ∧
         (bit (reg i) 57 = true → reaches ea 1 (bank i)) ∧ (bit (reg i) 58 = true → reaches ea 2 (bank i)) ∧
         (bit (reg i) 57 = true → bit (reg i) 58 = true → reaches ea 3 (bank i)))) ∧
  (∀ (s : State) (p w : Nat), p < 128 → w < 2 ^ 22 →
     guarded s (tarnBase p + w) = (s.byte (gmapBase p + w / 64 / 8)).testBit (w / 64 % 8)) ∧
  ∀ (s : State) (d b f c : Nat) (cells : List Nat), s.NoPrefix → s.late = false → s.hold = false → s.me.sb = [] →
     let n := s.cur
     let ea := memAddr s.me b f 6
     let seen := cells.map fun x => if guarded s x then 0 else s.byte x
     let reported := fun (t : State) (kind : Nat) =>
       (s.me.report = none → (t.slot n).report = some
         { code := 0x06, addr := ea, kind := kind, size := 3, order := 0,
           info := bits c 12 7 + (bits c 21 13 * 128 + bits c 6 0) * 64 } ∧ (t.slot n).reports = s.me.reports) ∧
       (∀ r, s.me.report = some r → (t.slot n).report = some r ∧ (t.slot n).reports = s.me.reports + 1)
     isRemote s ea = false → ea % 8 = 0 → asleep s cells = false → cells.find? (guarded s) = some c →
     (localCells s n s.me.mode ea 8 1 0 = .ok cells → (∀ x ∈ cells, poisoned s x = false) →
       ∃ t, exec (.ld d b 0 f) s = .next t ∧ s.me.WritesS (t.slot n) d (BitVec.ofNat 64 (numOf seen)) ∧ reported t 1 ∧
         (s.me.frame = none → (t.slot n).pc = (s.me.pc + 4) % 2 ^ 52) ∧ ∀ x, t.byte x = s.byte x) ∧
     (localCells s n s.me.mode ea 8 2 0 = .ok cells → Storable s cells →
       ∃ t, exec (.std d b 0 f) s = .next t ∧ reported t 2 ∧ s.me.KeepsS (t.slot n) ∧
         (s.me.frame = none → (t.slot n).pc = (s.me.pc + 4) % 2 ^ 52) ∧
         (∀ x, x ∉ cells → t.byte x = s.byte x) ∧ (∀ x, guarded s x = true → t.byte x = s.byte x) ∧
         ∀ j, j < 8 → guarded s (cells.getD j 0) = false → t.byte (cells.getD j 0) = (s.me.rs d).toNat / 256 ^ j % 256)

/-- 08 R154; 02 R45: LOAD_DATA_RETURN completes: it brings the data of a load for which a slot waits, its own or that of another node;
the register is written, the interlock ends and the load is done. A load whose data comes late, or of another node, is such an
interlock of its slot, and so is one of memory in a cluster that is not in C0 or a die that is off (24 R365); a load of a node that no
port reaches raises PEER_LOST (20 R312). A fault with which the other node answers is raised at the load, with REMOTE set (20 R301).
What a node answers is an argument of the step (log entry 71). -/
def Obligations.LoadsWaitForTheirData : Prop :=
  (∀ (s : State) (n st d b f o v : Nat) (asks : List Ask) (q : Ask), (s.slot n).st = .interlocked (.remote (.ld d b o f) asks) →
    (s.slot n).pfx = none → (s.slot n).frame = none → o ≤ 1 → isRemote s (memAddr (s.slot n) b f 6) = true →
    memAddr (s.slot n) b f 6 % 8 = 0 →
    (st = 0 → ∃ t, exec (.loadDataReturn n st v) s = .next t ∧ (t.slot n).st = .running ∧
      (t.slot n).pc = ((s.slot n).pc + 4) % 2 ^ 52 ∧ (s.slot n).WritesS (t.slot n) d (BitVec.ofNat 64 v) ∧
      (∀ m, m ≠ n → t.slot m = s.slot m) ∧ ∀ a, t.byte a = s.byte a) ∧
    (asks = [q] → v < 2 ^ 64 → st ∈ [0x04, 0x05, 0x0D, 0x0F, 0x10] → exec (.loadDataReturn n st v) s =
      .next (takeTrap (countAnswers s n 1) n
        { code := st, addr := q.addr, kind := 1, size := 3, order := o, remote := true,
          info := if st = 0x0F then q.node else if st = 0x10 then v else 0 }))) ∧
  (∀ (s : State) (n st d b f o v : Nat) (cells : List Nat), (s.slot n).st = .interlocked (.answer (.ld d b o f)) →
    (s.slot n).pfx = none → (s.slot n).frame = none → (s.slot n).sb = [] → o ≤ 1 →
    let ea := memAddr (s.slot n) b f 6
    isRemote s ea = false → ea % 8 = 0 → localCells s n (s.slot n).mode ea 8 1 o = .ok cells →
    (∀ c ∈ cells, guarded s c = false ∧ poisoned s c = false) → asleep s cells = false →
    ∃ t, exec (.loadDataReturn n st v) s = .next t ∧ (t.slot n).st = .running ∧
      (t.slot n).pc = ((s.slot n).pc + 4) % 2 ^ 52 ∧
      (s.slot n).WritesS (t.slot n) d (BitVec.ofNat 64 (numOf (cells.map s.byte))) ∧
      (∀ m, m ≠ n → t.slot m = s.slot m) ∧ ∀ a, t.byte a = s.byte a) ∧
  ∀ (s : State) (d b f o : Nat) (cells : List Nat), s.NoPrefix → o ≤ 1 →
    let ea := memAddr s.me b f 6
    (s.late = true → Accessible s ea 8 8 1 o cells → ∃ t, exec (.ld d b o f) s = .next t ∧
      s.me.Waits (t.slot s.cur) (.answer (.ld d b o f)) ∧ (∀ m, m ≠ s.cur → t.slot m = s.slot m) ∧ ∀ a, t.byte a = s.byte a) ∧
    (isRemote s ea = false → ea % 8 = 0 → localCells s s.cur s.me.mode ea 8 1 o = .ok cells → asleep s cells = true →
      ∃ t, exec (.ld d b o f) s = .next t ∧ s.me.Waits (t.slot s.cur) .busy ∧ ∀ a, t.byte a = s.byte a) ∧
    (isRemote s ea = true → ea % 8 = 0 → usablePorts s (ea / 2 ^ 52) ≠ [] → ∃ t, exec (.ld d b o f) s = .next t ∧
      (t.slot s.cur).st = .interlocked (.remote (.ld d b o f) [⟨s.me.seq, ea / 2 ^ 52, ea⟩]) ∧ (t.slot s.cur).pc = s.me.pc ∧
      (∀ r, (t.slot s.cur).rs r = s.me.rs r) ∧
      t.Sent { packetOf s s.cur 1 1 (ea / 2 ^ 52) (ea % 2 ^ 52) 8 with sub := o, seq := s.me.seq }) ∧
    (isRemote s ea = true → ea % 8 = 0 → usablePorts s (ea / 2 ^ 52) = [] → exec (.ld d b o f) s =
      .next (takeTrap s s.cur { code := 0x0F, addr := ea, kind := 1, size := 3, order := o, remote := true, info := ea / 2 ^ 52 }))

/-- 08 R153, R155: a scalar store to local memory writes the low bytes of its register, lowest byte first, and no other byte; a pair writes
s[d] below s[d+1]. 08 R154; 18 R282: an SC store is performed at once, whether stores are held or not, and announced; one that its key
places before an announced operation of this window waits.
That an SC operation waits for its window by the numbers of the cores is the model's reading (log entry 69). -/
def Obligations.LocalStoresWriteTheBytes : Prop :=
  ∀ (s : State) (d a b f o sc : Nat) (cells : List Nat), s.NoPrefix → ((o = 0 ∨ o = 2) ∧ s.hold = false) ∨ o = 3 → Storable s cells →
    let x := (s.me.rs d).toNat
    let y := (s.me.rs (d + 1)).toNat
    let ok := fun w => Accessible s (memAddr s.me b f w) (memSize w) (memAlign (memSize w) o) 2 o cells
    let stores := fun (i : Instr) (data : List Nat) => Ordered i s o (StoreDone cells data)
    (o = 3 → scMayAct s s.cur = false → ok 6 → ∃ t, exec (.std d b o f) s = .next t ∧ s.me.Waits (t.slot s.cur) .busy) ∧
    ((o = 3 → scMayAct s s.cur = true) →
      (ok 0 → stores (.stb d b o f) (bytesOf 1 x)) ∧ (ok 2 → stores (.sth d b o f) (bytesOf 2 x)) ∧
      (ok 4 → stores (.stw d b o f) (bytesOf 4 x)) ∧ (ok 6 → stores (.std d b o f) (bytesOf 8 x)) ∧
      (ok 7 → d % 2 = 0 → stores (.stp d b o f) (bytesOf 8 x ++ bytesOf 8 y)) ∧
      ∀ w, w ∈ [0, 2, 4, 6, 7] → Accessible s (idxAddr s.me a b sc w) (memSize w) (memAlign (memSize w) o) 2 o cells →
        (w ≠ 7 → stores (.stx d a b o sc w) (bytesOf (memSize w) x)) ∧
        (w = 7 → d % 2 = 0 → stores (.stx d a b o sc w) (bytesOf 8 x ++ bytesOf 8 y)))

/-- 02 R45; 18 R280, R288: where stores are held, a local store joins the store buffer and the slot goes on, memory as before; a full
buffer, and memory of a unit that is stopped or off (24 R365), are an interlock; STORE_BUFFER_DRAIN performs an entry that may be performed,
frees it, and leaves every other byte as it is. What releases the slot's stores (a control register, an offer, a GET or PUT, a SYNC, an
event, a launch, a command of an engine, ICINV, the return from a standing offer's handler, a fault) acts as if they had been performed
before it.
The model's choices, not the spec's: that a buffer of 16 entries is used while `hold` is set (log entry 10), and that a store to memory of a
unit that is stopped or off interlocks its slot, where 08 R154 names the full buffer alone (log entry 83). -/
def Obligations.StoreBufferHoldsAndDrains : Prop :=
  (∀ (s : State) (n i : Nat) (e : SbEntry), (s.slot n).sb[i]? = some e → e.op = none → Storable s e.cells →
    (∀ c ∈ e.cells, guarded s c = false) → (e.parts = [] ∨ e.parts.length ∣ e.cells.length) → (i = 0 ∨ e.order = 0) →
    (∀ q ∈ (s.slot n).sb.take i, ∀ c ∈ q.cells, c ∉ e.cells) → asleep s e.cells = false →
    ∃ t, exec (.storeBufferDrain n i) s = .next t ∧ StoresOnly s t n e.cells (bytesOf e.cells.length e.data) ∧
      t.slot n = { s.slot n with sb := (s.slot n).sb.eraseIdx i }) ∧
  (∀ (s : State) (n : Nat) (u : Trap), ((drainStores s n).slot n).sb = [] ∧
    takeTrap s n u = takeTrap (drainStores s n) n u) ∧
  (∀ (s : State) (d a b x e q : Nat) (i : Instr), s.NoPrefix →
    i ∈ [.csrr d b, .csrw d a b, .csrs d a b, .csrc d a b, .offer d a b, .offert d a b, .offers d a b, .sync d, .get d e, .put d e,
      .evnew d a, .launch d a x e, .icinv d a b, .ofcanRet, .svcreply d a b, .mring a q, .mrpub d a q, .mrpop d a q, .sbind x e a q, .cpy x e a q, .cpys x e a q,
      .cpyg x e a q, .cpym x e a q] → exec i s = exec i (drainStores s s.cur)) ∧
  ∀ (s : State) (d b f o : Nat) (cells : List Nat), s.NoPrefix → o = 0 ∨ o = 2 →
    let ea := memAddr s.me b f 6
    (s.hold = true → isRemote s ea = false → ea % 8 = 0 → localCells s s.cur s.me.mode ea 8 2 o = .ok cells →
      asleep s cells = false → s.me.sb.length < storeBufferSize → ∃ t, exec (.std d b o f) s = .next t ∧
        (t.slot s.cur).sb = s.me.sb ++ [⟨ea, cells, (s.me.rs d).toNat, none, o, 0, []⟩] ∧ (t.slot s.cur).st = .running ∧
        (s.me.frame = none → (t.slot s.cur).pc = (s.me.pc + 4) % 2 ^ 52) ∧ s.me.KeepsS (t.slot s.cur) ∧ ∀ a, t.byte a = s.byte a) ∧
    (s.hold = true → isRemote s ea = false → ea % 8 = 0 → localCells s s.cur s.me.mode ea 8 2 o = .ok cells →
      storeBufferSize ≤ s.me.sb.length ∨ asleep s cells = true → ∃ t, exec (.std d b o f) s = .next t ∧ s.me.Waits (t.slot s.cur) .busy)

/-- 08 R156, R157: a fence with nothing outstanding only advances PC (a full fence of package or system scope is announced too,
18 R282, once no operation that its key places after it has been announced in its window); one that has earlier stores to wait for is
an interlock until FENCE_DRAIN_END, when none of them is outstanding; a scope above SYS is ILLEGAL.
The model's readings: that an SC operation waits for its window by the numbers of the cores (log entry 69), and that the acknowledgement of a
remote store, for which a fence of system scope waits, is a step of its own that comes at any moment (log entry 71). -/
def Obligations.FencesDrainWhatTheyOrder : Prop :=
  (∀ (s : State) (n sc kind : Nat), (s.slot n).st = .interlocked (.fence kind sc) → (s.slot n).frame = none →
    ((kind = 0 → 3 ≤ sc → scMayEnd s n = true) → (kind ≠ 1 → sc = 4 → (s.slot n).sent = []) →
      ∃ t, exec (.fenceDrainEnd n) s = .next t ∧ (t.slot n).st = .running ∧ (t.slot n).pc = ((s.slot n).pc + 4) % 2 ^ 52 ∧
        (t.slot n).sb = [] ∧ (s.slot n).KeepsS (t.slot n)) ∧
    ((kind = 0 ∧ 3 ≤ sc ∧ scMayEnd s n = false) ∨ (kind ≠ 1 ∧ sc = 4 ∧ (s.slot n).sent ≠ []) →
      exec (.fenceDrainEnd n) s = .next s)) ∧
  (∀ (s : State) (e : Sent), (s.slot s.cur).sent = [e] → e.cls = 0 → (s.slot s.cur).appends = [] →
    ((storeAck s s.cur e.seq).slot s.cur).sent = [] ∧ ∀ a, (storeAck s s.cur e.seq).byte a = s.byte a) ∧
  ∀ (s : State) (sc kind : Nat), s.NoPrefix →
    (s.late = false → s.me.sb = [] → s.me.sent = [] → sc ≤ 4 →
      NoEffect (.fenceAcq sc) s ∧ NoEffect (.fenceRel sc) s ∧ NoEffect (.fenceSs sc) s ∧ (sc < 3 → NoEffect (.fence sc) s) ∧
      (3 ≤ sc → scMayEnd s s.cur = false → ∃ t, exec (.fence sc) s = .next t ∧ s.me.Waits (t.slot s.cur) (.fence 0 sc)) ∧
      (3 ≤ sc → scMayEnd s s.cur = true → ∃ t, exec (.fence sc) s = .next t ∧ s.me.Completed (t.slot s.cur) ∧ s.me.KeepsS (t.slot s.cur) ∧
        (∀ a, t.byte a = s.byte a) ∧ ∃ e, t.sc = s.sc ++ [e] ∧ e.window = s.time / 64 ∧ e.slot = s.cur)) ∧
    (s.me.sb ≠ [] ∨ (sc = 4 ∧ s.me.sent ≠ []) → sc ≤ 4 → ∀ i, (i, kind) ∈ [(Instr.fence sc, 0), (.fenceRel sc, 2), (.fenceSs sc, 3)] →
      ∃ t, exec i s = .next t ∧ s.me.Waits (t.slot s.cur) (.fence kind sc) ∧ ∀ a, t.byte a = s.byte a) ∧
    (4 < sc → ∀ i, i ∈ [Instr.fence sc, .fenceAcq sc, .fenceRel sc, .fenceSs sc] →
      exec i s = .next (takeTrap s s.cur { code := 0x01 }))

/-- 08 R158, R159, R163: an atomic of local memory returns the old value zero-extended and leaves the new value of its table in its
bytes, in one step; the float members add their flags to FLAGS; s0 as the destination discards the old value. ACAS2 replaces its pair
when it holds the expected one, and returns the old pair. 08 R154, R160; 18 R282: an SC atomic is announced besides, whether answers come
late and stores are held or not; one that its key places before an announced operation of this window waits.
That an SC operation waits for its window by the numbers of the cores is the model's reading (log entry 69). -/
def Obligations.AtomicsReadModifyWrite : Prop :=
  ∀ (s : State) (d a b o w : Nat) (cells : List Nat), s.NoPrefix → (s.hold = false ∧ s.late = false ∧ o < 3) ∨ o = 3 → Storable s cells →
    let ea := (s.me.rs a).toNat
    let n := if w = 1 then 64 else 32
    let old := numOf (cells.map s.byte)
    let p := BitVec.ofNat n old
    let x := (s.me.rs b).setWidth n
    let c := (s.me.rs d).setWidth n
    let fm := if w = 1 then fp64 else fp32
    let res := fun (i : Instr) (new fl : Nat) =>
      Accessible s ea (n / 8) (n / 8) 3 o cells →
        Ordered i s o (AtomicDone d cells (bytesOf (n / 8) new) (BitVec.ofNat 64 old) fl)
    w ≤ 1 →
    (o = 3 → scMayAct s s.cur = false → Accessible s ea (n / 8) (n / 8) 3 o cells →
      ∃ t, exec (.aadd d a b o w) s = .next t ∧ s.me.Waits (t.slot s.cur) .busy) ∧
    ((o = 3 → scMayAct s s.cur = true) →
    res (.aadd d a b o w) (p + x).toNat 0 ∧ res (.aand d a b o w) (p &&& x).toNat 0 ∧ res (.aor d a b o w) (p ||| x).toNat 0 ∧
    res (.axor d a b o w) (p ^^^ x).toNat 0 ∧ res (.amin d a b o w) (if p.sle x then p else x).toNat 0 ∧
    res (.amax d a b o w) (if p.sle x then x else p).toNat 0 ∧ res (.aminn d a b o w) (if p ≤ x then p else x).toNat 0 ∧
    res (.amaxn d a b o w) (if p ≤ x then x else p).toNat 0 ∧ res (.aswp d a b o w) x.toNat 0 ∧
    res (.acas d a b o w) (if p = c then x else p).toNat 0 ∧
    res (.afadd d a b o w) (fadd fm .rne old x.toNat).1 (fadd fm .rne old x.toNat).2 ∧
    res (.afmin d a b o w) (fminmax fm false old x.toNat).1 (fminmax fm false old x.toNat).2 ∧
    res (.afmax d a b o w) (fminmax fm true old x.toNat).1 (fminmax fm true old x.toNat).2 ∧
    (d % 2 = 0 → b % 2 = 0 → Accessible s ea 16 16 3 o cells →
      let want := bytesOf 8 (s.me.rs d).toNat ++ bytesOf 8 (s.me.rs (d + 1)).toNat
      let new := bytesOf 8 (s.me.rs b).toNat ++ bytesOf 8 (s.me.rs (b + 1)).toNat
      Ordered (.acas2 d a b o) s o fun s t => s.me.Completed (t.slot s.cur) ∧
        StoresOnly s t s.cur cells (if cells.map s.byte = want then new else cells.map s.byte) ∧
        ∀ r, (t.slot s.cur).rs r = if r % 64 = d % 64 ∧ d % 64 ≠ 0 then BitVec.ofNat 64 old
          else if r % 64 = (d + 1) % 64 then BitVec.ofNat 64 (old / 2 ^ 64) else s.me.rs r))

/-- 08 R165 to R168, R161; 24 R346: BTAG changes the current tag and no batch. BCLOSE takes the batch out and sends a close request, with
the members meant, to each node to which some went, or, for a batch without members, writes the summary word and offers at once; a second
close of a pending tag is an interlock. INGRESS_DEQUEUE puts a close request by; CLOSE_REQUEST answers it, once every member that it names has
been performed or has failed, with their errors. RAPPEND sends its record once the slot's earlier remote stores are acknowledged (18 R289), to
the own node through its own interface; a malformed one raises RING. BATCH_SUMMARY and APPEND_STATUS write their word and offer; ATOMIC_REPLY
ends the interlock of an atomic with its old value and flags.
The model's choices, not the spec's: the answers of summaries and appends are arguments of steps that come at any moment (log entries 71,
133); the close of an empty batch waits while a remote store of the slot is not acknowledged, which it releases, where R166 says at once (log
entry 155). -/
def Obligations.BatchesCloseAndAppendsReturn : Prop :=
  (∀ (s : State) (n b : Nat) (c : Close) (rest : List Close) (answers : List Nat), (s.slot n).closes = c :: rest → c.batch.tag = b →
    s.WordAt c.cell →
    (answers.length ≠ c.batch.asked.length ∨ closeWaits (s.slot n) c = true → exec (.batchSummary n b answers) s = .next s) ∧
    (answers.length = c.batch.asked.length → closeWaits (s.slot n) c = false → ∃ t, exec (.batchSummary n b answers) s = .next t ∧ (t.slot n).closes = rest ∧
      let errs := c.batch.nodes.map fun p => (p.2 ||| ((c.batch.asked.zip answers).find? fun q => q.1 == p.1).elim 0 fun q => q.2 % 32) % 32
      WordAndOffer s t c.cell (min (errs.filter (· != 0)).length 0xFFFF * 2 ^ 48 + min c.batch.nodes.length 0xFFFF * 2 ^ 32 +
        errs.foldl (· ||| ·) 0) (partyOf s 1 n) c.ev)) ∧
  (∀ (s : State) (n i st pos w : Nat) (ap : Append), (s.slot n).appends[i]? = some ap → s.WordAt ap.cell →
    let answered := fun (x : Nat) => ∃ t, exec (.appendStatus n i st pos) s = .next t ∧
      (t.slot n).appends = (s.slot n).appends.eraseIdx i ∧ WordAndOffer s t ap.cell x (partyOf s 1 n) ap.ev
    (ap.status = none → ap.pkt = none → ap.node ≠ s.node → st ≤ 5 → answered (if st = 0 then pos % 2 ^ 32 * 2 ^ 32 else st)) ∧
    (ap.status = some w → w ≠ 0x0D → w < 2 ^ 64 → answered w)) ∧
  (∀ (s : State) (vi cls : Nat) (q : Packet) (rest : List Packet), s.ingress.get (vi * 8 + cls) [] = q :: rest → q.op = 5 → cls < 4 →
    ∃ t, exec (.ingressDequeue vi cls) s = .next t ∧ t.closing = s.closing ++ [q] ∧ t.ingress.get (vi * 8 + cls) [] = rest ∧
      t.errs = s.errs ∧ ∀ c, t.byte c = s.byte c) ∧
  (∀ (s : State) (vi i : Nat) (q : Packet), (s.closing.filter fun m => m.vi == vi)[i]? = some q →
    let ms := unpackMembers q.size q.data
    let known := fun (m : Nat × Nat) => ∃ e ∈ s.errs, e.1 = m.1 ∧ e.2.1 = q.tag ∧ e.2.2.1 = m.2
    let mine := fun (x : Nat × Nat × Nat × Nat) => x.2.1 == q.tag && ms.contains (x.1, x.2.2.1)
    ((∃ m ∈ ms, ¬known m) → exec (.closeRequest vi i) s = .next s) ∧
    ((∀ m ∈ ms, known m) → usablePorts s (bits q.src 24 13) ≠ [] → ∃ t, exec (.closeRequest vi i) s = .next t ∧
      t.closing = s.closing.erase q ∧ t.errs = s.errs.filter (fun x => !mine x) ∧
      ∃ m, t.Sent m ∧ m.cls = 2 ∧ m.node = bits q.src 24 13 ∧ m.tag = q.tag ∧ m.seq = q.seq ∧
        m.data = ((s.errs.filter mine).map fun x => x.2.2.2).foldl (· ||| ·) 0)) ∧
  (∀ (s : State) (n d a b o w old fl : Nat) (asks : List Ask), (s.slot n).st = .interlocked (.remote (.aadd d a b o w) asks) →
    (s.slot n).frame = none → (s.slot n).pfx = none → isRemote s ((s.slot n).rs a).toNat = true → ((s.slot n).rs a).toNat % 8 = 0 →
    o ≠ 3 → d % 64 ≠ 0 →
    ∃ t, exec (.atomicReply n 0 old fl) s = .next t ∧ (t.slot n).st = .running ∧
      (t.slot n).pc = ((s.slot n).pc + 4) % 2 ^ 52 ∧
      (s.slot n).WritesS (t.slot n) d (BitVec.ofNat 64 (old % 2 ^ (if w = 1 then 64 else 32))) ∧
      (t.slot n).flags = (s.slot n).flags ||| BitVec.ofNat 64 (fl % 32)) ∧
  ∀ (s : State) (e a b : Nat) (ev : Option EvRef) (cells : List Nat), s.NoPrefix → s.me.frame = none →
    let next := (s.me.pc + 4) % 2 ^ 52
    let bt := (s.me.batches.find? fun c => c.tag == b).getD { tag := b, nodes := [] }
    let ea := (s.me.rs a).toNat
    let block := (s.me.rs b).toNat
    (b ≤ 3 → GoesTo (.btag b) s { s.me with tag := b } next) ∧
    (b ≤ 3 → s.me.sb = [] → remoteEvent s s.cur e = .ok ev → ea % 8 = 0 → localCells s s.cur s.me.mode ea 8 2 0 = .ok cells →
      ((∃ c ∈ s.me.closes, c.batch.tag = b) → ∃ t, exec (.bclose e a b) s = .next t ∧ s.me.Waits (t.slot s.cur) .busy) ∧
      ((∀ c ∈ s.me.closes, c.batch.tag ≠ b) → bt.nodes = [] → s.me.sent = [] → s.WordAt (cells.headD 0) → ∃ t, exec (.bclose e a b) s = .next t ∧
        WordAndOffer s t (cells.headD 0) 0 (partyOf s 1 s.cur) ev ∧ (t.slot s.cur).pc = next ∧
        (t.slot s.cur).closes = s.me.closes) ∧
      ((∀ c ∈ s.me.closes, c.batch.tag ≠ b) → bt.nodes ≠ [] ∨ s.me.sent ≠ [] → ∃ t u, exec (.bclose e a b) s = .next t ∧
        (t.slot s.cur).closes = s.me.closes ++ [⟨u, cells.headD 0, ev, ea, s.me.seq⟩] ∧ u.tag = bt.tag ∧ (t.slot s.cur).pc = next ∧
        ((∀ m ∈ bt.asked, usablePorts s m ≠ []) → u = bt) ∧ (∀ m ∈ bt.asked, usablePorts s m = [] → m ∉ u.asked) ∧
        (t.slot s.cur).batches = (s.me.batches.filter fun c => c.tag != b) ∧ (∀ c, t.byte c = s.byte c) ∧
        ∀ m ∈ bt.asked, usablePorts s m ≠ [] → ∃ q, t.Sent { packetOf s s.cur 1 5 m 0 (bt.sentTo m).length with
          seq := q, tag := bt.tag, data := packMembers (bt.sentTo m) })) ∧
    (∀ h rec s1 s2 k, s.me.sb = [] → remoteEvent s s.cur e = .ok ev → block % 8 = 0 →
      localCells s s.cur s.me.mode block 8 1 0 = .ok k → localCells s s.cur s.me.mode block 8 2 0 = .ok cells →
      readLocal s s.cur ((block + 8) % 2 ^ 64) 8 1 0 = .ok (h, s1) →
      let len := bits h 63 48
      let good := len % 8 = 0 ∧ 8 ≤ len ∧ len ≤ 256 ∧ (bits h 47 40 = 1 ∨ bits h 47 40 = 2)
      let own := ea / 2 ^ 52 = 0xFFF ∨ ea / 2 ^ 52 = s.node ∨ winBase ≤ ea % 2 ^ 52
      let node := if own then s.node else ea / 2 ^ 52
      let m := { packetOf s s.cur 4 4 node (ea % 2 ^ 52) len with data := rec }
      let word := fun (q : Nat) (st : Option Nat) (p : Option Packet) => (⟨cells.headD 0, ev, node, m.src, q, st, block, p, s.me.seq⟩ : Append)
      (¬good → exec (.rappend e a b) s = .next (takeTrap s s.cur { code := 0x0A })) ∧
      (good → readLocal s s.cur ((block + 8) % 2 ^ 64) len 1 0 = .ok (rec, s2) → (∀ p ∈ s.me.appends, p.pkt = none) →
        ∃ t, exec (.rappend e a b) s = .next t ∧ (t.slot s.cur).pc = next ∧ (∀ c, t.byte c = s.byte c) ∧
          ((∃ g ∈ s.me.sent, g.seq < s.me.seq) → (t.slot s.cur).appends = s.me.appends ++ [word 0 none (some m)] ∧ t.ports = s.ports ∧
            t.ingress = s.ingress) ∧
          ((∀ g ∈ s.me.sent, s.me.seq ≤ g.seq) →
            (¬own → usablePorts s node ≠ [] → (t.slot s.cur).appends = s.me.appends ++ [word s.me.seq none none] ∧
              t.Sent { m with seq := s.me.seq }) ∧
            (¬own → usablePorts s node = [] → ∃ q, (t.slot s.cur).appends = s.me.appends ++ [word q (some 3) none]) ∧
            (own → (t.slot s.cur).appends = s.me.appends ++ [word s.me.seq none none] ∧
              t.ingress.get (s.me.vi * 8 + 4) [] = s.ingress.get (s.me.vi * 8 + 4) [] ++ [{ m with seq := s.me.seq }]))))

/-! ### Vectors -/

/-- 06 R93, R94, R114, R116: the integer vector members: every active element gets its result modulo 2^w, every other element and
FLAGS stay. -/
def Obligations.VectorIntegerResults : Prop :=
  ∀ (s : State) (d a b c k w : Nat), s.NoPrefix → w < 4 →
    let e := 8 * 2 ^ w
    let act := fun (n j : Nat) => (s.me.rk k).getLsbD (j * n / 8)
    let res := fun (i : Instr) (n : Nat) (f : Nat → BitVec n) =>
      VectorResult i s d n (fun j => if act n j then (f j).toNat else (laneBits (s.me.rv d) n j).toNat) 0
    let u := fun j => laneBits (s.me.rv a) e j
    let v := fun j => laneBits (s.me.rv b) e j
    let m := fun r j => laneBits (s.me.rv r) 32 j
    res (.vadd d a b k w) e (fun j => u j + v j) ∧ res (.vsub d a b k w) e (fun j => u j - v j) ∧
    res (.vmul d a b k w) e (fun j => u j * v j) ∧
    res (.vmulh d a b k w) e (fun j => BitVec.ofInt e ((u j).toInt * (v j).toInt / 2 ^ e)) ∧
    res (.vmin d a b k w) e (fun j => if (u j).sle (v j) then u j else v j) ∧
    res (.vmax d a b k w) e (fun j => if (u j).sle (v j) then v j else u j) ∧
    res (.vminn d a b k w) e (fun j => if u j ≤ v j then u j else v j) ∧
    res (.vmaxn d a b k w) e (fun j => if u j ≤ v j then v j else u j) ∧
    res (.vand d a b k w) e (fun j => u j &&& v j) ∧ res (.vor d a b k w) e (fun j => u j ||| v j) ∧
    res (.vxor d a b k w) e (fun j => u j ^^^ v j) ∧ res (.vandn d a b k w) e (fun j => u j &&& ~~~(v j)) ∧
    res (.vshl d a b k w) e (fun j => u j <<< ((v j).toNat % e)) ∧
    res (.vshr d a b k w) e (fun j => u j >>> ((v j).toNat % e)) ∧
    res (.vsar d a b k w) e (fun j => (u j).sshiftRight ((v j).toNat % e)) ∧
    res (.vabs d a k w) e (fun j => if (u j).msb then -(u j) else u j) ∧ res (.vneg d a k w) e (fun j => -(u j)) ∧
    res (.vpopc d a k w) e (fun j => BitVec.ofNat e ((List.range e).countP fun i => (u j).getLsbD i)) ∧
    res (.vmadd d a b c k) 32 (fun j => m a j * m b j + m c j) ∧ res (.vmsub d a b c k) 32 (fun j => m a j * m b j - m c j)

/-- 06 R112, R115, R116, R130: the float vector members in the format and the rounding in force, one rounded operation per active
element, the flags of all of them together; a stochastic rounding, or a format that is no float width one, is ILLEGAL.
Which value within the bound of R130, and what VRCP gives on overflow, are the model's choices (log entries 24, 145). -/
def Obligations.VectorFloatResults : Prop :=
  ∀ (s : State) (d a b c k : Nat) (f : Fmt),
    let g := fmtsOf s.me
    let md := modeOf s.me g
    let u := fun j => elem f.w (s.me.rv a) j
    let v := fun j => elem f.w (s.me.rv b) j
    let z := fun j => elem f.w (s.me.rv c) j
    let res := fun (i : Instr) (op : Nat → Nat × Nat) => LaneResult i s d k f.w fun j => ((op j).1 % 2 ^ f.w, (op j).2)
    (g.rnd ≠ 3 → g.fr < 4 → fmtOf g.fr = some f →
      res (.vfadd d a b k) (fun j => fadd f md (u j) (v j)) ∧ res (.vfsub d a b k) (fun j => fsub f md (u j) (v j)) ∧
      res (.vfmul d a b k) (fun j => fmul f md (u j) (v j)) ∧ res (.vdiv d a b k) (fun j => fdiv f md (u j) (v j)) ∧
      res (.vfmin d a b k) (fun j => fminmax f false (u j) (v j)) ∧ res (.vfmax d a b k) (fun j => fminmax f true (u j) (v j)) ∧
      res (.vfabs d a k) (fun j => (u j % 2 ^ (f.w - 1), 0)) ∧ res (.vfneg d a k) (fun j => (u j ^^^ 2 ^ (f.w - 1), 0)) ∧
      res (.vfma d a b c k) (fun j => fma f md false false (u j) (v j) (z j)) ∧
      res (.vfms d a b c k) (fun j => fma f md false true (u j) (v j) (z j)) ∧
      res (.vfnma d a b c k) (fun j => fma f md true false (u j) (v j) (z j)) ∧
      res (.vfnms d a b c k) (fun j => fma f md true true (u j) (v j) (z j)) ∧
      res (.vrcp d a k) (fun j => frcp f (u j)) ∧ res (.vrsq d a k) (fun j => frsq f (u j)) ∧
      res (.vexp2 d a k) (fun j => fexp2 f (u j)) ∧ res (.vlog2 d a k) (fun j => flog2 f (u j)) ∧
      res (.vsqrt d a k) (fun j => fsqrt f md (u j))) ∧
    (g.rnd = 3 ∨ 4 ≤ g.fr → g.fr < 16 → ∀ i, i ∈ [Instr.vfadd d a b k, .vfmul d a b k, .vdiv d a b k, .vfma d a b c k, .vsqrt d a k] →
      exec i s = .next (takeTrap s s.cur { code := 0x01 }))

/-- 06 R98, R99, R101, R115, R116, R130: a rounded result is the representable number that the mode selects from the exact one: the nearest,
of two equally near the one with an even code; the nearest toward zero; the least that is not below; the greatest that is not above; or,
where the exact one overflows, what R99's table gives. NX says that it differs from the exact one, UF besides that that is tiny, OF that it
overflows. It holds of the exact sum, difference, product, fused sum and quotient of two numbers, each rounded once; a square root is the
nearest one, or the nearest toward zero. -/
def Obligations.FiniteResultsRound : Prop :=
  ∀ (f : Fmt) (md : Rnd) (n a b c : Nat), n < 4 → fmtOf n = some f → md ∈ [Rnd.rne, .rtz, .rup, .rdn] →
    let x := (fdec f a).rat
    let y := (fdec f b).rat
    let z := (fdec f c).rat
    let finite := fun (c : Nat) => c < 2 ^ f.w ∧ (fdec f c).isFin = true
    (∀ neg m e, m ≠ 0 → Rounds f md (FVal.fin neg m e).rat (roundFin f md neg m e)) ∧
    (finite a → finite b →
      (x + y ≠ 0 → Rounds f md (x + y) (fadd f md a b)) ∧ (x - y ≠ 0 → Rounds f md (x - y) (fsub f md a b)) ∧
      (x * y ≠ 0 → Rounds f md (x * y) (fmul f md a b)) ∧ (x ≠ 0 → y ≠ 0 → Rounds f md (x / y) (fdiv f md a b)) ∧
      (finite c → ∀ np nc, let w := (if np then -(x * y) else x * y) + if nc then -z else z
        w ≠ 0 → Rounds f md w (fma f md np nc a b c))) ∧
    (finite a → 0 < x →
      let r := fsqrt f md a
      let v := (fdec f r.1).rat
      finite r.1 ∧ 0 < v ∧ (r.2 = if v * v = x then 0 else 1) ∧
      (md = .rtz → v * v ≤ x ∧ ∀ k, finite k → 0 ≤ (fdec f k).rat → (fdec f k).rat * (fdec f k).rat ≤ x → (fdec f k).rat ≤ v) ∧
      (md = .rne → ∀ k, finite k → 0 ≤ (fdec f k).rat →
        (v < (fdec f k).rat → 4 * x ≤ (v + (fdec f k).rat) ^ 2) ∧ ((fdec f k).rat < v → (v + (fdec f k).rat) ^ 2 ≤ 4 * x)))

/-- 06 R97, R101, R115, R130: what the float operations make of NaNs, infinities and zeros, in every format that float width members
take and in every rounding: a NaN operand gives the canonical NaN and NV only if it is signalling, ∞ − ∞ and 0 × ∞ the canonical NaN
and NV, x/0 an infinity and DZ; x − x is +0, or −0 rounding down. VFMIN and VFMAX take the lesser and the greater number, −0 before +0,
and of a number and a NaN the number. -/
def Obligations.FloatSpecialOperands : Prop :=
  ∀ (f : Fmt) (md : Rnd) (n x : Nat), n < 4 → fmtOf n = some f → x < 2 ^ f.w →
    let inf := infCode f false
    let ninf := infCode f true
    (∀ g, fdec f x = .nan g → ∀ y, fdec f y ≠ .nan true → let r := (canonNaN f, if g then 16 else 0)
      fadd f md x y = r ∧ fsub f md x y = r ∧ fmul f md x y = r ∧ fdiv f md x y = r ∧ fadd f md y x = r ∧ fmul f md y x = r ∧
      fsqrt f md x = r) ∧
    fadd f md inf ninf = (canonNaN f, 16) ∧ fsub f md inf inf = (canonNaN f, 16) ∧
    fmul f md 0 inf = (canonNaN f, 16) ∧ fdiv f md 0 0 = (canonNaN f, 16) ∧ fdiv f md inf inf = (canonNaN f, 16) ∧
    (∀ neg m e, fdec f x = .fin neg m e → m ≠ 0 → fdiv f md x 0 = (infCode f neg, 8)) ∧
    (∀ neg m e, fdec f x = .fin neg m e → fsub f md x x = (if md = .rdn then 2 ^ (f.w - 1) else 0, 0)) ∧
    (∀ neg m e, fdec f x = .fin neg m e → fadd f md inf x = (inf, 0)) ∧
    ∀ y, y < 2 ^ f.w →
      let u := fdec f x
      let v := fdec f y
      let r := fun (gt : Bool) => (fminmax f gt x y).1
      (∀ gt, (fminmax f gt x y).2 = if u = .nan true ∨ v = .nan true then 16 else 0) ∧
      (u.isNan = true → v.isNan = true → ∀ gt, r gt = canonNaN f) ∧
      (u.isNan = true → v.isNan = false → ∀ gt, r gt = y) ∧ (u.isNan = false → v.isNan = true → ∀ gt, r gt = x) ∧
      (u.isNan = false → v.isNan = false → (∀ gt, r gt = x ∨ r gt = y) ∧
        (u = .inf true ∨ v = .inf true → r false = infCode f true) ∧ (u = .inf false ∨ v = .inf false → r true = infCode f false) ∧
        (u.isFin = true → v.isFin = true → (fdec f (r false)).rat = min u.rat v.rat ∧ (fdec f (r true)).rat = max u.rat v.rat ∧
          (u.rat = 0 → v.rat = 0 → x ≠ y → (r false = 2 ^ (f.w - 1)) ∧ r true = 0)))

/-- 06 R117, R131, R120: compares write the byte lanes of the active elements, SEL writes every element, the predicate operations act
on all 128 bits; KPOPC counts and KFIRST finds the lowest active element. The conditions of VCMPF are the relations of the numbers; a
relation with a NaN is false, but for NE and UN, and raises NV for a signalling NaN, and for any NaN under a signalling condition. -/
def Obligations.ComparesSelectsAndPredicates : Prop :=
  ∀ (s : State) (d a b k w c h : Nat), s.NoPrefix → w < 4 →
    let e := 8 * 2 ^ w
    let u := fun i => laneBits (s.me.rv a) e (i * 8 / e)
    let v := fun i => laneBits (s.me.rv b) e (i * 8 / e)
    let cmp := fun (c : Nat) (r : Nat → Bool) => PredResult (.vcmpi d a b k w c) s d
      (fun i => if active (s.me.rk k) e (i * 8 / e) then r i else (s.me.rk d).getLsbD i) 0
    let p := s.me.rk a
    let q := s.me.rk b
    let g := fmtsOf s.me
    cmp 0 (fun i => u i == v i) ∧ cmp 1 (fun i => u i != v i) ∧ cmp 2 (fun i => (u i).slt (v i)) ∧
    cmp 3 (fun i => (u i).sle (v i)) ∧ cmp 4 (fun i => (u i).ult (v i)) ∧ cmp 5 (fun i => (u i).ule (v i)) ∧
    cmp 6 (fun i => (v i).slt (u i)) ∧ cmp 7 (fun i => (v i).sle (u i)) ∧
    (∀ f, g.rnd ≠ 3 → g.fr < 4 → fmtOf g.fr = some f →
      let r := fun j => floatCond c (fdec f (elem f.w (s.me.rv a) j)) (fdec f (elem f.w (s.me.rv b) j))
      PredResult (.vcmpf d a b k c) s d
        (fun i => if active (s.me.rk k) f.w (i * 8 / f.w) then (r (i * 8 / f.w)).1 else (s.me.rk d).getLsbD i)
        (activeFlags (s.me.rk k) f.w fun j => (r j).2)) ∧
    (∀ (u v : FVal), u.isFin = true → v.isFin = true →
      floatCond 0 u v = (decide (u.rat = v.rat), 0) ∧ floatCond 1 u v = (decide (u.rat ≠ v.rat), 0) ∧
      floatCond 2 u v = (decide (u.rat < v.rat), 0) ∧ floatCond 3 u v = (decide (u.rat ≤ v.rat), 0) ∧
      floatCond 4 u v = (decide (v.rat < u.rat), 0) ∧ floatCond 5 u v = (decide (v.rat ≤ u.rat), 0) ∧
      floatCond 6 u v = (false, 0) ∧ floatCond 7 u v = (true, 0) ∧
      (floatCond 2 u (.inf false)).1 = true ∧ (floatCond 2 u (.inf true)).1 = false ∧ (floatCond 2 (.inf true) u).1 = true ∧
      (floatCond 2 (.inf true) (.inf false)).1 = true ∧ (floatCond 0 (.inf true) (.inf true)).1 = true) ∧
    (∀ (m : Nat) (u v : FVal), m < 8 → u.isNan = true ∨ v.isNan = true → floatCond m u v =
      (decide (m = 1 ∨ m = 6), if (2 ≤ m ∧ m ≤ 5) ∨ u = .nan true ∨ v = .nan true then 16 else 0)) ∧
    VectorResult (.vsel d a b k w) s d e
      (fun j => if active (s.me.rk k) e j then elem e (s.me.rv a) j else elem e (s.me.rv b) j) 0 ∧
    PredResult (.kand d a b) s d (fun i => p.getLsbD i && q.getLsbD i) 0 ∧
    PredResult (.kor d a b) s d (fun i => p.getLsbD i || q.getLsbD i) 0 ∧
    PredResult (.kxor d a b) s d (fun i => p.getLsbD i != q.getLsbD i) 0 ∧
    PredResult (.knot d a) s d (fun i => !p.getLsbD i) 0 ∧ PredResult (.kmov d a) s d (fun i => p.getLsbD i) 0 ∧
    ScalarResult (.kpopc d a w h) s (h * 32 + d) (BitVec.ofNat 64 ((List.range (1024 / e)).countP fun j => active p e j)) ∧
    ∃ m, m ≤ 1024 / e ∧ (∀ j, j < m → active p e j = false) ∧ (m < 1024 / e → active p e m = true) ∧
      ScalarResult (.kfirst d a w h) s (h * 32 + d) (BitVec.ofNat 64 m)

/-- 06 R119: VRED and VSCAN over the active elements. ADD is the sum modulo 2^w; MINN and MAXN, MIN and MAX pick an active element that
bounds the others, or the identity; FADD, FMIN and FMAX of VRED combine neighbours pairwise, those of VSCAN run from the first active
element up, each step one operation whose flags are raised. VRED writes zero to every other element, VSCAN leaves the inactive ones.
That a nonzero b field is ignored is the model's choice (log entry 150). -/
def Obligations.ReductionsAndScans : Prop :=
  ∀ (s : State) (d a b k w : Nat), w < 4 → (fmtsOf s.me).rnd ≠ 3 →
    let e := 8 * 2 ^ w
    let g := fmtsOf s.me
    let act := fun n j => active (s.me.rk k) n j
    let l := fun n m => ((List.range m).filter fun j => act n j).map fun j => elem n (s.me.rv a) j
    let all := l e (1024 / e)
    let first := fun (r : Nat) => fun j => if j = 0 then r else 0
    let scan := fun n (f : Nat → Nat) => fun j => if act n j then f j else elem n (s.me.rv d) j
    let natural := fun (x : Nat) => (x : Int)
    let signed := fun (x : Nat) => (BitVec.ofNat e x).toInt
    let picks := fun (op ident : Nat) (least : Bool) (val : Nat → Int) =>
      let bounds := fun (r : Nat) (m : List Nat) => r ∈ m ∧ ∀ x ∈ m, if least then val r ≤ val x else val x ≤ val r
      (∃ r, VectorResult (.vred d a b k w op) s d e (first r) 0 ∧ (all = [] → r = ident) ∧ (all ≠ [] → bounds r all)) ∧
      ∃ r : Nat → Nat, VectorResult (.vscan d a b k w op) s d e (scan e r) 0 ∧
        ∀ j, j < 1024 / e → act e j = true → bounds (r j) (l e (j + 1))
    VectorResult (.vred d a b k w 0) s d e (first (all.sum % 2 ^ e)) 0 ∧
    VectorResult (.vscan d a b k w 0) s d e (scan e fun j => (l e (j + 1)).sum % 2 ^ e) 0 ∧
    picks 2 (2 ^ (e - 1) - 1) true signed ∧ picks 3 (2 ^ (e - 1)) false signed ∧
    picks 4 (2 ^ e - 1) true natural ∧ picks 5 0 false natural ∧
    ∀ f, g.fr < 4 → fmtOf g.fr = some f →
      let flt := fun (o ident : Nat) (op : Nat → Nat → Nat × Nat) =>
        let run := fun (m : List Nat) => match m with
          | [] => (ident, 0)
          | x :: t => t.foldl (fun c y => ((op c.1 y).1, c.2 ||| (op c.1 y).2)) (x, 0)
        VectorResult (.vred d a b k 0 o) s d f.w (first ((combine op 8 (l f.w (1024 / f.w))).1.headD ident % 2 ^ f.w))
          (combine op 8 (l f.w (1024 / f.w))).2 ∧
        VectorResult (.vscan d a b k 0 o) s d f.w (scan f.w fun j => (run (l f.w (j + 1))).1 % 2 ^ f.w) (run (l f.w (1024 / f.w))).2
      flt 1 0 (fadd f (modeOf s.me g)) ∧ flt 6 (infCode f false) (fminmax f false) ∧ flt 7 (infCode f true) (fminmax f true) ∧
      ∀ (op : Nat → Nat → Nat × Nat) (x y : Nat) (m : List Nat), combine op 0 m = (m, 0) ∧ (∀ n, combine op (n + 1) [x] = ([x], 0)) ∧
        pairUp op [x] = ([x], 0) ∧ pairUp op (x :: y :: m) = ((op x y).1 :: (pairUp op m).1, (op x y).2 ||| (pairUp op m).2) ∧
        ∀ n, (combine op (n + 1) (x :: y :: m)) =
          let pairs := pairUp op (x :: y :: m)
          let r := combine op n pairs.1
          (r.1, pairs.2 ||| r.2)

/-- 06 R120: the lane moves; VGETL and VSETL take a lane that exists of 32 or 64 bits, any other is ILLEGAL. -/
def Obligations.LaneMoves : Prop :=
  ∀ (s : State) (d a b k w h n : Nat), s.NoPrefix → w < 4 →
    let e := 8 * 2 ^ w
    let x := fun j => elem e (s.me.rv a) j
    let lane := fun (i : Instr) (f : Nat → Nat) => LaneResult i s d k e fun j => (f j, 0)
    let sa := (s.me.rs (h * 32 + a)).toNat % 2 ^ e
    lane (.vperm d a b k w) (fun j => x (elem e (s.me.rv b) j % (1024 / e))) ∧
    lane (.vbcast d a k w h) (fun _ => sa) ∧
    lane (.vslideDn d a n k w) (fun j => if j + n < 1024 / e then x (j + n) else 0) ∧
    lane (.vslideUp d a n k w) (fun j => if n ≤ j then x (j - n) else 0) ∧
    lane (.viota d k w) (fun j => j) ∧
    lane (.viotaCnt d k w) (fun j => (List.range j).countP fun i => active (s.me.rk k) e i) ∧
    (2 ≤ w → n < 1024 / e →
      ScalarResult (.vgetl d a n w h) s (h * 32 + d) (BitVec.ofNat 64 (x n)) ∧
      VectorResult (.vsetl d a n w h) s d e (fun j => if j = n then sa else elem e (s.me.rv d) j) 0) ∧
    (w < 2 ∨ 1024 / e ≤ n → exec (.vgetl d a n w h) s = .next (takeTrap s s.cur { code := 0x01 }) ∧
      exec (.vsetl d a n w h) s = .next (takeTrap s s.cur { code := 0x01 }))

/-- 06 R121 to R128: VCVT converts part by part, every other element of its destination stays; VDEC and VENC go through the table of
the executing launch, PROT for any other; VQUANT and VBADD write blocks of a row, VDEQ reads one; TBLLD replaces entries, descriptor and
owner of one table in one step.
The sign of a zero sum of VBADD, and what VENC takes where Pick does not decide, are the model's choices (log entries 146, 147); so is the one
owner that TBLLD records for the slots of a Mace or Sumac core, which run no launch (log entry 60). -/
def Obligations.ConversionsBlocksAndTables : Prop :=
  ∀ (s : State) (d a b k p h : Nat),
    let x := s.me
    let g := fmtsOf x
    let md := modeOf x g
    let conv := fun (i : Instr) (wa wr : Nat) (f : Nat → Nat × Nat) =>
      let m := max wa wr
      let n := 1024 / m
      let off := if wr < wa then p * n else 0
      let r := fun j => f (elem wa (x.rv a) (if wa < wr then p * n + j else j))
      VectorResult i s d wr
        (fun j => if off ≤ j ∧ j < off + n ∧ active (x.rk k) m (j - off) then (r (j - off)).1 else elem wr (x.rv d) j)
        (activeFlags (x.rk k) m fun j => (r j).2)
    (g.rnd ≠ 3 → g.fa < 16 → g.fr < 16 → isT8 g.fa = false → isT8 g.fr = false → partOk (fmtWidth g.fa) (fmtWidth g.fr) p = true →
      conv (.vcvt d a k p) (fmtWidth g.fa) (fmtWidth g.fr) (fun v =>
        let r := convert g.fa g.fr md v
        (r.1 % 2 ^ fmtWidth g.fr, r.2))) ∧
    (g.rnd ≠ 3 → isT8 g.fa = true → g.fr = 15 → p < 4 →
      ((tableOf s s.cur g.fa).owner = some (launchKey x) →
        conv (.vdec d a k p) 8 32 (fun c => ((tableOf s s.cur g.fa).entries.get c 0 % 2 ^ 32, 0))) ∧
      ((tableOf s s.cur g.fa).owner ≠ some (launchKey x) →
        exec (.vdec d a k p) s = .next (takeTrap s s.cur { code := 0x05 }))) ∧
    (g.rnd ≠ 3 → isT8 g.fr = true → g.fa = 0 → p < 4 → (tableOf s s.cur g.fr).owner = some (launchKey x) →
      conv (.venc d a k p) 32 8 (fun c =>
        let r := encode8 (tableOf s s.cur g.fr) md (fdec fp32 c) (signBit fp32 c)
        (r.1 % 2 ^ 8, r.2))) ∧
    (g.fa = 0 → blockFmt g.fr = true → p < blockCount g.fr →
      let r := quantise g.fr (blockMode x g (x.rv d) p) ((elems 32 (x.rv a)).map (fdec fp32))
      VectorResult (.vquant d a p) s d 1024 (fun _ => (putBlock g.fr (x.rv d) p r.1 r.2.1).toNat) r.2.2) ∧
    (g.rnd ≠ 3 → g.fr = 0 → blockFmt g.fa = true → p < blockCount g.fa →
      LaneResult (.vdeq d a k p) s d k 32 fun j =>
        let r := roundWith fp32 md (mulV (elemVal g.fa (rowCode g.fa (x.rv a) p j)) (scaleVal (rowScale (x.rv a) p)))
        (r.1 % 2 ^ 32, r.2)) ∧
    (blockFmt g.fr = true → ∃ v fl, VectorResult (.vbadd d a b) s d 1024 (fun _ => BitVec.toNat v) fl ∧
      ∀ i, i < blockCount g.fr → let r := baddBlock x g (x.rv a) (x.rv b) (x.rv d) i
        rowScale v i = r.1 % 2 ^ 12 ∧ ∀ j, j < 32 → rowCode g.fr v i j = r.2.1.getD j 0 % 2 ^ fmtWidth g.fr) ∧
    (s.NoPrefix → x.frame = none → ∀ tb, tb < 2 → ∃ t, exec (.tblld 0 tb a b h) s = .next t ∧
      (t.slot s.cur).pc = (x.pc + 4) % 2 ^ 52 ∧
      let new := if tb = 0 then (t.core (coreOf s.cur)).tabA else (t.core (coreOf s.cur)).tabB
      new.owner = some (launchKey x) ∧ new.desc = (x.rs (h * 32 + b)).toNat % 2 ^ 25 ∧
      (∀ c, c < 256 → new.entries.get c 0 = elem 32 (x.rv (a + c / 32)) (c % 32) % 2 ^ 19) ∧
      (if tb = 0 then (t.core (coreOf s.cur)).tabB = (s.core (coreOf s.cur)).tabB
        else (t.core (coreOf s.cur)).tabA = (s.core (coreOf s.cur)).tabA) ∧
      (∀ n, n ≠ s.cur → t.slot n = s.slot n) ∧ x.KeepsS (t.slot s.cur) ∧ x.KeepsV (t.slot s.cur))

/-- 06 R132 to R134: vector loads of local memory. Every active element gets its bytes, the others stay; the addresses are those of
the four forms. -/
def Obligations.VectorLoadsOfLocalMemory : Prop :=
  ∀ (s : State) (v b r k o w : Nat) (cells : Nat → List Nat), s.NoPrefix → s.late = false → s.me.sb = [] → o ≤ 1 → w < 4 →
    let e := 2 ^ w
    let base := s.me.rs b
    let x := s.me.rs r
    let ok := fun (addr : Nat → Word) => ∀ j, j < 128 / e → active (s.me.rk k) (8 * e) j = true →
      Accessible s (addr j).toNat e e 1 o (cells j)
    let res := fun (i : Instr) => LaneResult i s v k (8 * e) fun j => (numOf ((cells j).map s.byte), 0)
    (ok (fun j => base + x + BitVec.ofNat 64 (j * e)) → res (.vld v b r k o w)) ∧
    (ok (fun j => base + BitVec.ofNat 64 j * x) → res (.vlds v b r k o w)) ∧
    (2 ≤ w → ok (fun j => base + (laneBits (s.me.rv r) (8 * e) j).signExtend 64 * BitVec.ofNat 64 e) → res (.vldx v b r k o w)) ∧
    (ok (fun _ => base + x) → res (.vldb v b r k o w))

/-- 06 R132 to R134: vector stores to local memory write the bytes of the active elements, and no other byte. -/
def Obligations.VectorStoresToLocalMemory : Prop :=
  ∀ (s : State) (v b r k o w : Nat) (cells : Nat → List Nat), s.NoPrefix → s.hold = false → s.me.sb = [] → o = 0 ∨ o = 2 → w < 4 →
    let e := 2 ^ w
    let base := s.me.rs b
    let x := s.me.rs r
    let js := (List.range (128 / e)).filter fun j => active (s.me.rk k) (8 * e) j
    let all := js.flatMap cells
    let data := js.flatMap fun j => bytesOf e (elem (8 * e) (s.me.rv v) j)
    let ok := fun (addr : Nat → Word) => Storable s all ∧ ∀ j ∈ js, Accessible s (addr j).toNat e e 2 o (cells j)
    let res := fun (i : Instr) => StoreResult i s all data
    (ok (fun j => base + x + BitVec.ofNat 64 (j * e)) → res (.vst v b r k o w)) ∧
    (ok (fun j => base + BitVec.ofNat 64 j * x) → res (.vsts v b r k o w)) ∧
    (2 ≤ w → ok (fun j => base + (laneBits (s.me.rv r) (8 * e) j).signExtend 64 * BitVec.ofNat 64 e) → res (.vstx v b r k o w))

/-! ### The matrix engine -/

/-- 12 R203 to R206, R219: MLEASE completes for an event of the slot and its arbiter, and registers the request; a slot that holds a
lease or has asked for one gets LEASE. MFREE completes, and ends both. LEASE_GRANT_OFFER completes: with no live lease the arbiter
offers the event of the first requesting position after its pointer, which it sets there; a request that was made on a slot's behalf is
granted at once. LEASE_OFFER_TIMEOUT completes: an offer that has not occurred 64 cycles after it reached its home is withdrawn, the
request stays. LEASE_EXPIRY completes: a lease ends after 1024 cycles.
While an offer of the arbiter, a withdrawn one too, has still to leave its home, no other is made.
That the pointer moves at the offer is the model's reading (log entry 90); that MLEASE raises EVENT and MFREE does nothing on a slot that is no
worker slot is its choice (log entry 27), as is that a request made on a slot's behalf is granted with no offer (log entry 61). -/
def Obligations.LeaseArbitration : Prop :=
  (∀ (s : State) (e : Nat) (v : Ev), s.NoPrefix → isWorker s.cur = true → s.me.bound e ≠ 0 →
    evOf s (refOfName s s.cur (s.me.bound e)) = some v → v.parties = [partyOf s 0 s.cur, arbiterParty s s.mine] → v.plan = 0 →
    let l := (s.cluster s.mine).lease
    (leaseLive s s.cur = false → (∀ q ∈ l.reqs, q.1 ≠ s.cur) → ∃ t, exec (.mlease e) s = .next t ∧
      (t.cluster s.mine).lease = { l with reqs := l.reqs ++ [(s.cur, refOfName s s.cur (s.me.bound e))] } ∧
      (s.me.frame = none → (t.slot s.cur).pc = (s.me.pc + 4) % 2 ^ 52) ∧ (∀ a, t.byte a = s.byte a) ∧
      s.me.KeepsS (t.slot s.cur)) ∧
    (leaseLive s s.cur = true ∨ (∃ q ∈ l.reqs, q.1 = s.cur) →
      exec (.mlease e) s = .next (takeTrap s s.cur { code := 0x09 }))) ∧
  (∀ (s : State) (e : Nat), s.NoPrefix → isWorker s.cur = false ∨ s.me.bound e = 0 →
    exec (.mlease e) s = .next (takeTrap s s.cur { code := 0x0C })) ∧
  (∀ s : State, s.NoPrefix →
    let l := (s.cluster s.mine).lease
    (isWorker s.cur = false → NoEffect .mfree s) ∧
    (isWorker s.cur = true → ∃ t, exec .mfree s = .next t ∧ (s.me.frame = none → (t.slot s.cur).pc = (s.me.pc + 4) % 2 ^ 52) ∧
      s.me.KeepsS (t.slot s.cur) ∧ (∀ a, t.byte a = s.byte a) ∧
      (t.cluster s.mine).lease.holder = (if l.holder = some s.cur then none else l.holder) ∧
      (t.cluster s.mine).lease.ptr = l.ptr ∧ (t.cluster s.mine).lease.reqs = l.reqs.filter fun q => q.1 != s.cur)) ∧
  (∀ (s : State) (p n : Nat) (r : EvRef),
    let k := (s.cluster p).lease
    clusterRuns s p = true → k.holder = none ∨ leaseOver s p = true → k.offered = none → k.ptr < 64 → (n, r) ∈ k.reqs →
    (arbiterOut s p = true → exec (.leaseGrantOffer p) s = .next s) ∧
    (arbiterOut s p = false → (∀ q ∈ k.reqs, q = (n, r) ∨ (n % 64 + 63 - k.ptr) % 64 < (q.1 % 64 + 63 - k.ptr) % 64) →
    ((r.home ≠ 9000 → ∃ t, exec (.leaseGrantOffer p) s = .next t ∧ Offered s t (arbiterParty s p) (some r) ∧
      (t.cluster p).lease = { k with ptr := n % 64, holder := none, count := 0, offered := some (n, clusterCycles s p) } ∧
      ∀ m, t.slot m = s.slot m) ∧
    (r.home = 9000 → ∃ t, exec (.leaseGrantOffer p) s = .next t ∧ (t.cluster p).lease =
      { k with ptr := n % 64, holder := some n, count := 0, from_ := clusterCycles s p, reqs := k.reqs.filter fun q => q.1 != n } ∧
      ∀ m, t.slot m = s.slot m)))) ∧
  (∀ (s : State) (p n sent : Nat) (r : EvRef) (g : Reg),
    let k := (s.cluster p).lease
    clusterRuns s p = true → k.offered = some (n, sent) → k.reqs.find? (fun q => q.1 == n) = some (n, r) →
    (s.home r.home).regs.find? (fun g => g.party == arbiterParty s p && g.idx == r.idx && g.gen == r.gen) = some g →
    64 ≤ homeCycles s r.home - g.arr →
    ∃ t, exec (.leaseOfferTimeout p) s = .next t ∧ (t.cluster p).lease = { k with offered := none } ∧
      t.msgs = s.msgs ++ [⟨agentSrc (arbiterParty s p), homeSrc r.home, .pull (arbiterParty s p) r.idx r.gen⟩] ∧
      ∀ m, t.slot m = s.slot m) ∧
  ∀ (s : State) (p n : Nat),
    let k := (s.cluster p).lease
    k.holder = some n → 1024 ≤ clusterCycles s p - k.from_ →
    ∃ t, exec (.leaseExpiry p) s = .next t ∧ (t.cluster p).lease = { k with holder := none, count := 0 } ∧
      ∀ m, t.slot m = s.slot m

/-- 12 R209 to R211, R220 to R223, R226, R228, R230: what the commands of the matrix engine do at acceptance: MRING configures or
releases a ring; MRPUB and MRPOP advance the reserved counts and return them; the others need a lease and join the queue with the
tiles, rings, formats and addresses that they name, and advance the reserved counts of their rings.
That a command keeps the descriptor, the formats, the rounding and the tables of its acceptance is the model's reading (log entry 91); that the
commands which a slot's task has brought back go first is its choice (log entry 154), and so is RING for a SRC that is no multiple of the
element size (log entry 173). -/
def Obligations.MatrixCommandsAreAccepted : Prop :=
  ∀ (s : State) (d a b x e acc ra rb tile off sdb : Nat) (ev : Option EvRef) (s1 : State),
    isWorker s.cur = true → s.me.frame = none → s.me.sb = [] → eventField s s.cur x e 3 = .ok ev →
    let y := s.me
    let p := s.mine
    let g := fmtsOf y
    let mine := some (launchKey y)
    let w := (y.rs a).toNat
    let m := w % 2 ^ 32
    let q := s.ring p ra
    let room := (s.cluster p).mx.length < 64 ∧ (y.inh = true ∨ y.held = [])
    let acts := fun (i : Instr) (op : MxOp) (tiles : List Nat) (more : State → Prop) =>
      room → leaseLive s s.cur = true → ∃ t, exec i s = .next t ∧ MxAccepted s t true op tiles ev ∧ more t
    let panel := fun (n len : Nat) => (y.rs b).toNat % 2 ^ 52 = winBase + 0x1000000 + n ∧ n % 128 = 0 ∧ n + len ≤ 2 ^ 22
    (s.NoPrefix → ringBad w = false → (q.kind = 0 ∨ q.owner = mine) →
      (∀ c ∈ (s.cluster p).mx ++ heldCommands s p, namesRing ra c = false) →
      ∃ t, exec (.mring a ra) s = .next t ∧ (t.slot s.cur).pc = (y.pc + 4) % 2 ^ 52 ∧
        t.ring p ra = (if bits w 63 62 = 0 then {}
          else { kind := bits w 63 62, depth := bits w 39 32 + 1, base := bits w 21 0, owner := mine }) ∧
        (∀ r, r ≠ ra → t.ring p r = s.ring p r) ∧ (∀ n, t.byte n = s.byte n)) ∧
    (s.NoPrefix → room → q.kind ≠ 0 → q.owner = mine → 1 ≤ m → m ≤ 256 →
      (unreserved q + m ≤ q.depth → ∃ t, exec (.mrpub d a ra) s = .next t ∧ MxAccepted s t false (.mrpub ra m) [] none ∧
        t.ring p ra = { q with pr := (q.pr + m) % 2 ^ 32 } ∧
        y.WritesS (t.slot s.cur) d (BitVec.ofNat 64 (q.cr * 2 ^ 32 + (q.pr + m) % 2 ^ 32))) ∧
      (m ≤ unreserved q → ∃ t, exec (.mrpop d a ra) s = .next t ∧ MxAccepted s t false (.mrpop ra m) [] none ∧
        t.ring p ra = { q with cr := (q.cr + m) % 2 ^ 32 } ∧
        y.WritesS (t.slot s.cur) d (BitVec.ofNat 64 ((q.cr + m) % 2 ^ 32 * 2 ^ 32 + q.pr)))) ∧
    (g.rnd ≠ 3 → mmaFormats g = .ok () → (∀ c, c = g.fa ∨ c = g.fb → isT8 c = true → (tableOf s s.cur c).owner = mine) →
      (tilesOf y)[acc]? = some tile → wideOf y = none → q.kind = 1 → q.owner = mine → (s.ring p rb).kind = 2 →
      (s.ring p rb).owner = mine → 1 ≤ unreserved q → 1 ≤ unreserved (s.ring p rb) →
      acts (.mma x e ra acc rb) (.mma false tile ra rb g.fa g.fb g.fr g.bsm) [tile] (fun t =>
        t.ring p ra = { q with cr := (q.cr + 1) % 2 ^ 32 } ∧
        t.ring p rb = { s.ring p rb with cr := ((s.ring p rb).cr + 1) % 2 ^ 32 }) ∧
      acts (.mmah x e ra acc rb) (.mma true tile ra rb g.fa g.fb g.fr g.bsm) [tile] (fun t =>
        t.ring p ra = { q with cr := (q.cr + 1) % 2 ^ 32 } ∧ t.ring p rb = s.ring p rb)) ∧
    (s.NoPrefix → (tilesOf y)[acc]? = some tile →
      acts (.mzero x e acc) (.mzero tile) (if (wideOf y).isSome then tilesOf y else [tile])
        (fun t => wideOf (t.slot s.cur) = none) ∧
      (wideOf y = none → panel off 4096 → acts (.mlda x e acc b) (.mlda tile off) [tile] fun _ => True)) ∧
    (g.rnd ≠ 3 → (tilesOf y)[acc]? = some tile → wideOf y = none → g.fr ∈ [0, 0xB, 2, 3] →
      panel off (if g.fr = 0 ∨ g.fr = 0xB then 4096 else 2048) →
      acts (.msta x e acc b) (.msta tile off g.fr (rndCode y g)) [tile] fun _ => True) ∧
    (g.rnd ≠ 3 → g.fa ≤ 1 → readSdb s s.cur w = .ok (sdb, s1) → sdbBad sdb (sliceElem g.fa) = false →
      acts (.mscale x e a) (.mscale sdb g.fa) [] (fun _ => True) ∧
      let z := (y.rs b).toNat
      let k := bits z 10 8 + 1
      let r := s.ring p (z % 16)
      let n := k * ((sdbK sdb + 95) / 96)
      (k ≤ 4 ∨ g.fa = 1 → bits z 63 11 = 0 → bits z 7 4 = 0 → r.kind ≠ 0 → r.owner = mine → unreserved r + n ≤ r.depth →
        acts (.msplit x e a b) (.msplit sdb g.fa (z % 16) k) [] fun t =>
          t.ring p (z % 16) = { r with pr := (r.pr + n) % 2 ^ 32 })) ∧
    (∀ cells, s.NoPrefix →
      let ea := (y.rs b).toNat
      let k := bits w 10 8 + 1
      let A := s.ring p (bits w 3 0)
      let B := s.ring p (bits w 7 4)
      4 ≤ (tilesOf y).length → (bit w 11 = true → wideOf y = some k) → bits w 63 26 = 0 → bits w 15 12 = 0 → A.kind = 1 →
      A.owner = mine → B.kind = 2 → B.owner = mine → k ≤ A.depth → k ≤ B.depth → k ≤ unreserved A → k ≤ unreserved B →
      ea % 128 = 0 → localCells s s.cur y.mode ea 16512 2 0 = .ok cells → (∀ c ∈ cells, isDev c = true) →
      acts (.msmm x e a b) (.msmm w ea 0 0 false) (tilesOf y) fun t =>
        t.ring p (bits w 3 0) = { A with cr := (A.cr + k) % 2 ^ 32 } ∧
        t.ring p (bits w 7 4) = { B with cr := (B.cr + k) % 2 ^ 32 } ∧ wideOf (t.slot s.cur) = some k) ∧
    ∀ k, g.rnd ≠ 3 → g.fr ≤ 1 → wideOf y = some k → bits w 63 22 = 0 → w % 128 = 0 → w + 1024 * (if g.fr = 1 then 8 else 4) ≤ 2 ^ 22 →
      let z := (y.rs b).toNat
      bits z 63 54 = 0 → bits z 31 22 = 0 → bits z 21 0 % 64 = 0 → bits z 53 32 % 64 = 0 → bits z 21 0 + 64 ≤ 2 ^ 22 →
      bits z 53 32 + 64 ≤ 2 ^ 22 →
      acts (.msfin x e a b) (.msfin w (bits z 21 0) (bits z 53 32) g.fr (rndCode y g) k) (tilesOf y)
        fun t => wideOf (t.slot s.cur) = none

/-- 12 R212, R213, R221 to R228, R230: what the engine does with the command at the head of its queue. MRPUB and MRPOP advance the
ring's counts, MZERO clears the tiles, MLDA and an FP32 or S32 MSTA copy a tile from and to the Tarn, an FP16 or BF16 MSTA rounds each
element, MMA adds the product of the two head panels into every element of the tile and pops them (MMAH keeps the B head). MSCALE writes
the exponent of every row: that of the largest magnitude plus 2. MSPLIT pushes the digit panels of the valid rows and marks the others
invalid; the digits of a value lie in -64 to 64 and leave less than half of the last one's weight. MSFIN rounds every element of the wide tile
with the exponents of its row and column and clears the tiles. Each completes, with its flags and its event. MSMM begins, with tiles of
zeros unless ACC is 1; a pass adds its digit product, weighted, into every element of the wide tile; the last one of a block pops the
block's panels and, in the last block, completes the command; the panels of the next block are reserved. -/
def Obligations.MatrixEngineExecutes : Prop :=
  ∀ (s : State) (p : Nat) (c : MxCmd) (rest : List MxCmd) (r ra rb m tile off fa fb fr bsm rnd : Nat) (hold : Bool),
    MxHead s p c rest → s.MemWf →
    let runs := fun (fl : Nat) (more : State → Prop) =>
      ∃ t, exec (.mxeCommandExecute p) s = .next t ∧ MxCompleted s t p c rest fl ∧ more t
    let A := s.ring p ra
    let B := s.ring p rb
    let lo := tarnBase (clusterOf c.slot)
    let plain := clusterOf c.slot < 128 ∧ (s.cluster (clusterOf c.slot)).mrb = [] ∧
      ∀ j, j < 2 ^ 22 → guarded s (lo + j) = false ∧ poisoned s (lo + j) = false
    let val := fun (sdb fa i k : Nat) =>
      fdec (if fa = 1 then fp64 else fp32) (s.raw (lo + (sdbElem sdb i k).toNat) (sliceElem fa))
    let flagsAre := fun (fl : Nat) (f : Nat → Nat → Nat) => ∀ b, bit fl b = true ↔ ∃ i j, i < 32 ∧ j < 32 ∧ bit (f i j) b = true
    (c.op = .mrpub r m → runs 0 fun t =>
      t.ring p r = { s.ring p r with p := ((s.ring p r).p + m) % 2 ^ 32 } ∧ ∀ a, t.byte a = s.byte a) ∧
    (c.op = .mrpop r m → runs 0 fun t =>
      t.ring p r = { s.ring p r with c := ((s.ring p r).c + m) % 2 ^ 32 } ∧ ∀ a, t.byte a = s.byte a) ∧
    (c.op = .mzero tile → runs 0 fun t => (∀ k ∈ c.tiles, ∀ j, j < 4096 → t.byte (accBase p k + j) = 0) ∧
      ∀ a, (∀ k ∈ c.tiles, a < accBase p k ∨ accBase p k + 4096 ≤ a) → t.byte a = s.byte a) ∧
    (∀ bs, c.op = .mlda tile off → tarnRead s c.slot c.pc off 4096 = .ok (bs, s) → runs 0 fun t =>
      t.raw (accBase p tile) 4096 = numOf bs ∧
      ∀ a, a < accBase p tile ∨ accBase p tile + 4096 ≤ a → t.byte a = s.byte a) ∧
    (c.op = .msta tile off fr rnd → fr = 0 ∨ fr = 0xB → (s.cluster (clusterOf c.slot)).mrb = [] →
      clusterOf c.slot < 128 → off + 4096 ≤ 2 ^ 22 →
      let lo := tarnBase (clusterOf c.slot) + off
      (∀ j, j < 4096 → guarded s (lo + j) = false) → runs 0 fun t =>
        t.raw lo 4096 = s.raw (accBase p tile) 4096 ∧ ∀ a, a < lo ∨ lo + 4096 ≤ a → t.byte a = s.byte a) ∧
    (∀ f, c.op = .msta tile off fr rnd → fmtOf fr = some f → fr = 2 ∨ fr = 3 → plain → off + 2048 ≤ 2 ^ 22 →
      let el := fun i j => fround f (rndOf rnd) (fdec fp32 (s.raw (accBase p tile + 4 * (32 * i + j)) 4))
      ∃ fl, flagsAre fl (fun i j => (el i j).2) ∧ runs fl fun t =>
        (∀ i j, i < 32 → j < 32 → t.raw (lo + off + 2 * (32 * i + j)) 2 = (el i j).1) ∧
        ∀ a, a < lo + off ∨ lo + off + 2048 ≤ a → t.byte a = s.byte a) ∧
    (∀ sdb, c.op = .mscale sdb fa → fa ≤ 1 → sdbBad sdb (sliceElem fa) = false → plain → runs 0 fun t =>
      let at_ := lo + sdbExp sdb
      (∀ a, a < at_ ∨ at_ + 64 ≤ a → t.byte a = s.byte a) ∧
      ∀ i, i < 32 →
        let x := t.raw (at_ + 2 * i) 2
        let vs := (List.range (sdbK sdb)).map (val sdb fa i)
        (sdbRows sdb ≤ i → x = 0) ∧
        (i < sdbRows sdb → (∃ v ∈ vs, v.isFin = false) → x = 0x7FFF) ∧
        (i < sdbRows sdb → (∀ v ∈ vs, ∃ b e, v = .fin b 0 e) → x = 0) ∧
        ∀ b z e, i < sdbRows sdb → .fin b z e ∈ vs → z ≠ 0 →
          (∀ v ∈ vs, ∃ b' z' e', v = .fin b' z' e' ∧ (z' = 0 ∨ magLog z' e' ≤ magLog z e)) → x = wrap 16 (magLog z e + 2)) ∧
    (∀ sdb n w, c.op = .msplit sdb fa n w → fa ≤ 1 → sdbBad sdb (sliceElem fa) = false → plain →
      let G := s.ring p n
      let nb := (sdbK sdb + 95) / 96
      let at_ := sdbExp sdb
      let E := fun i => s.raw (lo + at_ + 2 * i) 2
      let ok := fun i => E i ≠ 0x7FFF ∧ ∀ k, k < sdbK sdb →
        ∃ b z e, val sdb fa i k = .fin b z e ∧ (z = 0 ∨ magLog z e < sx 16 (E i) - 1)
      w * nb ≤ G.depth → G.p + w * nb ≤ 2 ^ 32 → G.base + G.depth * 8192 ≤ 2 ^ 22 + 4096 →
      (∀ j, j < G.depth → G.base + j * 8192 + 4096 ≤ at_ ∨ at_ + 64 ≤ G.base + j * 8192) →
      runs 0 fun t =>
        t.ring p n = { G with p := (G.p + w * nb) % 2 ^ 32 } ∧
        (∀ i, i < 32 → (i < sdbRows sdb → ¬ok i → t.raw (lo + at_ + 2 * i) 2 = 0x7FFF) ∧
          (sdbRows sdb ≤ i ∨ ok i → t.raw (lo + at_ + 2 * i) 2 = E i)) ∧
        ∀ kb d i j, kb < nb → d < w → i < 32 → j < 128 →
          let x := t.byte (lo + panelOff G (G.p + kb * w + d) + 128 * i + j)
          let k := 96 * kb + j
          (i < sdbRows sdb → ok i → j < 96 → k < sdbK sdb →
            x = wrap 8 ((digits (sx 16 (E i)) w (val sdb fa i k)).getD d 0)) ∧
          (sdbRows sdb ≤ i ∨ ¬ok i ∨ 96 ≤ j ∨ sdbK sdb ≤ k → x = 0)) ∧
    (∀ (α : Int) (w : Nat) (b : Bool) (z : Nat) (e : Int), z = 0 ∨ magLog z e < α - 1 →
      let l := digits α w (.fin b z e)
      l.length = w ∧ (∀ d ∈ l, -64 ≤ d ∧ d ≤ 64) ∧
        |(if b then -1 else 1) * (z : ℚ) * 2 ^ (e - α) -
          ((List.range w).map fun t => (l.getD t 0 : ℚ) * 2 ^ (-(7 * (t + 1 : Int)))).sum| ≤ 2 ^ (-(7 * w + 1 : Int))) ∧
    (∀ out ea eb w, c.op = .msfin out ea eb fr rnd w → fr ≤ 1 → plain → out + 1024 * sliceElem fr ≤ 2 ^ 22 →
      ea + 64 ≤ 2 ^ 22 → eb + 64 ≤ 2 ^ 22 → 
      let f := if fr = 1 then fp64 else fp32
      let el := fun i j =>
        let x := sx 128 (s.raw (wideCell p c.tiles i j) 16)
        let α := s.raw (lo + ea + 2 * i) 2
        let β := s.raw (lo + eb + 2 * j) 2
        if α = 0x7FFF ∨ β = 0x7FFF then (canonNaN f, 16)
        else roundFin f (rndOf rnd) (decide (x < 0)) x.natAbs (sx 16 α + sx 16 β - 7 * (w + 1))
      ∃ fl, flagsAre fl (fun i j => (el i j).2) ∧ runs fl fun t =>
        (∀ i j, i < 32 → j < 32 → t.raw (lo + out + sliceElem fr * (32 * i + j)) (sliceElem fr) = (el i j).1) ∧
        (∀ k ∈ c.tiles, ∀ j, j < 4096 → t.byte (accBase p k + j) = 0) ∧
        ∀ a, a < lo + out ∨ lo + out + 1024 * sliceElem fr ≤ a → (∀ k ∈ c.tiles, a < accBase p k ∨ accBase p k + 4096 ≤ a) →
          t.byte a = s.byte a) ∧
    (∀ bA bB, c.op = .mma hold tile ra rb fa fb fr bsm → ra ≠ rb →
      tarnRead s c.slot c.pc (panelOff A A.c) 4096 = .ok (bA, s) → tarnRead s c.slot c.pc (panelOff B B.c) 4096 = .ok (bB, s) →
      let el := fun i j => mmaElem c fa fb fr bsm (panelRow bA i) (panelRow bB j) (s.raw (accBase p tile + 4 * (32 * i + j)) 4)
      ∃ fl, flagsAre fl (fun i j => (el i j).2) ∧ runs fl fun t =>
        (∀ i j, i < 32 → j < 32 → t.raw (accBase p tile + 4 * (32 * i + j)) 4 = (el i j).1 % 2 ^ 32) ∧
        (∀ a, a < accBase p tile ∨ accBase p tile + 4096 ≤ a → t.byte a = s.byte a) ∧
        t.ring p ra = { A with c := (A.c + 1) % 2 ^ 32 } ∧
        t.ring p rb = if hold then B else { B with c := (B.c + 1) % 2 ^ 32 }) ∧
    (∀ par save, c.op = .msmm par save 0 0 false → bit par 11 = true → ∃ t, exec (.mxeCommandExecute p) s = .next t ∧
      (t.cluster p).mx = { c with op := .msmm par save 0 0 true } :: rest ∧ ∀ a, t.byte a = s.byte a) ∧
    (∀ par save, c.op = .msmm par save 0 0 false → bit par 11 = false → ∃ t, exec (.mxeCommandExecute p) s = .next t ∧
      (t.cluster p).mx = { c with op := .msmm par save 0 0 true } :: rest ∧
      (∀ k ∈ c.tiles, ∀ j, j < 4096 → t.byte (accBase p k + j) = 0) ∧
      ∀ a, (∀ k ∈ c.tiles, a < accBase p k ∨ accBase p k + 4096 ≤ a) → t.byte a = s.byte a) ∧
    (∀ par save kb pass t u bA bB, c.op = .msmm par save kb pass true →
      let w := bits par 10 8 + 1
      let GA := s.ring p (bits par 3 0)
      let GB := s.ring p (bits par 7 4)
      (passList w)[pass]? = some (t, u) → c.tiles.length = 4 → c.tiles.Nodup →
      tarnRead s c.slot c.pc (panelOff GA ((GA.c + (t - 1)) % 2 ^ 32)) 4096 = .ok (bA, s) →
      tarnRead s c.slot c.pc (panelOff GB ((GB.c + (u - 1)) % 2 ^ 32)) 4096 = .ok (bB, s) →
      ∃ z, exec (.msmmPass p) s = .next z ∧
        (pass + 1 < (passList w).length ∨ kb ≠ bits par 25 16 →
          (z.cluster p).mx = { c with op := .msmm par save kb (pass + 1) true } :: rest) ∧
        (pass + 1 = (passList w).length → kb = bits par 25 16 → MxCompleted s z p c rest 0) ∧
        (pass + 1 < (passList w).length → ∀ r, z.ring p r = s.ring p r) ∧
        (pass + 1 = (passList w).length → bits par 3 0 ≠ bits par 7 4 →
          z.ring p (bits par 3 0) = { GA with c := (GA.c + w) % 2 ^ 32 } ∧
          z.ring p (bits par 7 4) = { GB with c := (GB.c + w) % 2 ^ 32 }) ∧
        ∀ i j, i < 32 → j < 32 → BitVec.ofNat 128 (z.raw (wideCell p c.tiles i j) 16) =
          BitVec.ofNat 128 (s.raw (wideCell p c.tiles i j) 16) + BitVec.ofInt 128 (2 ^ (7 * (w + 1 - t - u)) *
            ((List.range 96).map fun k => (BitVec.ofNat 8 (bA.getD (128 * i + k) 0)).toInt *
              (BitVec.ofNat 8 (bB.getD (128 * j + k) 0)).toInt).sum)) ∧
    ∀ par save kb pass, c.op = .msmm par save kb pass true →
      let w := bits par 10 8 + 1
      let GA := s.ring p (bits par 3 0)
      let GB := s.ring p (bits par 7 4)
      pass = (passList w).length → kb ≠ bits par 25 16 → w ≤ unreserved GA → w ≤ unreserved GB → bits par 3 0 ≠ bits par 7 4 →
      ∃ t, exec (.msmmBlockReserve p) s = .next t ∧ (t.cluster p).mx = { c with op := .msmm par save (kb + 1) 0 true } :: rest ∧
        t.ring p (bits par 3 0) = { GA with cr := (GA.cr + w) % 2 ^ 32 } ∧
        t.ring p (bits par 7 4) = { GB with cr := (GB.cr + w) % 2 ^ 32 } ∧ ∀ a, t.byte a = s.byte a

/-! ### Streams and copies -/

/-- 12 R233 to R236: SBIND binds a free stream register to a parameter block, SFREE unbinds one, SSTAT returns its status word; SRD
takes the oldest beat, SWR gives one, and both wait for the unit or, past the end, raise STREAM. The unit moves beat after beat, memory
beats at the addresses that counts and strides give, ring beats into the panel, join beats to the other end; at the end its event is
offered.
The count of SSTAT and the single step of a beat are the model's readings (log entries 97, 98); so is which block is accepted where R233 and R236
are silent (log entries 171, 172). -/
def Obligations.StreamsMoveTheirBeats : Prop :=
  ∀ (s : State) (d v x e a r n : Nat) (u : Stream) (ev : Option EvRef) (cells : List Nat), s.NoPrefix → s.me.frame = none →
    let y := s.me
    let next := (y.pc + 4) % 2 ^ 52
    let fine := isWorker s.cur = true ∧ r < 6 ∧ ∀ q ∈ y.streams, q.2.fault ≠ some 0x1B
    let others := fun (t : State) => (∀ q, q ≠ r → streamOf t s.cur q = streamOf s s.cur q) ∧ (t.slot s.cur).pc = next ∧
      (∀ b, t.byte b = s.byte b) ∧ ∀ m, m ≠ s.cur → t.slot m = s.slot m
    let runs := isWorker n = true ∧ clusterRuns s (clusterOf n) = true ∧ streamOf s n r = some u ∧ u.st = 1 ∧ u.moved < u.total
    (fine → y.sb = [] → eventField s s.cur x e 4 = .ok ev → (y.rs a).toNat % 64 = 0 → blockCells s s.cur (y.rs a).toNat 64 1 = .ok cells →
      (∀ c ∈ cells, guarded s c = false ∧ poisoned s c = false) → streamOf s s.cur r = none →
      spbStream s s.cur r (numOf (cells.map s.byte)) ev = .ok u → ∃ t, exec (.sbind x e a r) s = .next t ∧
        streamOf t s.cur r = some u ∧ others t ∧ y.KeepsS (t.slot s.cur) ∧ u.moved = 0 ∧ u.used = 0 ∧ u.st = 1 ∧ u.ev = ev ∧
        u.base = numOf (cells.map s.byte) % 2 ^ 64 ∧ u.total = u.counts.foldl (· * ·) 1 ∧ u.dir = if r < 4 then 0 else 1) ∧
    (fine → streamOf s s.cur r = some u → u.kind ≠ 2 → ∃ t, exec (.sfree r) s = .next t ∧ streamOf t s.cur r = none ∧ others t ∧
      y.KeepsS (t.slot s.cur)) ∧
    (fine → (streamOf s s.cur r = none → ScalarResult (.sstat d r) s d 0 ∧ NoEffect (.sfree r) s) ∧
      (streamOf s s.cur r = some u → u.fault = none → u.st = 1 → u.panel = [] → ScalarResult (.sstat d r) s d
        (BitVec.ofNat 64 ((u.total - u.used) * 2 ^ 32 + u.buf.length % 256 * 2 ^ 24 + 1)))) ∧
    (fine → r < 4 → streamOf s s.cur r = some u → u.fault = none → u.st ≠ 3 →
      (u.total ≤ u.used → exec (.srd v r) s = .next (takeTrap s s.cur { code := 0x0B })) ∧
      (u.used < u.total → u.buf = [] → ∃ t, exec (.srd v r) s = .next t ∧ y.Waits (t.slot s.cur) .busy) ∧
      ∀ b rest, u.used < u.total → u.buf = b :: rest → ∃ t, exec (.srd v r) s = .next t ∧ others t ∧
        streamOf t s.cur r = some { u with buf := rest, used := u.used + 1 } ∧
        (∀ q, (t.slot s.cur).rv q = if q % 32 = v % 32 then BitVec.ofNat 1024 b else y.rv q) ∧ y.KeepsS (t.slot s.cur)) ∧
    (fine → 4 ≤ r → streamOf s s.cur r = some u → u.fault = none → u.st ≠ 3 →
      (u.total ≤ u.used → exec (.swr v r) s = .next (takeTrap s s.cur { code := 0x0B })) ∧
      (u.used < u.total → 32 ≤ u.buf.length → ∃ t, exec (.swr v r) s = .next t ∧ y.Waits (t.slot s.cur) .busy) ∧
      (u.used < u.total → u.buf.length < 32 → ∃ t, exec (.swr v r) s = .next t ∧ others t ∧
        streamOf t s.cur r = some { u with
          buf := u.buf ++ [(y.rv v).toNat]
          used := u.used + 1
          given := if (u.used + 1) % 32 = 0 then u.given ++ [y.instret] else u.given } ∧
        y.KeepsS (t.slot s.cur) ∧ y.KeepsV (t.slot s.cur))) ∧
    (∀ js : List Nat, js.length = u.counts.length → u.strides.length = u.counts.length → (∀ p ∈ js.zip u.counts, p.1 < p.2) →
      beatAddr u ((js.zip u.counts).foldr (fun p acc => p.1 + p.2 * acc) 0) =
        (BitVec.ofInt 64 (u.base + ((js.zip u.strides).map fun p => (p.1 : Int) * p.2).sum)).toNat) ∧
    (runs → u.kind = 0 → localCells s n false (beatAddr u u.moved) 128 (if u.dir = 0 then 4 else 5) 0 = .ok cells →
      (∀ c ∈ cells, guarded s c = false ∧ poisoned s c = false) → asleep s cells = false →
      (u.dir = 0 → u.buf.length < 32 → ∃ t, exec (.streamBeat n r) s = .next t ∧ (∀ b, t.byte b = s.byte b) ∧
        streamOf t n r = some { u with buf := u.buf ++ [numOf (cells.map s.byte)], moved := u.moved + 1 }) ∧
      ∀ b rest, u.dir = 1 → u.buf = b :: rest → Storable s cells → ∃ t, exec (.streamBeat n r) s = .next t ∧
        StoresOnly s t n cells (bytesOf 128 b) ∧ streamOf t n r = some { u with buf := rest, moved := u.moved + 1 }) ∧
    (∀ b rest, runs → u.kind = 1 → u.buf = b :: rest → u.panel.length < 31 → ∃ t, exec (.streamBeat n r) s = .next t ∧
      (∀ c, t.byte c = s.byte c) ∧
      streamOf t n r = some { u with buf := rest, moved := u.moved + 1, panel := u.panel ++ [b] }) ∧
    (∀ b rest m q z, runs → u.kind = 2 → u.dir = 1 → u.buf = b :: rest → joinPeer s n u = some (m, q) → (m, q) ≠ (n, r) →
      streamOf s m q = some z → z.buf.length < 32 → z.st = 1 → (u.moved + 1 = u.total ↔ z.moved + 1 = z.total) →
      ∃ t, exec (.streamBeat n r) s = .next t ∧ streamOf t n r = some { u with buf := rest, moved := u.moved + 1 } ∧
        streamOf t m q = some { z with buf := z.buf ++ [b], moved := z.moved + 1 } ∧ ∀ c, t.byte c = s.byte c) ∧
    (streamOf s n r = some u → u.st = 1 → u.fault = none → (if u.dir = 0 then u.used else u.moved) = u.total →
      ∃ t, exec (.streamComplete n r) s = .next t ∧ Offered s t (partyOf s 4 n) u.ev ∧
        streamOf t n r = some { u with st := 2, offered := true } ∧ ∀ c, t.byte c = s.byte c)

/-- 12 R237 to R242; 08 R147: a copy instruction reads its descriptor block and joins the queue that it names; a full queue is an
interlock. COPY_EXECUTE moves bytes of a row from the source, which for CPYG the row's index selects, to the destination, for CPYM to
every receiving team, and touches no other byte; a ring's bytes are gathered. No aligned 8-byte chunk is read or written in two steps. A
push that waited for room in a matrix ring or a multicast ring takes place, and waits on while there is none; when everything is moved
the teams' events are offered, and the command leaves its queue with the offer of its own.
The chunk that one step moves is the model's choice (log entry 94). -/
def Obligations.CopiesMoveTheirBytes : Prop :=
  ∀ (s : State) (x e a q p off : Nat) (ev : Option EvRef) (evs : List (Nat × Option EvRef)) (cells : List Nat) (c : CpCmd)
    (rest : List CpCmd), s.NoPrefix → s.me.frame = none →
    let y := s.me
    let ea := (y.rs a).toNat
    let w := numOf (cells.map s.byte)
    let dk := bits (dword w 5) 31 30
    let nrow := bits (dword w 2) 63 32
    let len := bits (dword w 2) 31 0
    let mine := queueOf s s.mine q
    let ready := fun (size : Nat) => isWorker s.cur = true ∧ y.sb = [] ∧ eventField s s.cur x e 2 = .ok ev ∧ ea % 64 = 0 ∧
      blockCells s s.cur ea size 1 = .ok cells ∧ (∀ c ∈ cells, guarded s c = false ∧ poisoned s c = false)
    let accepts := fun (i : Instr) (op : Nat) => mine.length < 64 → cdbBad op w = false →
      (dk = 1 → (ringOf s s.cur (bits (dword w 5) 29 26)).kind = 0 ∨
        (ringOf s s.cur (bits (dword w 5) 29 26)).owner = some (launchKey y)) →
      (dk = 2 → copyRing s s.cur (dword w 1) (nrow * len) = .ok off) → (dk ≠ 2 → off = dword w 1) →
      (op = 3 → isTeam s s.cur = true ∧
        teamEvents s s.cur w ((List.range 16).filter fun c => bit (dword w 5) c) = .ok evs) →
      ∃ t z, exec i s = .next t ∧ queueOf t s.mine q = mine ++ [z] ∧ z.op = op ∧ z.slot = s.cur ∧ z.pc = y.pc ∧ z.ev = ev ∧
        z.src = dword w 0 ∧ z.dst = off ∧ z.nrow = nrow ∧ z.len = len ∧ z.dkind = dk ∧ z.st = 0 ∧ z.done = 0 ∧
        z.dstride = (BitVec.ofNat 32 (dword w 3 / 2 ^ 32)).toInt ∧ z.sstride = (BitVec.ofNat 32 (dword w 3)).toInt ∧
        (op = 3 → z.evs = evs) ∧ (t.slot s.cur).pc = (y.pc + 4) % 2 ^ 52 ∧ (∀ b, t.byte b = s.byte b) ∧ y.KeepsS (t.slot s.cur) ∧
        ∀ k, k ≠ q → queueOf t s.mine k = queueOf s s.mine k
    let runs := clusterRuns s p = true ∧ c.slot < 8192 ∧ queueOf s p q = c :: rest
    (ready 64 → accepts (.cpy x e a q) 0 ∧ accepts (.cpys x e a q) 1 ∧ accepts (.cpyg x e a q) 2) ∧
    (ready 128 → accepts (.cpym x e a q) 3) ∧
    (isWorker s.cur = true → y.sb = [] → eventField s s.cur x e 2 = .ok ev → 64 ≤ mine.length →
      ∃ t, exec (.cpy x e a q) s = .next t ∧ y.Waits (t.slot s.cur) .busy) ∧
    (∀ (index : List Nat) (from_ dsts : List (List Nat)), runs → q < 4 → c.done < c.nrow * c.len → (∀ b ∈ c.fill, b < 256) →
      c.st = 1 ∨ (c.st = 0 ∧ haltedCore s (coreOf c.slot) = false) →
      let r := c.done / c.len
      let at_ := c.done % c.len
      let h := if c.dkind = 0 then c.fill.length else 0
      let begins := c.op = 2 ∧ at_ + h = 0
      let c1 := { c with rowIdx := if begins then numOf (index.map s.byte) else c.rowIdx, st := 1 }
      let src := fun j => (BitVec.ofInt 64 (c.src + (if c.op = 2 then (c1.rowIdx : Int) else r) * c.sstride + j)).toNat
      let dst := copyDst c1 r at_
      let k := if c.dkind = 0 then min (8 - dst.headD 0 % 8) (c.len - at_) else 1
      let reads := copyPieces c1 r at_ h k
      let got := c.fill ++ from_.flatten.map s.byte
      let fine := fun (l : List Nat) => asleep s l = false ∧ ∀ b ∈ l, guarded s b = false ∧ poisoned s b = false
      (begins → isRemote s ((c.idx + 4 * r) % 2 ^ 64) = false ∧
        localCells s c.slot false ((c.idx + 4 * r) % 2 ^ 64) 4 4 0 = .ok index ∧ fine index) →
      (c.op = 2 → c1.rowIdx < c.ibound) → from_.length = reads.length →
      (∀ j, j < reads.length → let x := reads.getD j (0, 0)
        isRemote s (src x.1) = false ∧ localCells s c.slot false (src x.1) x.2 4 0 = .ok (from_.getD j [])) → fine from_.flatten →
      (c.dkind = 0 → dst ≠ [] → c.op = 3 ∨ dst.length = 1 → dsts.length = dst.length → Storable s dsts.flatten →
        (c.op = 3 → let o : Int := ((c.dst % 2 ^ 52 - winBase : Nat) : Int) + r * c.dstride + at_
          0 ≤ o ∧ o + k ≤ 0x10000) →
        (∀ j, j < dst.length → isRemote s (dst.getD j 0) = false ∧
          localCells s c.slot false (dst.getD j 0) k 5 0 = .ok (dsts.getD j []) ∧ fine (dsts.getD j [])) →
        ∃ t, exec (.copyExecute p q 1) s = .next t ∧ (∀ l ∈ dsts, l.map t.byte = got.take k) ∧
          (∀ b, b ∉ dsts.flatten → t.byte b = s.byte b) ∧
          let c2 := { c1 with done := c.done + k, fill := got.drop k }
          (c.done + k < c.nrow * c.len → queueOf t p q = c2 :: rest) ∧
          (c.done + k = c.nrow * c.len → queueOf t p q = { c2 with st := 4 } :: rest ∧
            ∀ e ∈ c.evs, Offered s t (partyOf s 2 c.slot) e.2)) ∧
      (c.dkind ≠ 0 → got.length < (if c.dkind = 1 then 4096 else mrbSlot s (tarnBase p + c.dst)) →
        ∃ t, exec (.copyExecute p q 1) s = .next t ∧ (∀ b, t.byte b = s.byte b) ∧
          queueOf t p q = { c1 with done := c.done + (from_.map List.length).sum, fill := got } :: rest)) ∧
    (∀ (r at_ h k : Nat), h < k → k ≤ 8 → at_ + k ≤ c.len →
      let l := copyPieces c r at_ h k
      k ≤ h + (l.map Prod.snd).sum ∧ (l.head?.map Prod.fst) = some (at_ + h) ∧
      ∀ e ∈ l, 0 < e.2 ∧ copySrc c r e.1 % 8 + e.2 ≤ 8 ∧ e.1 + e.2 ≤ c.len) ∧
    (∀ r at_, c.op ≠ 2 → c.op ≠ 3 → copyDst c r at_ = [(BitVec.ofInt 64 (c.dst + r * c.dstride + at_)).toNat]) ∧
    (∀ r at_, c.op = 2 → copyDst c r at_ = [(c.dst + r * c.len + at_) % 2 ^ 64]) ∧
    (runs → c.st = 2 → c.dkind = 1 → 4096 ≤ c.fill.length → (∀ b ∈ c.fill, b < 256) → c.evs = [] →
      p = clusterOf c.slot → s.MemWf →
      let g := s.ring p c.ring
      let lo := tarnBase p + panelOff g g.p
      g.kind ≠ 0 → g.owner = some (launchKey (s.slot c.slot)) → (s.cluster p).mrb = [] →
      panelOff g g.p + 4096 ≤ 2 ^ 22 → (∀ j, j < 4096 → guarded s (lo + j) = false) →
      (dist32 g.p g.c = g.depth → ∃ t, exec (.ringPush p q) s = .next t ∧ queueOf t p q = c :: rest ∧ ∀ b, t.byte b = s.byte b) ∧
      (dist32 g.p g.c ≠ g.depth → ∃ t, exec (.ringPush p q) s = .next t ∧ t.raw lo 4096 = numOf (c.fill.take 4096) ∧
        (∀ b, b < lo ∨ lo + 4096 ≤ b → t.byte b = s.byte b) ∧
        t.ring p c.ring = { g with p := (g.p + 1) % 2 ^ 32, pr := (g.pr + 1) % 2 ^ 32 } ∧
        queueOf t p q = { c with st := if c.done < c.nrow * c.len then 1 else 4, fill := c.fill.drop 4096 } :: rest)) ∧
    (runs → c.st = 2 → c.dkind = 2 → (∀ b ∈ c.fill, b < 256) → c.evs = [] → c.dst + 128 ≤ 2 ^ 22 → s.MemWf →
      let b := tarnBase p + c.dst
      let size := mrbSlot s b
      let lo := mrbEntry s p b (mrbProd s b)
      size ≤ c.fill.length → mrbProd s b < 2 ^ 32 → dist32 (mrbProd s b) (mrbFree s b) ≠ mrbDepth s b → lo + size ≤ tarnBase p + 2 ^ 22 →
      lo + size ≤ b ∨ b + 128 ≤ lo → (∀ j, j < 2 ^ 22 → guarded s (tarnBase p + j) = false) →
      ∃ t, exec (.ringPush p q) s = .next t ∧ t.raw lo size = numOf (c.fill.take size) ∧ mrbProd t b = (mrbProd s b + 1) % 2 ^ 32 ∧
        (∀ a, (a < lo ∨ lo + size ≤ a) → (a < b + 8 ∨ b + 12 ≤ a) → t.byte a = s.byte a) ∧
        queueOf t p q = { c with st := if c.done < c.nrow * c.len then 1 else 4, fill := c.fill.drop size } :: rest) ∧
    (runs → c.st = 4 → ∃ t, exec (.copyComplete p q) s = .next t ∧ queueOf t p q = rest ∧
      Offered s t (partyOf s 2 c.slot) c.ev ∧ ∀ b, t.byte b = s.byte b)

/-! ### Events and offers -/

/-- 10 R170 to R175, R186, R193, R194: EVNEW makes the event that its creation block describes at the lowest free index of its home and
returns its name, or 0 when there is no room; EVFREE frees an event of the tenant, and EVENT is raised for a stale name; EVBIND, EVDROP
and EVBREAK bind, unbind and break; EVSTAT returns the status word. A name and the event that it stands for determine each other. -/
def Obligations.EventsAreMadeBoundAndFreed : Prop :=
  ∀ (s : State) (d a e : Nat) (v : Ev), s.NoPrefix → s.me.frame = none → s.late = false →
    let y := s.me
    let n := s.cur
    let next := (y.pc + 4) % 2 ^ 52
    let nm := (y.rs a).toNat % 2 ^ 32
    let r := refOfName s n nm
    let at_ := refOfName s n (y.bound e)
    let quiet := fun (t : State) => (t.slot n).pc = next ∧ y.KeepsS (t.slot n) ∧ (∀ b, t.byte b = s.byte b) ∧
      ∀ m, m ≠ n → t.slot m = s.slot m
    (∀ w es, y.sb = [] → (y.rs a).toNat % 8 = 0 → readBlock s n (y.rs a).toNat 16 = .ok (w, s) → bits w 63 62 = 0 → bits w 55 49 ≤ 64 →
      readBlock s n ((y.rs a).toNat + 16) (4 * bits w 55 49) = .ok (es, s) →
      checkEcb s n (w % 2 ^ 64) (w / 2 ^ 64) ((List.range (bits w 55 49)).map fun i => es / 2 ^ (32 * i) % 2 ^ 32) = .ok v →
      spans s v.parties = false → v.plan ≠ 4 →
      let h := homeOfParties s v.parties
      (freeIdx s h = none → ScalarResult (.evnew d a) s d 0) ∧
      ∀ i, freeIdx s h = some i → let g := ((s.home h).evs.get i {}).gen
        ∃ t, exec (.evnew d a) s = .next t ∧ evOf t ⟨h, i, g⟩ = some { v with live := true, gen := g } ∧
          y.WritesS (t.slot n) d (BitVec.ofNat 64 (nameOf s n ⟨h, i, g⟩)) ∧ (t.slot n).pc = next ∧
          (∀ q, ¬(q.home = h ∧ q.idx = i) → evOf t q = evOf s q) ∧ ∀ b, t.byte b = s.byte b) ∧
    (nm / 2 ^ 30 ≠ 0 → r.away = false →
      (evOf s r = none → exec (.evfree a) s = .next (takeTrap s n { code := 0x0C }) ∧
        exec (.evbind e a) s = .next (takeTrap s n { code := 0x0C })) ∧
      (evOf s r = some v → v.vi = y.vi → ∃ t, exec (.evfree a) s = .next t ∧ evOf t r = none ∧ quiet t ∧
        ((t.home r.home).evs.get r.idx {}).gen = (v.gen + 1) % 16 ∧
        ∀ q, ¬(q.home = r.home ∧ q.idx = r.idx) → evOf t q = evOf s q) ∧
      (evOf s r = some v → v.vi = y.vi → inOffer y e = false → e ≠ 30 ∨ isMace n = false → ∃ t, exec (.evbind e a) s = .next t ∧
        (∀ k, (t.slot n).bound k = if k = e then nm else y.bound k) ∧ quiet t ∧ ∀ q, evOf t q = evOf s q)) ∧
    (inOffer y e = false → e ≠ 30 ∨ isMace n = false → ∃ t, exec (.evdrop e) s = .next t ∧
      (∀ k, (t.slot n).bound k = if k = e then 0 else y.bound k) ∧ quiet t ∧ ∀ q, evOf t q = evOf s q) ∧
    (inOffer y e = true → exec (.evdrop e) s = .next (takeTrap s n { code := 0x0C })) ∧
    (y.bound e ≠ 0 → at_.away = false → evOf s at_ = some v → ∃ t, exec (.evbreak e) s = .next t ∧
      evOf t at_ = some { v with broken := true } ∧ quiet t) ∧
    (y.bound e = 0 → exec (.evbreak e) s = .next (takeTrap s n { code := 0x0C }) ∧ ScalarResult (.evstat d e) s d 0) ∧
    (y.bound e ≠ 0 → at_.away = false →
      (evOf s at_ = none → ScalarResult (.evstat d e) s d (BitVec.ofNat 64 (3 * 2 ^ 62))) ∧
      (evOf s at_ = some v → ScalarResult (.evstat d e) s d (BitVec.ofNat 64 ((if v.broken then 2 else 1) * 2 ^ 62 +
        y.bound e / 2 ^ 30 * 2 ^ 60 + v.plan * 2 ^ 57 + v.parties.length * 2 ^ 32 + v.occ % 2 ^ 32)))) ∧
    ∀ q : EvRef, viewBase s n ≤ q.home → q.home < viewBase s n + viewSize s n → q.home < 128 → viewSize s n ≤ 128 →
      q.idx < 2 ^ 14 → q.gen < 16 → refOfName s n (nameOf s n q) = q

/-- 10 R188, R190, R195 to R201: OFFER, OFFERT, GET, PUT and SYNC leave the slot Offering at their PC, with a registration on its way to
the home of each position; an OFFERT of no cycles ends at once with TIMEOUT; one whose limit has run down is withdrawn, and resolves
TIMEOUT once every home has taken the withdrawal. OFFERS arms a standing offer and goes on; OFCAN withdraws it; its handler is entered
with the result in s52 and the PC in s53 of the shadow bank, and OFCAN.RET goes back.
What a handler's own OFFERS arms, and that the handler waits for a commit that is on its way, are the model's readings (log entries 18,
164). -/
def Obligations.OffersAndHandlers : Prop :=
  (∀ (s : State) (n w : Nat), handlerDue s n = true → (s.slot n).report = none → (s.slot n).ready = some w →
    ∃ t, exec (.handlerEntry n) s = .next t ∧ (t.slot n).pc = (s.slot n).readyPc ∧ (t.slot n).soh = true ∧
      (t.slot n).st = .running ∧ (t.slot n).offer = none ∧ (t.slot n).susp = (s.slot n).offer ∧
      (∀ r, (t.slot n).rs r = if r % 64 = 52 then BitVec.ofNat 64 w else if r % 64 = 53 then BitVec.ofNat 64 (s.slot n).pc
        else if 52 ≤ r % 64 ∧ r % 64 < 60 then (s.slot n).shadow.get (r % 64) 0 else (s.slot n).rs r) ∧
      ∀ r, 52 ≤ r → r < 60 → (t.slot n).shadow.get r 0 = (s.slot n).rs r) ∧
  (∀ (s : State) (n : Nat) (o : Offer), (s.slot n).offer = some o → o.left = some 0 → commitSent s n o.id = false →
    (o.wdr = some 0 → ∃ t, exec (.offertExpiry n) s = .next t ∧ (t.slot n).st = .running ∧ (t.slot n).offer = none ∧
      (s.slot n).WritesS (t.slot n) o.d 0x200 ∧ (t.slot n).lstat = 2 ∧
      ((s.slot n).frame = none → (t.slot n).pc = ((s.slot n).pc + 4) % 2 ^ 52)) ∧
    (o.wdr = none → ∃ t, exec (.offertExpiry n) s = .next t ∧ (t.slot n).st = (s.slot n).st ∧ (t.slot n).pc = (s.slot n).pc ∧
      (t.slot n).offer = some { o with wdr := some o.homes.length } ∧
      t.msgs = s.msgs ++ o.homes.map fun h => ⟨n, homeSrc h, .withdraw n o.id⟩) ∧
    (∀ k, o.wdr = some (k + 1) → exec (.offertExpiry n) s = .next s)) ∧
  ∀ (s : State) (d a b e : Nat) (ps : List OPos) (o : Offer), s.NoPrefix → s.me.frame = none → s.me.report = none → s.me.sb = [] →
    let y := s.me
    let next := (y.pc + 4) % 2 ^ 52
    let me := selfParty s s.cur
    let single := (distinct (ps.map fun p => p.ev.home)).length ≤ 1
    let regs := ps.map fun p => (⟨s.cur, homeSrc p.ev.home,
      .register me p.ev.idx p.ev.gen p.side s.nextOff single p.pos p.role p.buf⟩ : Msg)
    let blocks := fun (i : Instr) (pos : List OPos) (left : Option Nat) (ms : List Msg) => ∃ t q, exec i s = .next t ∧
      (t.slot s.cur).st = .offering ∧ (t.slot s.cur).offer = some q ∧ q.id = s.nextOff ∧ q.pos = pos ∧ q.d = d ∧ q.left = left ∧
      (t.slot s.cur).pc = y.pc ∧ t.msgs = s.msgs ++ ms ∧ y.KeepsS (t.slot s.cur) ∧ (∀ c, t.byte c = s.byte c) ∧
      ∀ m, m ≠ s.cur → t.slot m = s.slot m
    let one := fun (side role : Nat) => (⟨0, e, y.bound e, refOfName s s.cur (y.bound e), side, role, 0⟩ : OPos)
    let sends := fun (p : OPos) => [(⟨s.cur, homeSrc p.ev.home,
      .register me p.ev.idx p.ev.gen p.side s.nextOff true p.pos p.role p.buf⟩ : Msg)]
    (positions s s.cur (y.rs a).toNat (y.rs b).toNat = .ok (ps, s) →
      blocks (.offer d a b) ps none regs ∧
      (y.limit = none → let l := (y.rs d).toNat % 2 ^ 32
        (l ≠ 0 → blocks (.offert d a b) ps (some l) regs) ∧
        (l = 0 → ∃ t, exec (.offert d a b) s = .next t ∧ y.WritesS (t.slot s.cur) d 0x200 ∧ (t.slot s.cur).pc = next ∧
          (t.slot s.cur).last = 0 ∧ (t.slot s.cur).lstat = 2 ∧ t.msgs = s.msgs)) ∧
      (y.stand = none → y.ready = none → y.armNext = none → ∃ t q, exec (.offers d a b) s = .next t ∧ (t.slot s.cur).pc = next ∧
        q.id = s.nextOff ∧ q.pos = ps ∧ q.handler = (y.rs d).toNat % 2 ^ 52 ∧ y.KeepsS (t.slot s.cur) ∧
        (if y.soh then (t.slot s.cur).armNext = some q ∧ t.msgs = s.msgs
          else (t.slot s.cur).stand = some q ∧ t.msgs = s.msgs ++ regs))) ∧
    (y.stand = none → ScalarResult (.ofcan d) s d 0) ∧
    (y.stand = some o → ∃ t, exec (.ofcan d) s = .next t ∧ y.WritesS (t.slot s.cur) d 1 ∧ (t.slot s.cur).stand = none ∧
      (t.slot s.cur).lstat = 3 ∧ (t.slot s.cur).pc = next ∧
      t.msgs = s.msgs ++ o.homes.map fun h => ⟨s.cur, homeSrc h, .withdraw s.cur o.id⟩) ∧
    (y.soh = true → y.susp = none → y.armNext = none → ∃ t, exec .ofcanRet s = .next t ∧
      (t.slot s.cur).pc = bits (y.rs 53).toNat 51 2 * 4 ∧ (t.slot s.cur).soh = false ∧ (t.slot s.cur).st = .running ∧
      (∀ r, (t.slot s.cur).rs r = if 52 ≤ r % 64 ∧ r % 64 < 60 then y.shadow.get (r % 64) 0 else y.rs r) ∧
      ∀ r, 52 ≤ r → r < 60 → (t.slot s.cur).shadow.get r 0 = y.rs r) ∧
    (y.soh = false → exec .ofcanRet s = .next (takeTrap s s.cur { code := 0x0C })) ∧
    (∀ v, y.bound e ≠ 0 → inOffer y e = false → evOf s (refOfName s s.cur (y.bound e)) = some v → v.plan = 4 →
      chainOf s s.cur = none →
      (v.parties[1]? = some me → blocks (.get d e) [one 1 3] none (sends (one 1 3))) ∧
      (v.parties[0]? = some me → blocks (.put d e) [one 2 4] none (sends (one 2 4)))) ∧
    ∀ k cores, y.task = some k → domainCores s s.cur y.domain.toNat = .ok cores → coreOf s.cur ∈ cores →
      let dom := y.domain.toNat
      let key := (k.vi * 2 ^ 32 + k.id, if k.kind = 1 then k.inst + 1 else 0, dom)
      (∀ members dead, pendingBarrier s key (partyOf s 0 s.cur) = none → domainParties s s.cur dom = .ok (members, dead) →
        syncParties s s.cur dom = .ok (homeOfParties s members, members)) ∧
      ∀ h members, syncParties s s.cur dom = .ok (h, members) → partyOf s 0 s.cur ∈ members →
        blocks (.sync d) [⟨0, 32, 0, ⟨h, 0, 16⟩, 0, 0, dom⟩] none [⟨s.cur, homeSrc h, .barrier s.cur s.nextOff key members⟩]

/-- 10 R182 to R184, R197, R201; 22 R331: a registration that reaches its home joins it with the cycle of its arrival, or, of a tenant
that the home's router refuses, raises TENANT; a withdrawal takes the registrations of its offer away, and its slot learns of it. A SYNC
joins the pending instance of its barrier, waits where the slot is no party of it, or makes the instance. At the end of a window an event of two slots, both of which offer it and
nothing else, occurs: its count and the pointer advance, both offers are consumed and return their position with status 0. A claim on a free offer is granted; a grant is noted by the home; a revoke ends the attempt; a release frees
the offer; a commit completes it; an announcement lets the event that waited be tried again.
The step in which a window is resolved is the model's reading (log entries 15, 17). -/
def Obligations.ResolversMatchOffers : Prop :=
  ∀ (s : State) (i h a b j w ta tb pa pb ra rb ba bb ka kb : Nat) (m : Msg) (v : Ev) (o oa ob : Offer) (c : Claim),
    let rest := s.msgs.eraseIdx i
    let R := s.home h
    let len := windowLen h
    let ga : Reg := ⟨selfParty s a, j, v.gen, 0, ka, ta, oa.id, true, pa, ra, ba⟩
    let gb : Reg := ⟨selfParty s b, j, v.gen, 0, kb, tb, ob.id, true, pb, rb, bb⟩
    (∀ p g, h < 133 → arriving s i = some m → m.dst = homeSrc h → m.body = .engine p j g →
      2 ^ 32 ≤ p ∨ homeAdmits s h (slotOfParty s p) = true → ∃ t, exec (.offerRegistration i) s = .next t ∧ t.msgs = rest ∧
        (t.home h).regs = R.regs ++ [⟨p, j, g, 0, homeCycles s h, s.time, 0, true, 0, 0, 0⟩]) ∧
    (∀ p g sd id one ps ro bf, h < 128 → arriving s i = some m → m.dst = homeSrc h → m.body = .register p j g sd id one ps ro bf →
      (slotOfParty s p = some a → homeAdmits s h (some a) = false → (offerById (s.slot a) id).isSome = true →
        exec (.offerRegistration i) s = .next (takeTrap (dropMsg s i) a { code := 0x0D })) ∧
      (homeAdmits s h (slotOfParty s p) = true → ∃ t, exec (.offerRegistration i) s = .next t ∧ t.msgs = rest ∧
        ((R.evs.get j {}).parties.all (fun q => q / 2 ^ 28 != 13) = true →
          (t.home h).regs = R.regs ++ [⟨p, j, g, sd, homeCycles s h, s.time, id, one, ps, ro, bf⟩]))) ∧
    (∀ key members r (u : Ev), h < 133 → arriving s i = some m → m.dst = homeSrc h → m.body = .barrier a oa.id key members →
      homeAdmits s h (some a) = true → barrierOf s key = some (r, u) →
      (selfParty s a ∈ u.parties → ∃ t, exec (.offerRegistration i) s = .next t ∧ t.msgs = rest ∧
        (t.home r.home).regs = (s.home r.home).regs ++
          [⟨selfParty s a, r.idx, r.gen, 0, homeCycles s r.home, s.time, oa.id, true, 0, 0, 0⟩]) ∧
      (selfParty s a ∉ u.parties → exec (.offerRegistration i) s = .next s)) ∧
    (∀ key members k, h < 133 → arriving s i = some m → m.dst = homeSrc h → m.body = .barrier a oa.id key members →
      homeAdmits s h (some a) = true → barrierOf s key = none → freeIdx s h = some k →
      let g := (R.evs.get k {}).gen
      ∃ t u, exec (.offerRegistration i) s = .next t ∧ evOf t ⟨h, k, g⟩ = some u ∧ u.parties = members ∧ u.barrier = some key ∧
        (t.home h).regs = R.regs ++ [⟨selfParty s a, k, g, 0, homeCycles s h, s.time, oa.id, true, 0, 0, 0⟩]) ∧
    (∀ u id, h < 133 → arriving s i = some m → m.dst = homeSrc h → m.body = .withdraw u id →
      ∃ t, exec (.offerRegistration i) s = .next t ∧ (∀ g ∈ (t.home h).regs, g.offId ≠ id) ∧
        ⟨homeSrc h, u, .gone u id⟩ ∈ t.msgs) ∧
    (∀ k, arriving s i = some m → m.dst = a → a < 8384 → m.body = .gone a o.id → (s.slot a).offer = some o → o.wdr = some (k + 1) →
      ∃ t, exec (.offerRegistration i) s = .next t ∧ t.msgs = rest ∧ (t.slot a).offer = some { o with wdr := some k }) ∧
    (h < 128 → a < 8192 → b < 8192 → a ≠ b → s.node < 4096 → homeRuns s h = true → R.evs.get j {} = v → v.live = true →
      v.broken = false → v.plan = 0 → v.barrier = none → v.parties = [selfParty s a, selfParty s b] → R.regs = [ga, gb] → R.tries = [] →
      (s.slot a).offer = some oa → (s.slot b).offer = some ob → (s.slot a).stand = none → (s.slot b).stand = none → (s.slot a).susp = none → (s.slot b).susp = none → oa.id ≠ ob.id →
      oa.id ≠ 0 → ob.id ≠ 0 → heldParty s (selfParty s a) = false → heldParty s (selfParty s b) = false → R.window ≤ w →
      ka / len = w → kb / len = w → w < homeCycles s h / len →
      ∃ t, exec (.resolverWindow h) s = .next t ∧ ((t.home h).evs.get j {}).occ = (v.occ + 1) % 2 ^ 32 ∧ (t.home h).regs = [] ∧
        (t.home h).ptr = (j + 1) % homeCap h ∧ (t.home h).window = w + 1 ∧ (∀ q, t.byte q = s.byte q) ∧
        (∀ n id pos, (n, id, pos) ∈ [(a, oa.d, pa), (b, ob.d, pb)] → (t.slot n).st = .running ∧ (t.slot n).offer = none ∧
          (s.slot n).WritesS (t.slot n) id (BitVec.ofNat 64 pos) ∧ (t.slot n).last = pos ∧ (t.slot n).lstat = 0 ∧
          ((s.slot n).frame = none → (t.slot n).pc = ((s.slot n).pc + 4) % 2 ^ 52))) ∧
    (arriving s i = some m → m.dst = a → a < 8384 → m.body = .claim a o.id c → heldParty s (selfParty s a) = false →
      (s.slot a).offer = some o → (s.slot a).stand = none → (s.slot a).susp = none → (s.slot a).dorm = none → o.wdr = none →
      o.claim = none → commitSent s a o.id = false → ∃ t, exec (.claim i) s = .next t ∧ (t.slot a).offer = some { o with claim := some c } ∧
        t.msgs = rest ++ [⟨a, homeSrc c.ev.home, .answer c.ev.idx c.side a true true⟩]) ∧
    (∀ y sd told, h < 133 → a < 8384 → arriving s i = some m → m.dst = homeSrc h → m.body = .answer j sd a true told → R.tries = [y] →
      y.idx = j → y.side = sd → y.waits = false → y.asked = [selfParty s a] → claimed (R.regs.filter fun g => g.idx == j && g.side == sd) =
        [selfParty s a] → ∃ t, exec (.claimAnswer i) s = .next t ∧ t.msgs = rest ∧
        (t.home h).tries = [{ y with granted := y.granted ++ [(selfParty s a, homeCycles s h)] }]) ∧
    (∀ sd n, h < 133 → arriving s i = some m → m.dst = homeSrc h → m.body = .revoke j sd n → ∃ t, exec (.claimRevoke i) s = .next t ∧
      ((∃ y ∈ R.tries, y.idx = j ∧ y.side = sd) → ∀ y ∈ (t.home h).tries, ¬(y.idx = j ∧ y.side = sd)) ∧
      (t.home h).regs = R.regs) ∧
    (∀ sd, arriving s i = some m → m.dst = a → a < 8384 → m.body = .release a o.id c.ev sd → (s.slot a).offer = some o →
      (s.slot a).stand = none → (s.slot a).susp = none → o.claim = some c → c.side = sd → o.next = none → o.waiters = [] →
      ∃ t, exec (.claimRelease i) s = .next t ∧ (t.slot a).offer = some { o with claim := none } ∧ t.msgs = rest) ∧
    (∀ pos, arriving s i = some m → m.dst = a → a < 8384 → m.body = .commit a o.id pos 0 → (s.slot a).offer = some o →
      (s.slot a).stand = none → (s.slot a).frame = none → ∃ t, exec (.commitNotify i) s = .next t ∧ (t.slot a).offer = none ∧
        (t.slot a).st = .running ∧ (s.slot a).WritesS (t.slot a) o.d (BitVec.ofNat 64 pos) ∧
        (t.slot a).pc = ((s.slot a).pc + 4) % 2 ^ 52) ∧
    ∀ sd, h < 133 → arriving s i = some m → m.dst = homeSrc h → m.body = .free j sd → ∃ t, exec (.freeAnnounce i) s = .next t ∧
      t.msgs = rest ∧ (t.home h).tries = R.tries.filter fun y => !(y.idx == j && y.side == sd && y.waits)

/-! ### Chains -/

/-- 14 R248 to R254, R257, R258: outside a chain a hint returns 2, CHSTAT 0, and EQP does nothing; in a chain that is not
switchable a hint returns 2; a hint for the form that the chain has clears the pending state and returns 1. A PUT of a folded chain hands its
item to the stage parked at the GET, or pushes it, or, with the ring full, is not completed, and control passes on; a GET takes the oldest
item of the ring, then the one handed over, and otherwise parks its stage; both resolve BROKEN as FoldedPut and FoldedGet say. CHFOLD of a spread chain and CHSPREAD of a folded one whose budget allows it leave the switch pending and
return 0; without the budget CHSPREAD returns 3. While a switch is pending EQP parks its stage. Once every live stage is parked at an
equivalence point and there is room, the chain takes its new form: nothing is pending, no item is held, the switch is counted, the active
stage is the first one spread and the last live one folded. A chain with nothing pending stays as it is.
The parking of a stage and the one step of a switch are the model's readings (log entries 104, 105); so are its places (106). -/
def Obligations.ChainsFoldAndSpread : Prop :=
  ∀ (s : State) (d vi id : Nat) (c : Chain) (k : Task) (l : Launch) (fold : Bool) (st : List (Nat × Nat)) (ps : List Place),
    let y := s.me
    let asked := fun (i : Instr) (f : Bool) => ∃ t, exec i s = .next t ∧ chainOf t s.cur = some { c with pend := some f } ∧
      y.WritesS (t.slot s.cur) d 0 ∧ (t.slot s.cur).pc = (y.pc + 4) % 2 ^ 52 ∧ ∀ b, t.byte b = s.byte b
    (s.NoPrefix → y.frame = none →
      (chainOf s s.cur = none → ScalarResult (.chfold d) s d 2 ∧ ScalarResult (.chspread d) s d 2 ∧
        ScalarResult (.chstat d) s d 0 ∧ NoEffect .eqp s) ∧
      (chainOf s s.cur = some c → y.task = some k →
        (c.fixed = true → ScalarResult (.chfold d) s d 2 ∧ ScalarResult (.chspread d) s d 2 ∧ NoEffect .eqp s) ∧
        (c.fixed = false → c.folded = false → asked (.chfold d) true) ∧
        (c.fixed = false → c.folded = true → c.nstage < c.budget → asked (.chspread d) false) ∧
        (c.fixed = false → c.folded = true → c.budget ≤ c.nstage → ScalarResult (.chspread d) s d 3) ∧
        (c.fixed = false → ∃ t, exec (if c.folded then .chfold d else .chspread d) s = .next t ∧ y.WritesS (t.slot s.cur) d 1 ∧
          (t.slot s.cur).pc = (y.pc + 4) % 2 ^ 52 ∧ chainOf t s.cur = some { c with pend := none, openWin := none }) ∧
        (c.fixed = false → c.pend ≠ none → exec .eqp s = .next (s.setSlot s.cur { y with task := some { k with park := 2 } })) ∧
        (c.pend = none → NoEffect .eqp s) ∧
        ScalarResult (.chstat d) s d (BitVec.ofNat 64 ((if c.folded then 1 else 0) * 2 ^ 62 +
          (if c.pend.isSome then 2 ^ 61 else 0) + (if c.fixed then 0 else 2 ^ 60) + 2 ^ 59 + c.nstage * 2 ^ 56 + k.part * 2 ^ 48 +
          c.held.foldl (fun a h => a + 2 ^ (40 + h)) 0 + c.switches % 2 ^ 32)))) ∧
    (∀ e ch v, s.NoPrefix → y.frame = none → y.report = none → y.sb = [] → y.bound e ≠ 0 → inOffer y e = false →
      chainOf s s.cur = some c → c.folded = true → c.pend = none →
      evOf s (refOfName s s.cur (y.bound e)) = some v → v.plan = 4 → channelOf c (refOfName s s.cur (y.bound e)) = some ch →
      v.cl ≠ farCluster → v.mrb + 128 ≤ 2 ^ 22 → s.MemWf → (∀ j, j < 2 ^ 22 → guarded s (tarnBase v.cl + j) = false) →
      let n := chanCount s v
      let blk := v.ringCell
      let size := itemSize v.tile
      let entry := fun i => mrbEntry s v.cl blk i
      let sized := fun i => entry i + size ≤ tarnBase v.cl + 2 ^ 22 ∧ (entry i + size ≤ blk ∨ blk + 128 ≤ entry i)
      let done := fun (t : State) (z : Slot) (st : Nat) => (t.slot s.cur).pc = (y.pc + 4) % 2 ^ 52 ∧ (t.slot s.cur).last = 0 ∧
        (t.slot s.cur).lstat = st ∧ (∀ r, (t.slot s.cur).rv r = z.rv r) ∧
        ∀ r, (t.slot s.cur).rs r = if r % 64 = d % 64 ∧ d % 64 ≠ 0 then BitVec.ofNat 64 (256 * st) else z.rs r
      let chain := fun (t : State) (z : Chain) => chainOf t s.cur = some { z with openWin := none }
      let quiet := fun (t : State) => ∀ a, t.byte a = s.byte a
      let waits := fun (t : State) (p : Nat) => (t.slot s.cur).pc = y.pc ∧ (t.slot s.cur).lstat = y.lstat ∧
        (t.slot s.cur).last = y.last ∧ y.KeepsS (t.slot s.cur) ∧ (t.slot s.cur).task.map (·.park) = some p
      (v.parties[0]? = some (selfParty s s.cur) →
        (ch + 1 ∉ c.live ∨ v.broken = true → ∃ t, exec (.put d e) s = .next t ∧ done t y 1 ∧ chain t c ∧ quiet t) ∧
        (∀ m, ch + 1 ∈ c.live → v.broken = false → n = 0 → parkOf s c (ch + 1) = 3 → stageSlot s c (ch + 1) = some m → m ≠ s.cur →
          ∃ t, exec (.put d e) s = .next t ∧ done t y 0 ∧ quiet t ∧ chain t { c with held := c.held ++ [ch], active := ch + 1 } ∧
            (∀ r, (t.slot m).rs r = (loadItem (s.slot m) v.tile (itemOf y v.tile)).rs r) ∧
            (∀ r, (t.slot m).rv r = (loadItem (s.slot m) v.tile (itemOf y v.tile)).rv r)) ∧
        (ch + 1 ∈ c.live → v.broken = false → n ≠ 0 ∨ parkOf s c (ch + 1) ≠ 3 → n < mrbDepth s blk → sized (mrbProd s blk) →
          ∃ t, exec (.put d e) s = .next t ∧ done t y 0 ∧ chain t { c with active := ch + 1 } ∧
            t.raw (entry (mrbProd s blk)) size = itemOf y v.tile % 2 ^ (8 * size) ∧ mrbProd t blk = (mrbProd s blk + 1) % 2 ^ 32 ∧
            ∀ a, (a < entry (mrbProd s blk) ∨ entry (mrbProd s blk) + size ≤ a) → (a < blk + 8 ∨ blk + 12 ≤ a) →
              t.byte a = s.byte a) ∧
        (ch + 1 ∈ c.live → v.broken = false → n ≠ 0 → mrbDepth s blk ≤ n → stageSlot s c (ch + 1) ≠ some s.cur → ∃ t, exec (.put d e) s = .next t ∧ waits t 4 ∧
          chain t { c with active := ch + 1 } ∧ quiet t)) ∧
      (v.parties[1]? = some (selfParty s s.cur) → v.parties[0]? ≠ some (selfParty s s.cur) →
        (n ≠ 0 → sized (mrbFree s blk) → bits (mrbCfg s blk) 63 48 = 2 ^ (coreOf s.cur % 16) →
          dist32 (keptCount (keptOf s v.cl v.mrb) (coreOf s.cur % 16)) (mrbFree s blk) = 0 →
          ∃ t, exec (.get d e) s = .next t ∧ done t (loadItem y v.tile (s.seen (entry (mrbFree s blk)) size)) 0 ∧ chain t c ∧
            mrbFree t blk = (mrbFree s blk + 1) % 2 ^ 32) ∧
        (n = 0 → ch ∈ c.held → ∃ t, exec (.get d e) s = .next t ∧ done t y 0 ∧ quiet t ∧
          chain t { c with held := c.held.filter (· != ch) }) ∧
        (n = 0 → ch ∉ c.held → ch ∉ c.live ∨ v.broken = true → ∃ t, exec (.get d e) s = .next t ∧ done t y 1 ∧ chain t c ∧ quiet t) ∧
        (n = 0 → ch ∉ c.held → ch ∈ c.live → v.broken = false → stageSlot s c ch ≠ some s.cur → ∃ t, exec (.get d e) s = .next t ∧
          waits t 3 ∧ chain t { c with active := ch } ∧ quiet t))) ∧
    (chainById s vi id = some c → launchOf s vi id = some l →
      (c.pend = none → exec (.chainSwitch vi id) s = .next s) ∧
      (c.pend = some fold → liveStages s c = some st → st ≠ [] → (c.folded = true ∨ c.openWin = none) →
        clusterRuns s c.cl = true →
        (∀ e ∈ st, 1 < stageParked s c e.2 ∧ stageClean s e.2 = true) → switchPlan s c l st fold = some ps →
        ∃ t q, exec (.chainSwitch vi id) s = .next t ∧ chainById t vi id = some q ∧ q.folded = fold ∧ q.pend = none ∧ q.held = [] ∧
          q.switches = c.switches + 1 ∧ q.active = (if fold then c.live.foldl max 0 else 0)))

/-! ### The change-count tree -/

/-- 16 R263 to R269, R272 to R275: CCREAD, CCREAD.T and CCCMP return counts; CCENROL refuses with the first status that applies, or makes
the leaf at the lowest free id, enrols its tiles and adds 1 to every node on the path of its parent, in its one step; CCDROP takes a
childless node and its tiles away, with what was in flight for them and nothing else; CCMOVE gives a node a new parent and a new depth,
and adds 1 to every node of either path; CCSETTLE raises a pending report first, then takes note of its event without a stall. A node
number of more than 20 bits is ILLEGAL. A result that comes late is written when it is back. The roll-up engine adds 1 to a node for
each unit owed, saturating; a settle has ended when nothing is owed to its node, and then offers its event, also for a task that is off
its core.
The model's choices, not the spec's: the queue of owed bumps (log entry 100); that a tree operation is whole in its issuing step, and that a
write of another slot beneath a moved node may be concurrent with the move (log entry 101); that CCREAD.T of a remote or window address gives
all ones (log entry 102); that node 0 is in use always (log entry 103). -/
def Obligations.ChangeCountsAreKept : Prop :=
  (∀ (s : State) (n : Nat) (b : Bump) (rest : List Bump) (m : Nat) (path : List Nat), s.MemWf → (s.vif n).owed = b :: rest →
    b.path = m :: path → (∀ c ∈ rest, c.path ≠ []) → ∃ t, exec (.rollup n) s = .next t ∧
      nodeCount t n m = min countMax (nodeCount s n m + 1) ∧
      (t.vif n).owed = if path = [] then rest else { b with path := path } :: rest) ∧
  (∀ (s : State) (n i : Nat) (c : Settle), s.MemWf → (taskSlot s n).settles[i]? = some c →
    let v := (taskSlot s n).vi
    nodeCount s v c.node ≤ countMax → (∀ b ∈ (s.vif v).owed, b.path.Nodup) → ∃ t, exec (.settleComplete n i) s = .next t ∧
      (taskSlot t n).settles = (taskSlot s n).settles.eraseIdx i ∧ (∀ b ∈ (t.vif v).owed, c.node ∉ b.path) ∧
      nodeCount t v c.node =
        min countMax (nodeCount s v c.node + ((s.vif v).owed.filter fun b => b.path.contains c.node).length) ∧
      Offered s t (taskAgent s 1 n) c.ev) ∧
  (∀ (s : State) (n d : Nat) (v : Word), (s.slot n).st = .interlocked (.tree d v) → (s.slot n).frame = none →
    ∃ t, exec (.treeOperationResult n) s = .next t ∧ (s.slot n).WritesS (t.slot n) d v ∧
      (t.slot n).pc = ((s.slot n).pc + 4) % 2 ^ 52 ∧ (t.slot n).st = .running) ∧
  ∀ (s : State) (d a b x e : Nat), s.MemWf →
    let y := s.me
    let vi := y.vi
    let id := (y.rs a).toNat
    let w := (y.rs b).toNat
    let cnt := nodeCount s vi id
    let ones : Word := BitVec.allOnes 64
    let raised := fun (t : State) (l : List Nat) => ∀ m ∈ l, nodeCount t vi m = min countMax (nodeCount s vi m + 1)
    (s.NoPrefix → y.frame = none → y.sb = [] → s.late = false →
      (∀ u, pendingReport y = some u → exec (.ccsettle x e a) s = .next (takeTrap s s.cur u)) ∧
      (2 ^ 20 ≤ id → (∀ j ∈ [Instr.ccread d a, .cccmp d a b, .ccdrop d a, .ccmove d a b],
        exec j s = .next (takeTrap s s.cur { code := 0x01 })) ∧
        (y.report = none → exec (.ccsettle x e a) s = .next (takeTrap s s.cur { code := 0x01 }))) ∧
      (id < 2 ^ 20 →
        ScalarResult (.ccread d a) s d (if nodeUsed s vi id then BitVec.ofNat 64 cnt else ones) ∧
        ScalarResult (.cccmp d a b) s d (if nodeUsed s vi id = false then 3 else if cnt = w then 0 else if w < cnt then 1 else 2) ∧
        (∀ ev, y.report = none → eventField s s.cur x e 1 = .ok ev → ∃ t, exec (.ccsettle x e a) s = .next t ∧
          (t.slot s.cur).settles = y.settles ++ [⟨id, ev⟩] ∧ (t.slot s.cur).pc = (y.pc + 4) % 2 ^ 52 ∧ y.KeepsS (t.slot s.cur) ∧
          ∀ c, t.byte c = s.byte c) ∧
        (nodeUsed s vi id = false → ScalarResult (.ccdrop d a) s d 1) ∧
        (id = 0 → ScalarResult (.ccdrop d a) s d 6) ∧
        (id ≠ 0 → nodeUsed s vi id = true → nodeKids s vi id ≠ 0 → ScalarResult (.ccdrop d a) s d 3) ∧
        (id ≠ 0 → nodeUsed s vi id = true → nodeKids s vi id = 0 → ∃ t, exec (.ccdrop d a) s = .next t ∧
          y.WritesS (t.slot s.cur) d 0 ∧ nodeUsed t vi id = false ∧ (∀ q < 4, ∀ u ∈ (t.die q).tiles, ¬(u.2.vi = vi ∧ u.2.leaf = id)) ∧
          (t.vif vi).owed = ((s.vif vi).owed.filter fun q => q.leaf != id).map (fun q => q.without id) ∧
          ((nodePath s vi (nodeParent s vi id)).Nodup → raised t (nodePath s vi (nodeParent s vi id)))) ∧
        (w < 2 ^ 20 →
          (nodeUsed s vi id = false ∨ nodeUsed s vi w = false → ScalarResult (.ccmove d a b) s d 1) ∧
          (id = 0 → nodeUsed s vi w = true → ScalarResult (.ccmove d a b) s d 6) ∧
          (id ≠ 0 → nodeUsed s vi id = true → nodeUsed s vi w = true →
            (id ∈ nodePath s vi w → ScalarResult (.ccmove d a b) s d 4) ∧
            (id ∉ nodePath s vi w → (∀ m, m < 2 ^ 20 → nodeUsed s vi m = true → id ∈ nodePath s vi m →
                nodeDepth s vi m + nodeDepth s vi w + 1 ≤ 63 + nodeDepth s vi id) → ∃ t, exec (.ccmove d a b) s = .next t ∧
              y.WritesS (t.slot s.cur) d 0 ∧ nodeParent t vi id = w ∧ nodeDepth t vi id = nodeDepth s vi w + 1 ∧
              (t.vif vi).moved = (s.vif vi).moved ++ [⟨id, s.cur, nodePath s vi (nodeParent s vi id)⟩] ∧
              ((∀ q ∈ (s.vif vi).owed, q.path ≠ [] ∧ (id ∉ nodePath s vi q.leaf ∨ q.who = s.cur)) →
                (∀ q ∈ (s.vif vi).rolled, id ∉ nodePath s vi (q.1 / 2 ^ 34) ∨ q.1 % 2 ^ 34 = s.cur) →
                (t.vif vi).owed = (s.vif vi).owed) ∧
              ((nodePath s vi (nodeParent s vi id)).Nodup → (nodePath s vi w).Nodup →
                raised t (nodePath s vi (nodeParent s vi id)) ∧ raised t (nodePath s vi w)))))) ∧
      (isRemote s id = true ∨ winBase ≤ id % 2 ^ 52 → ScalarResult (.ccreadT d a) s d ones) ∧
      (∀ c, isRemote s id = false → id % 2 ^ 52 < winBase → targetOf s s.cur y.mode id 1 = .ok (.cell c) →
        ScalarResult (.ccreadT d a) s d (match tileAt s c with
          | some u => BitVec.ofNat 64 u.2.count
          | none => ones)) ∧
      (∀ cells, bits w 43 32 = 0 → id % 4096 = 0 → isRemote s id = false → id % 2 ^ 52 < winBase →
        tileCells s s.cur id (bits w 31 0) = .ok cells →
        let p := bits w 63 44
        let k := bits w 31 0
        let answers := fun (v : Word) => ScalarResult (.ccenrol d a b) s d v
        (nodeUsed s vi p = false → answers 1) ∧
        (nodeUsed s vi p = true →
          (2 ^ 20 < k → answers 8) ∧
          (k ≤ 2 ^ 20 →
            (nodeDepth s vi p = 63 → answers 5) ∧
            (nodeDepth s vi p < 63 →
              ((∃ c ∈ cells, isDev c = false) → answers 7) ∧
              ((∀ c ∈ cells, isDev c = true) →
                (¬cells.Nodup ∨ (∃ c ∈ cells, tileAt s c ≠ none) → answers 3) ∧
                (cells.Nodup → (∀ c ∈ cells, tileAt s c = none) →
                  (firstFree s vi (2 ^ 20 - 1) 1 = none ∨ tilesFit s vi cells = false → answers 2) ∧
                  (∀ m, firstFree s vi (2 ^ 20 - 1) 1 = some m → tilesFit s vi cells = true → ∃ t, exec (.ccenrol d a b) s = .next t ∧
                    y.WritesS (t.slot s.cur) d (BitVec.ofNat 64 (m * 2 ^ 32)) ∧ nodeUsed t vi m = true ∧ nodeParent t vi m = p ∧
                    nodeDepth t vi m = nodeDepth s vi p + 1 ∧ nodeKids t vi p = (nodeKids s vi p + 1) % 2 ^ 32 ∧
                    (t.vif vi).owed = (s.vif vi).owed ∧
                    ((nodePath s vi p).Nodup → (∀ q ∈ nodePath s vi p, nodeUsed s vi q = true) →
                      nodeCount t vi m = 0 ∧ raised t (nodePath s vi p)) ∧
                    ∀ c ∈ cells, tileAt t c = some (dieOfCell c, ⟨0, vi, m⟩))))))))) ∧
    (s.NoPrefix → y.frame = none → s.late = true → id < 2 ^ 20 → exec (.ccread d a) s = .next (s.setSlot s.cur { y with
      st := .interlocked (.tree d (if nodeUsed s vi id then BitVec.ofNat 64 cnt else ones)), again := some y.iw }))

/-! ### Tasks -/

/-- 02 R48 to R50: TEXIT of a task with no engine command outstanding retires it, with one outstanding it interlocks, and TASK_RETIREMENT
then retires it: its launch counts it and has its frame back, the events bound in its slot break, and the slot is Free with its banks
cleared, or Reserved for the successor that the retain operand names, with its banks as they were. 22 R325, R326, R328: LAUNCH returns the
status of a refused record, or the handle of the launch that it makes. 20 R302: a held record is posted at TQTAIL once there is room.
That the banks stay at a reservation, and that TEXIT frees a slot without a task, are the model's readings (log entries 35, 40). -/
def Obligations.TasksRetireAndLaunch : Prop :=
  ∀ (s : State) (a d e x n i : Nat) (k : Task) (l : Launch), s.MemWf → s.NoPrefix → s.me.frame = none → s.me.report = none →
    let y := s.me
    let gone := fun (m r : Nat) (t : State) =>
      (∃ q, launchOf t k.vi k.id = some q ∧ q.retired = l.retired + 1 ∧ q.out = l.out - 1 ∧ q.inUse = l.inUse.filter (· != k.frame)) ∧
      (∀ j v, (s.slot m).bound j ≠ 0 → evOf s (refOfName s m ((s.slot m).bound j)) = some v →
        ∃ u, evOf t (refOfName s m ((s.slot m).bound j)) = some u ∧ u.broken = true) ∧
      (if successor s k r then (t.slot m).st = .reserved k.vi (bits r 31 0) k.x k.y k.z ∧
          ∀ c, bankCell m k ≤ c → c < bankCell m k + k.tcm * 4096 → t.byte c = s.byte c
        else (t.slot m).st = .free ∧ (t.slot m).task = none ∧
          ∀ c, bankCell m k ≤ c → c < bankCell m k + k.tcm * 4096 → t.byte c = 0) ∧
      ∀ q, (t.slot m).bound q = 0
    (y.streams = [] → y.sb = [] →
      (enginesOut s s.cur = true → ∃ t, exec (.texit a) s = .next t ∧ (t.slot s.cur).st = .interlocked (.texit (y.rs a).toNat) ∧
        (t.slot s.cur).pc = y.pc ∧ ∀ c, t.byte c = s.byte c) ∧
      (enginesOut s s.cur = false → y.task = some k → k.kind = 0 → launchOf s k.vi k.id = some l →
        ∃ t, exec (.texit a) s = .next t ∧ gone s.cur (y.rs a).toNat t)) ∧
    (∀ r, (s.slot n).st = .interlocked (.texit r) → (s.slot n).streams = [] → (s.slot n).report = none →
      (enginesOut s n = true → exec (.taskRetirement n) s = .next s) ∧
      (enginesOut s n = false → (s.slot n).task = some k → k.kind = 0 → launchOf s k.vi k.id = some l →
        ∃ t, exec (.taskRetirement n) s = .next t ∧ gone n r t)) ∧
    (y.sb = [] → let ea := (y.rs a).toNat;
      (x = 0 → e ≠ 0 → exec (.launch d a x e) s = .next (takeTrap s s.cur { code := 0x01 })) ∧
      (¬(x = 0 ∧ e ≠ 0) → ea % 64 ≠ 0 → exec (.launch d a x e) s = .next (takeTrap s s.cur (accTrap 0x03 ea 1 128 0))) ∧
      (¬(x = 0 ∧ e ≠ 0) → ea % 64 = 0 → isRemote s ea = true ∨ (winBase ≤ ea % 2 ^ 52 ∧ inOwn ea = false) →
        exec (.launch d a x e) s = .next (takeTrap s s.cur (accTrap 0x05 ea 1 128 0))) ∧
      (∀ ev w, ¬(x = 0 ∧ e ≠ 0) → ea % 64 = 0 → isRemote s ea = false → ea % 2 ^ 52 < winBase ∨ inOwn ea = true → s.late = false →
        eventField s s.cur x e 10 = .ok ev → readBlock s s.cur ea 128 = .ok (w, s) →
        let st := checkRecord s y.vi w false
        let id := (s.vif y.vi).nextId
        (st ≠ 0 → ScalarResult (.launch d a x e) s d (BitVec.ofNat 64 st)) ∧
        (st = 0 → launchOf s y.vi id = none → ∃ t q, exec (.launch d a x e) s = .next t ∧
          y.WritesS (t.slot s.cur) d (handleOf y.vi id) ∧ (t.slot s.cur).pc = (y.pc + 4) % 2 ^ 52 ∧
          launchOf t y.vi id = some (launchRec w id { kind := 1, slot := s.cur, ev := ev } q) ∧
          (t.vif y.vi).nextId = (if id = 2 ^ 32 - 1 then 1 else id + 1) ∧ ∀ c, t.byte c = s.byte c))) ∧
    (∀ r, (s.die d).held[i]? = some r → dieOfSlot r.slot = d → queued s d < 252 → (s.core (coreOf r.slot)).halted = false →
      let q := (s.die d).tqtail
      let c := bits (s.die d).tqbase.toNat 51 14 * 2 ^ 14 + 64 * (q % 256)
      asleep s ((List.range 64).map (c + ·)) = false → ∃ t, exec (.heldRecordPost d i) s = .next t ∧ (t.die d).tqtail = (q + 1) % 2 ^ 32 ∧
        (t.die d).held = (s.die d).held.eraseIdx i ∧ (∀ j w, (recordWords s r q)[j]? = some w → t.raw (c + 8 * j) 8 = w % 2 ^ 64) ∧
        ∀ m, m < c ∨ c + 64 ≤ m → t.byte m = s.byte m)

/-- 02 R28 to R31, R42; 22 R327, R332 to R334, R337; 20 R305, R306: the dispatcher places the unit that comes next. The task of a grid
starts at the entry of its launch with its arguments, every other register zero, cleared banks and the region of its slot; a pre-empted one
starts again in the resident handler at VBASE with ECAUSE 2, its events and its TCM image. A slot from which the dispatcher wants its task
receives a PREEMPT request, and where the task of a lower group needs the place, the core is kept for its launch. With nothing to do the
dispatcher changes nothing.
The model's readings: what the handler finds at a re-dispatch (log entry 52), that the region of a task stands in the TRGN register of its
slot's own number (log entry 66), that one step does one thing (log entry 110). -/
def Obligations.DispatchPlacesTasks : Prop :=
  ∀ (s : State) (pick cls f : Nat) (gain : List Nat) (it : Item) (p : Part) (q : Place), s.MemWf →
    let m := q.slot
    let lo := tcmBase (coreOf m) + q.bank * 4096
    let region := regionWord m q.bank it.l.tcm false
    (nextAction s pick = none → exec (.taskDispatch pick) s = .next s ∧ exec (.taskRedispatch pick) s = .next s) ∧
    (nextAction s pick = some (.place cls gain it [q]) → it.l.kind = 0 → it.parts = [p] → it.again = [] → freeFrames it.l 1 = [f] →
      it.l.args.length = 7 → (s.slot m).st = .free → ∃ t, exec (.taskDispatch pick) s = .next t ∧ (t.slot m).st = .running ∧
        (t.slot m).pc = it.l.entry ∧ (t.slot m).mode = false ∧ (t.slot m).vi = it.vi ∧ (t.slot m).vbase = 0 ∧ (t.slot m).epc = 0 ∧
        (t.slot m).ecause = 0 ∧ (t.slot m).saveptr = 0 ∧ (t.slot m).pscratch = 0 ∧ (t.slot m).flags = 0 ∧ (t.slot m).KeepsV {} ∧
        (∀ r, (t.slot m).rs r = if 1 ≤ r % 64 ∧ r % 64 ≤ 7 then it.l.args.getD (r % 64 - 1) 0 else if r % 64 = 60 then it.l.argblk
          else if r % 64 = 61 then BitVec.ofNat 64 winBase
          else if r % 64 = 63 then BitVec.ofNat 64 (winBase + it.l.tcm * 4096 - 1024) else 0) ∧
        (∃ k, (t.slot m).task = some k ∧ k.id = it.l.id ∧ k.x = p.x ∧ k.y = p.y ∧ k.z = p.z ∧ k.frame = f ∧ k.bank = q.bank) ∧
        (∀ c, lo ≤ c → c < lo + it.l.tcm * 4096 → t.byte c = 0) ∧
        (t.core (coreOf m)).trgn.get (slotIn m) 0 = region) ∧
    (∀ e k bs, nextAction s pick = some (.place cls gain it [q]) → it.l.kind = 0 → it.again = [e] → e.slot.task = some k →
      s.pre.find? (fun f => f.out && f.order == e.order) = some e → e.slot.st ≠ .lingering → k.kind = 0 → k.tcm = it.l.tcm → q.tiles = [] →
      frameAt s k + 0x10000 + k.tcm * 4096 ≤ winBase →
      saveRead (s.modSlot m fun x => { x with vi := k.vi }) m (localEa (frameAt s k + 0x10000)) (k.tcm * 4096) = some bs →
      ∃ t, exec (.taskRedispatch pick) s = .next t ∧ (t.slot m).st = .running ∧
        (t.slot m).pc = bits (s.slot m).vbase.toNat 51 2 * 4 ∧ (t.slot m).mode = true ∧ (t.slot m).inh = true ∧
        (t.slot m).ecause = 2 ∧ (t.slot m).evb = e.slot.evb ∧ (t.slot m).saveptr = savePtr q.bank k.tcm ∧
        (∀ j, j < k.tcm * 4096 → bs[j]? = some (t.byte (lo + j))) ∧ (t.core (coreOf m)).trgn.get (slotIn m) 0 = region) ∧
    (∀ ns keep aim, nextAction s pick = some (.request ns keep aim) → ∃ t, exec (.taskDispatch pick) s = .next t ∧
      (∀ a, aim = some a → a ∈ t.aims ∧ ∀ b ∈ t.aims, b.1 = a.1 → b.2.1 = a.2.1 → b = a) ∧
      (∀ n ∈ ns, t.slot n = { s.slot n with preReq := runsTask (s.slot n) }) ∧ (∀ n, n ∉ ns → t.slot n = s.slot n) ∧
      t.kept = s.kept ++ (match keep with
        | none => []
        | some l => (distinct (ns.map coreOf)).map fun c => (c, l)))

/-! ### The network interface and the host -/

/-- 08 R148 to R150, R161, R168; 22 R336; 24 R346 to R351: the interface performs the oldest request of a tenant: a store writes its bytes,
a load answers them, an atomic that comes again answers as before; one for memory of a die that is off waits (24 R365). An append is refused
without a registered ring, from a source that is not admitted (a bound of 0xFFF is the own node, 01 R20), with a misaligned block, and while
the ring is full; else its record is written and kept until its space is free. PUB covers the next record, ordinary data where no binding
stands, and the ring agent offers the event that the entry held when the record was reserved; a record of an arrival binding becomes a task or a
launch; CONS passes the records at the head that are done. An enabled registration is written only to end it.
The model's choices, not the spec's: an entry names a block by the address bits 51 to 6, so that a misaligned append can find one (log entry
74); what becomes of a block that can no longer be read, and how much of an append one step does (log entries 75, 76); that a message of a tenant
that is not enabled is dropped with TENANT at this node too (log entry 117); that a block in a poisoned
granule is BADREC too (log entry 149). -/
def Obligations.RequestsAndByteRings : Prop :=
  ∀ (s : State) (vi cls i j w : Nat) (q : Packet) (queue : List Packet) (e : RingRec) (b : Brb) (l : Launch), s.MemWf →
    let key := ingressKey vi cls
    let u := takeIngress s key 0
    let g := s.regn i
    let apart := fun (cells : List Nat) => cells.Nodup ∧ (∀ c ∈ cells, isTarn c = false) ∧ asleep s cells = false
    let node := fun (x : Nat) => if x = 0xFFF then s.node else x
    let admitted := node (bits g.w2.toNat 11 0) ≤ nodeOfAgent q.src ∧ nodeOfAgent q.src ≤ node (bits g.w2.toNat 43 32)
    let answers := fun (st : Nat) => exec (.remoteAppend vi) s = .next (respond u q st st 0)
    let word := fun (k : Nat) => (b.cells.drop (8 * k)).take 8
    (s.ingress.get key [] = q :: queue → cls < 6 → cls ≠ 4 → q.cls ≠ 5 → bit (s.vif q.vi).tencfg.toNat 63 = true →
      requestSleeps s q = false →
      (∀ cells, q.op = 0 → agentCells s ingressTlb q.vi q.addr q.size 2 = .ok cells → apart cells →
        ∃ t, exec (.ingressDequeue vi cls) s = .next t ∧ cells.map t.byte = bytesOf q.size q.data ∧
          (∀ c, c ∉ cells → t.byte c = s.byte c) ∧ t.ingress.get key [] = queue) ∧
      (∀ cells, q.op = 1 → agentCells s ingressTlb q.vi q.addr q.size 1 = .ok cells → (∀ c ∈ cells, poisoned s c = false) →
        exec (.ingressDequeue vi cls) s = .next (respond u q 0 (numOf (readCells s cells)) 0)) ∧
      (∀ old fl, q.op = 2 → savedAnswer s q = some (old, fl) → exec (.ingressDequeue vi cls) s = .next (respond u q 0 old fl))) ∧
    (s.ingress.get key [] = q :: queue → cls < 6 → cls ≠ 4 → q.cls ≠ 5 → q.op = 1 → bit (s.vif q.vi).tencfg.toNat 63 = false →
      requestSleeps s q = false → exec (.ingressDequeue vi cls) s = .next (respond u q 0x0D 0 0)) ∧
    (s.ingress.get key [] = q :: queue → cls < 6 → cls ≠ 4 → q.op ≠ 5 → requestSleeps s q = true →
      exec (.ingressDequeue vi cls) s = .next s) ∧
    (cls = 4 → s.ingress.get key [] = q :: queue → agentSleeps s vi q.addr 64 = true → exec (.remoteAppend vi) s = .next s) ∧
    (cls = 4 → s.ingress.get key [] = q :: queue → nodeOfAgent q.src ≠ s.node → agentSleeps s vi q.addr 64 = false →
      bit (s.vif vi).tencfg.toNat 63 = false → answers 0x0D) ∧
    (cls = 4 → s.ingress.get key [] = q :: queue → nodeOfAgent q.src ≠ s.node → agentSleeps s vi q.addr 64 = false →
      bit (s.vif vi).tencfg.toNat 63 = true →
      (findRing s vi (q.addr / 64 * 64) = none → answers 2) ∧
      (findRing s vi (q.addr / 64 * 64) = some i → ¬admitted → answers 5) ∧
      (findRing s vi (q.addr / 64 * 64) = some i → admitted → q.addr % 64 ≠ 0 ∨ readBrb s vi q.addr = none → answers 4) ∧
      (findRing s vi q.addr = some i → admitted → q.addr % 64 = 0 → readBrb s vi q.addr = some b →
        let resv := dword b.raw 4
        let lva := b.base + resv % b.size
        resv % b.size + q.size ≤ b.size →
        (b.size - (resv - consOf g b) < q.size → ∃ t, exec (.remoteAppend vi) s = .next t ∧ t.regn i = g ∧
          (apart b.cells → (word 5).map t.byte = bytesOf 8 (dword b.raw 5 + 1))) ∧
        (∀ cells, q.size ≤ b.size - (resv - consOf g b) → agentCells s ingressTlb g.vi lva q.size 1 = .ok cells →
          agentCells s ingressTlb g.vi lva q.size 2 = .ok cells → ∃ t, exec (.remoteAppend vi) s = .next t ∧
          (t.regn i).recs = g.recs ++ [⟨resv, q.size, bits (q.data % 2 ^ 64) 47 40, bits (q.data % 2 ^ 64) 39 0, lva, 1, false,
            bits g.w1.toNat 31 0, g.vi, g.brb⟩] ∧
          (apart cells → cells.map t.byte = bytesOf q.size q.data)))) ∧
    (nextPublished g.recs = [e] → readBrb s e.vi e.brb = some b → ∃ t, exec (.pubPublish i) s = .next t ∧
      (apart b.cells → (word 2).map t.byte = bytesOf 8 (e.start + e.len)) ∧
      (g.bind ≠ 0 → ∃ x ∈ (t.regn i).recs, x.start = e.start ∧ x.len = e.len ∧ x.stage = 2) ∧
      (g.bind = 0 → ∀ x ∈ (t.regn i).recs, x.stage ≠ 2) ∧
      ∀ v, let r := refInView s (meshBase s e.vi) (min 128 (meshSize s e.vi)) e.event
        e.event ≠ 0 → evOf s r = some v → v.broken = false → ringParty s i ∈ v.parties →
        ⟨agentSrc (ringParty s i), homeSrc r.home, .engine (ringParty s i) r.idx r.gen⟩ ∈ t.msgs) ∧
    (recordSleeps s i = true → exec (.arrivalRecord i) s = .next s ∧ exec (.ringLaunchRecord i) s = .next s) ∧
    (∀ id, recordSleeps s i = false → g.launch = some id → nextArrival g = some e → g.bind = 1 → recordReadable s g e = true →
      (e.typ ≠ 2 → launchOf s g.vi id = some l → l.seqn < 2 ^ 32 → ∃ t, exec (.arrivalRecord i) s = .next t ∧
        launchOf t g.vi id = some { l with seqn := l.seqn + 1, arrived := l.arrived ++ [(l.seqn, e.start, e.lva)] } ∧
        exec (.ringLaunchRecord i) s = .next s) ∧
      (∀ rc, e.typ = 2 → e.len = 136 → agentRead s g.vi (e.lva + 8) 128 = some rc → checkRecord s g.vi rc false = 0 →
        let new := (s.vif g.vi).nextId
        launchOf s g.vi new = none → exec (.arrivalRecord i) s = .next s ∧ ∃ t ring, exec (.ringLaunchRecord i) s = .next t ∧
          launchOf t g.vi new = some (launchRec rc new { kind := 2 } ring))) ∧
    (∀ c cells, g.cons = some c → agentRead s g.vi g.brb 64 ≠ none → agentCells s ingressTlb g.vi (g.brb + 24) 8 2 = .ok cells →
      let c' := releasable c g.recs
      c' ≠ c → ∃ t, exec (.arrivalRingRelease i) s = .next t ∧ (t.regn i).recs = g.recs.filter (fun x => c' ≤ x.start) ∧
        (apart cells → cells.map t.byte = bytesOf 8 c')) ∧
    (i < 8192 → j < 4 → w < 2 ^ 64 →
      (bit g.w1.toNat 63 = true → j ≠ 1 ∨ bit w 63 = true ∨ g.bind = 1 → exec (.registrationWrite i j w) s = .next s) ∧
      (bit g.w1.toNat 63 = true → j = 1 → bit w 63 = false → g.bind ≠ 1 → ∃ t, exec (.registrationWrite i j w) s = .next t ∧
        (t.regn i).w1 = BitVec.ofNat 64 (regnWord g.w1.toNat w)) ∧
      (bit g.w1.toNat 63 = false → ∃ t, exec (.registrationWrite i j w) s = .next t ∧
        (j = 0 → (t.regn i).w0 = BitVec.ofNat 64 (bits w 51 6 * 2 ^ 6)) ∧
        (j = 2 → (t.regn i).w2 = BitVec.ofNat 64 (bits w 43 32 * 2 ^ 32 + bits w 11 0)) ∧
        (j = 1 → bit w 63 = false ∨ registered s i g.brb (bits w 37 32) = false →
          (t.regn i).w1 = BitVec.ofNat 64 (regnWord g.w1.toNat w) ∧
          (bit w 63 = true → (t.regn i).recs = g.recs.filter (fun x => x.stage == 1) ∧
            ((t.regn i).cons = none ↔ bits (regnWord g.w1.toNat w) 62 61 ≠ 2))) ∧
        (j = 1 → bit w 63 = true → registered s i g.brb (bits w 37 32) = true → t = s)))

/-- 22 R322, R323, R325, R326, R339; 10 R172: a command of a host queue is read at its head: a launch record is accepted, with an entry
ACCEPTED, or refused with the status that applies; CANCEL marks a launch, and is BADCMD where it names none. An entry due is written at
CQTAIL while the completion queue has room. A launch of which nothing is left to do ends: its completion word is written, its entry is
due or its event is offered, its events are freed.
That the launch id in the entry of a refused or malformed command is 0 is the model's choice (log entry 109). -/
def Obligations.HostLaunchesAndCompletions : Prop :=
  ∀ (s : State) (vi id q : Nat) (l : Launch), s.MemWf →
    let v := s.vif vi
    let u := v.queues.get q {}
    let w := commandAt s vi q
    let tag : Word := BitVec.ofNat 64 (dword w 1)
    let due := fun (t : State) (n st : Nat) => (t.vif vi).waiting = v.waiting ++ [(tag, BitVec.ofNat 64 (n * 2 ^ 32 + q * 2 ^ 8 + st))]
    (nextQueue s vi = some q → dist32 u.tail u.head ≤ queueSize u.ctl → commandBad w = false →
      (w % 2 ^ 8 = 1 →
        let rc := w / 2 ^ 128 % 2 ^ 1024
        let st := checkRecord s vi rc true
        ∃ t, exec (.hostLaunch vi) s = .next t ∧ ((t.vif vi).queues.get q {}).head = inc32 u.head ∧ exec (.hostCancel vi) s = .next s ∧
          (st ≠ 0 → due t 0 st) ∧
          (st = 0 → launchOf s vi v.nextId = none → due t v.nextId 0x20 ∧
            ∃ ring, launchOf t vi v.nextId = some (launchRec rc v.nextId { kind := 0, queue := q, tag := tag } ring))) ∧
      (w % 2 ^ 8 = 2 →
        let n := dword w 2 % 2 ^ 32
        ∃ t, exec (.hostCancel vi) s = .next t ∧ ((t.vif vi).queues.get q {}).head = inc32 u.head ∧
          (launchOf s vi n = none → due t 0 0x08) ∧
          (launchOf s vi n = some l → l.ring = none → launchOf t vi n = some { l with cancel := true } ∧
            (t.vif vi).waiting = v.waiting))) ∧
    (nextQueue s vi = some q → dist32 u.tail u.head ≤ queueSize u.ctl → commandBad w = true → w % 2 ^ 8 ≠ 2 →
      ∃ t, exec (.hostLaunch vi) s = .next t ∧ due t 0 0x08) ∧
    (nextQueue s vi = none → exec (.hostLaunch vi) s = .next s ∧ exec (.hostCancel vi) s = .next s) ∧
    (∀ x rest, v.waiting = x :: rest →
      let c := hostBase + (bits v.cqbase.toNat 63 4 * 16 + 16 * (v.cqtail % queueSize v.cqctl)) % 2 ^ 64
      (bit v.cqctl.toNat 63 = false ∨ queueSize v.cqctl ≤ dist32 v.cqtail v.cqhead → exec (.completionEntryPost vi) s = .next s) ∧
      (bit v.cqctl.toNat 63 = true → dist32 v.cqtail v.cqhead < queueSize v.cqctl → ∃ t, exec (.completionEntryPost vi) s = .next t ∧
        t.raw c 8 = x.1.toNat ∧ t.raw (c + 8) 8 = x.2.toNat ∧ (∀ a, a < c ∨ c + 16 ≤ a → t.byte a = s.byte a) ∧
        (t.vif vi).waiting = rest ∧ (t.vif vi).cqtail = inc32 v.cqtail ∧
        t.irqs = s.irqs ++ if v.cqie then [(vi, 0)] else [])) ∧
    (launchOf s vi id = some l → moreToDispatch l = false → l.out = 0 →
      let st := if l.fault then 0x12 else if l.cancel then 0x10 else l.ended.getD 0x00
      ∃ t, exec (.launchCompletion vi id) s = .next t ∧ launchOf t vi id = none ∧
        (l.src = 0 → (t.vif vi).waiting = v.waiting ++ [(l.srcTag, BitVec.ofNat 64 (l.id * 2 ^ 32 + l.queue * 2 ^ 8 + st))]) ∧
        (l.src = 1 → l.srcSlot < 8384 → Offered s t (partyOf s 10 l.srcSlot) l.srcEv) ∧
        (∀ cells, l.donew ≠ 0 → isRemote s l.donew = false → agentCells s dispatcher vi l.donew 8 2 = .ok cells → cells.Nodup →
          asleep s cells = false → (∀ c ∈ cells, isDev c = true ∧ poisoned s c = false) → cells.map t.byte = bytesOf 8 (l.id * 2 ^ 32 + st)) ∧
        ∀ r f, evOf s r = some f → f.persist = false → f.vi = vi → f.launch = id → evOf t r = none) ∧
    (launchOf s vi id = some l → moreToDispatch l = true ∨ l.out ≠ 0 → exec (.launchCompletion vi id) s = .next s)

/-! ### The device -/

/-- 00 R6; 08 R141; 16 R263; 20 R296, R310, R311; 22 R321, R330; 24 R342, R353, R354, R364, R367, R368: the registers of the host port. A
write of TENCFG keeps the sub-mesh of an enabled tenant, makes the root node of a new one, and is ignored where it is not allowed; MSCR and
ATOMFLAGS change for their die; SMDATA reaches the register that SMSEL selects; a command of the invalidation queue takes what it covers
out of the TLBs and the instruction caches, and its acknowledgement, once no access translated before is under way, counts it; a report is written to RADDR and signalled.
The model's choices, not the spec's: SMDATA by slot T0, what a write of TENCFG may not do, and when a tenant is made (log entries 103, 118,
124); that a misaligned register write is ignored, and a misaligned read gives zero (log entry 123); that a command with bits 15-14 set acts as OP 2, any other malformed one
as OP 1, and what the acknowledgement waits for (log entry 125). -/
def Obligations.DeviceRegistersAct : Prop :=
  ∀ (s : State) (vi d x i j : Nat), s.MemWf → vi < 64 → d < 4 → x < 2 ^ 64 →
    let v := s.vif vi
    let old := v.tencfg.toNat
    let refused := (bit x 63 = true ∧ bits x 6 0 % 2 ^ bits x 10 8 ≠ 0) ∨ bits x 55 40 = 0
    let sel := smSelected s
    let underWay := fun (y : Slot) => (∃ e ∈ s.slots, e.2 = y) ∨ ∃ e ∈ s.pre, e.slot = y
    let cmd := s.raw (s.invq.toNat + 32 * (s.invack % 64)) 32
    let h := dword cmd 0
    let awake := asleep s ((List.range 32).map (s.invq.toNat + 32 * (s.invack % 64) + ·)) = false
    let hit := fun (op w a n : Nat) => op = 2 ∨ (w = bits h 13 8 ∧ (op = 1 ∨ (a < dword cmd 1 + dword cmd 2 ∧ dword cmd 1 < a + n)))
    let out := fun (t : State) (op : Nat) =>
      (∀ l ∈ t.tlb, l ∈ s.tlb ∧ ¬hit op l.vi l.base l.size) ∧ (∀ c ∈ t.icache, c ∈ s.icache ∧ ¬hit op c.vi c.addr 4)
    let broadcast := fun (t : State) (op : Nat) (bad : Bool) => out t op ∧ t.inval = some (op, bits h 13 8, dword cmd 1, dword cmd 2) ∧
      t.inverr = (s.inverr || bad) ∧ t.invack = s.invack
    (refused → exec (.tencfgWrite vi x) s = .next s) ∧
    (¬refused → ∃ t, exec (.tencfgWrite vi x) s = .next t ∧
      (let mesh := if bit old 63 then old else x
       (t.vif vi).tencfg = BitVec.ofNat 64 (bits x 63 62 * 2 ^ 62 + bits x 55 40 * 2 ^ 40 + bits mesh 10 8 * 2 ^ 8 + bits mesh 6 0)) ∧
      (∀ q, q ≠ vi → t.vif q = s.vif q) ∧
      (bit x 63 = true → v.made = false → (t.vif vi).made = true ∧ nodeUsed t vi 0 = true ∧ nodeCount t vi 0 = 0 ∧
        nodeKids t vi 0 = 0 ∧ nodeDepth t vi 0 = 0) ∧
      (bit x 63 = false ∨ v.made = true → ∀ m, nodeUsed t vi m = nodeUsed s vi m ∧ nodeCount t vi m = nodeCount s vi m)) ∧
    (∃ t, exec (.mscrWrite d x) s = .next t ∧ (t.die d).mscr = BitVec.ofNat 64 x &&& 0x7F ∧
      ∀ a, a < mereBase d ∨ mereBase d + 2 ^ 27 ≤ a → t.byte a = s.byte a) ∧
    (∃ t, exec (.atomflagsClear d vi x) s = .next t ∧ (∀ a, t.byte a = s.byte a) ∧
      ∀ q, (t.die d).atomf.get q 0 = if q = vi then (s.die d).atomf.get vi 0 &&& (31 - x % 32) else (s.die d).atomf.get q 0) ∧
    (∃ t, exec .smdataRead s = .next t ∧
      t.hostRead = if 0x10 ≤ sel.2 then (csrRead s sel.1 sel.2).getD 0 else 0) ∧
    (barRead 0x1B0008 s).hostRead = (if 0x10 ≤ sel.2 then (csrRead s sel.1 sel.2).getD 0 else 0) ∧
    (barRead (0x100000 + 64 * vi) s).hostRead = v.tencfg ∧ (i % 8 ≠ 0 ∨ 0x1B0010 ≤ i → (barRead i s).hostRead = 0) ∧
    (d < 4 → (barRead (0x1A0000 + 8 * d) s).hostRead = BitVec.ofNat 64 ((s.die d).pcur * 2 ^ 8 + (s.die d).preq)) ∧
    (bit s.smsel.toNat 63 = false → exec (.smdataWrite x) s = .next s) ∧
    (bit s.smsel.toNat 63 = true → 0x10 ≤ sel.2 → csrRead s sel.1 sel.2 ≠ none →
      exec (.smdataWrite x) s = .next (csrWrite s sel.1 sel.2 (BitVec.ofNat 64 x))) ∧
    (i % 8 ≠ 0 → exec (.registerWrite i x) s = .next s) ∧
    exec (.registerWrite (0x100000 + 64 * vi) x) s = exec (.tencfgWrite vi x) s ∧
    exec (.registerWrite 0x1B0008 x) s = exec (.smdataWrite x) s ∧
    (i < 8192 → j < 4 → exec (.registerWrite (0x120000 + 32 * i + 8 * j) x) s = exec (.registrationWrite i j x) s) ∧
    exec (.registerWrite 0x101000 x) s = .next { s with quantum := x % 2 ^ 32 } ∧
    (∃ t, exec (.registerWrite (0x1A0000 + 8 * d) x) s = .next t ∧ (t.die d).preq = x % 4 ∧ (t.die d).pcur = (s.die d).pcur) ∧
    (i < 128 → ∃ t, exec (.registerWrite (0x1A0100 + 8 * i) x) s = .next t ∧
      (t.cluster i).req = (if x % 4 = 3 then (s.cluster i).req else x % 4) ∧ (t.cluster i).cur = (s.cluster i).cur) ∧
    (i < 4 → s.booted = true → ∃ t, exec (.registerWrite (0x1000 * vi + 0x100 * i + 0x10) x) s = .next t ∧
      ((t.vif vi).queues.get i {}).tail = x % 2 ^ 32 ∧ ((t.vif vi).queues.get i {}).head = (v.queues.get i {}).head) ∧
    (s.inval = none → s.invdb ≠ s.invack → awake →
      (∀ op, bits h 15 14 = 0 → bits h 63 18 = 0 → op = bits h 7 0 → op ≤ 2 → dword cmd 3 = 0 → dword cmd 1 % 2 ^ 16 = 0 →
        dword cmd 2 % 2 ^ 16 = 0 → (op = 0 → dword cmd 2 ≠ 0) →
        (op = 0 → ∃ t, exec .invalidateRange s = .next t ∧ broadcast t 0 false) ∧
        (op = 1 → ∃ t, exec .invalidateSpace s = .next t ∧ broadcast t 1 false) ∧
        (op = 2 → ∃ t, exec .invalidateAll s = .next t ∧ broadcast t 2 false)) ∧
      (bits h 15 14 = 0 → bits h 63 18 ≠ 0 → ∃ t, exec .invalidateSpace s = .next t ∧ broadcast t 1 true) ∧
      (bits h 15 14 ≠ 0 → ∃ t, exec .invalidateAll s = .next t ∧ broadcast t 2 true)) ∧
    (∀ op w a n, s.inval = some (op, w, a, n) → (∃ y, underWay y ∧ stillCovered op w a n y.vi y = true) →
      exec .invalidationAck s = .next s) ∧
    (∀ op w a n, s.inval = some (op, w, a, n) → (∀ y, underWay y → stillCovered op w a n y.vi y = false) →
      ∃ t, exec .invalidationAck s = .next t ∧ t.inval = none ∧ t.invack = inc32 s.invack ∧ ∀ l ∈ t.tlb, l ∈ s.tlb ∧
        ¬(op = 2 ∨ (l.vi = w ∧ (op = 1 ∨ (l.base < a + n ∧ a < l.base + l.size))))) ∧
    (v.go = true → let lo := hostBase + bits v.raddr.toNat 63 6 * 64
      ∃ t, exec (.attestationReport vi) s = .next t ∧ (t.vif vi).go = false ∧ t.raw lo 4 = 1 ∧ t.raw (lo + 4) 4 = vi ∧
        t.raw (lo + 8) 8 = old ∧ (∀ k, k < 6 → t.raw (lo + 16 + 8 * k) 8 = (v.nonce.get k 0).toNat) ∧
        (∀ a, a < lo ∨ lo + 512 ≤ a → t.byte a = s.byte a) ∧ t.irqs = s.irqs ++ (0, 2) :: if vi = 0 then [] else [(vi, 2)]) ∧
    (v.go = false → exec (.attestationReport vi) s = .next s)

/-- 20 R312; 24 R340, R343, R344, R355, R364 to R367: a die takes the P-state that is wanted; a cluster enters C0, C1 or C2 as asked, and
refuses C2 while something of it is in use; a die goes off or refuses, and comes back; a sensor at TEMPC trips its die, and one 15 °C above
takes the power away. A flit in its turn is taken, one that was taken before is ignored, any other asks for a replay; sixteen failures of
one flit in a row take a port down; a port is up with eight lanes; a new PMIN takes effect when the pool allows. A lost node's events break. A function level reset disables its VI; a
cold reset leaves the package as after reset.
The model's readings: what counts as in use at C2 (log entry 128), the temperature and the flits of the other side as arguments of steps (log
entries 130, 131), that a refused request for C2 or C3 has ended (log entry 169), whether a flit discarded while a replay is pending was sent
before the request is a free value (log entry 153). -/
def Obligations.PowerLinksAndResets : Prop :=
  ∀ (s : State) (d p l x : Nat) (f : Flit) (v : Ev), d < 4 →
    let D := s.die d
    let C := s.cluster p
    let w := s.therm.toNat
    let q := s.port l
    (∃ t, exec (.pstateRequest d) s = .next t ∧
      (t.die d).pcur = (if bit w 62 = true ∧ D.preq < bits w 1 0 then bits w 1 0 else D.preq) ∧ ∀ e, e ≠ d → t.die e = s.die e) ∧
    (p < 128 → (s.die (p / 32)).off = false →
      (C.req = 0 → C.cur ≠ 0 → ∃ t, exec (.cstateC0 p) s = .next t ∧ (t.cluster p).cur = 0 ∧ (t.home p).ptr = 0) ∧
      (C.req = 1 → C.cur ≠ 1 → ∃ t, exec (.cstateC1 p) s = .next t ∧ t.cluster p = { C with cur := 1 } ∧ t.homes = s.homes) ∧
      (C.req ≠ 0 → exec (.cstateC0 p) s = .next s) ∧ (C.req ≠ 1 → exec (.cstateC1 p) s = .next s)) ∧
    (p < 128 → C.req = 2 → C.cur ≠ 2 →
      (C.refused = true → exec (.cstateC2 p) s = .next s) ∧
      (C.refused = false → refusesC2 s p = true → ∃ t, exec (.cstateC2 p) s = .next t ∧
        t.cluster p = { C with err := true, refused := true } ∧ ∀ a, t.byte a = s.byte a) ∧
      (C.refused = false → refusesC2 s p = false → ∃ t, exec (.cstateC2 p) s = .next t ∧ (t.cluster p).cur = 2 ∧ (t.cluster p).rings = [] ∧
        (t.cluster p).lease = {} ∧ (t.home p).evs = [] ∧ ∀ j, j < 2 ^ 22 → t.byte (tarnBase p + j) = 0)) ∧
    (D.offReq = true → D.off = false →
      (D.refused = true → exec (.dieC3 d) s = .next s) ∧
      (D.refused = false → refusesC3 s d = true → ∃ t, exec (.dieC3 d) s = .next t ∧
        t.die d = { D with offErr := true, refused := true } ∧ ∀ a, t.byte a = s.byte a) ∧
      (D.refused = false → refusesC3 s d = false → ∃ t, exec (.dieC3 d) s = .next t ∧ (t.die d).off = true ∧ portUp t (4 * d) = false ∧
        ∀ j, j < 2 ^ 27 → t.byte (mereBase d + j) = 0)) ∧
    (D.offReq = false → D.off = true → ∃ t, exec (.dieC0 d) s = .next t ∧ (t.die d).off = false ∧ (t.home (128 + d)).ptr = 0) ∧
    (x < 256 → D.off = false → ∃ t, exec (.thermalTrip d x) s = .next t ∧ (t.die d).temp = x ∧
      (if bit w 63 = true ∧ bits w 15 8 ≤ x ∧ D.pcur < bits w 1 0 then (t.die d).pcur = bits w 1 0 ∧
          t.therm = s.therm ||| BitVec.ofNat 64 (2 ^ 62 + 2 ^ (48 + d)) ∧ t.irqs = s.irqs ++ [(0, 1)]
        else (t.die d).pcur = D.pcur ∧ t.therm = s.therm ∧ t.irqs = s.irqs)) ∧
    exec (.thermalShutdown d x) s = .next (if x < bits w 15 8 + 15 then s else { s with power := false }) ∧
    (portUp s l = true →
      (f.crcOk = true → f.seq % 4096 = q.rxSeq → f.packet = none → ∃ t, exec (.flitReceive l f) s = .next t ∧
        (t.port l).rxSeq = (q.rxSeq + 1) % 4096 ∧ (t.port l).replay = false ∧
        (f.ack = none → f.replay = none → q.wait = [] → (t.port l).buf = q.buf)) ∧
      (f.crcOk = false → q.replay = false → ∃ t, exec (.flitReceive l f) s = .next t ∧ (t.port l).rxSeq = q.rxSeq ∧
        (t.port l).replay = true ∧ (t.port l).replays = (q.replays + 1) % 2 ^ 32) ∧
      (f.crcOk = true → f.seq % 4096 ≠ q.rxSeq → oldSeq q.rxSeq f.seq = true → exec (.flitReceive l f) s = .next s) ∧
      (f.crcOk = false → q.replay = true → ∃ t k, exec (.flitReceive l f) s = .next t ∧ k ≤ 1 ∧
        t.port l = { q with replays := if k = 0 then q.replays else (q.replays + 1) % 2 ^ 32 }) ∧
      (∀ g, x ≠ 0 → q.buf[x - 1]? = some g → ∃ t, exec (.linkReplay l x) s = .next t ∧ (t.port l).buf = q.buf ∧
        ((t.port l).down = true ↔ 16 ≤ (if q.failSeq = g.seq then q.fails else 0) + 1)) ∧
      (q.buf ≠ [] → ∃ t, exec (.linkReplay l 0) s = .next t ∧ (t.port l).fails = 0 ∧ (t.port l).buf = q.buf)) ∧
    (l < 18 → (∀ e ∈ portDies l, (s.die e).off = false) → ∃ t, exec (.portTrained l) s = .next t ∧ portUp t l = true) ∧
    (x < 36 → ∃ t, exec (.laneTrainingLost d x) s = .next t ∧ (laneOf d x).2 ∉ (t.port (laneOf d x).1).lanes ∧
      ∀ k, k ≠ (laneOf d x).1 → t.port k = s.port k) ∧
    (q.minNow ≠ q.pmin → poolUse s q.rx (q.minNow + 1) < poolSize s (q.pmin + 1) → ∃ t, exec (.pminApply l) s = .next t ∧
      t.port l = { q with minNow := q.pmin }) ∧
    (x ≠ s.node → x < 4096 → ∃ t, exec (.nodeLoss x) s = .next t ∧ bit (t.routes.get x 0).toNat 63 = false ∧
      ∀ a, (s.home 132).evs.get p {} = v → v.live = true → a ∈ v.parties → bits a 24 13 = x →
        ((t.home 132).evs.get p {}).broken = true) ∧
    (0 < p → p < 64 → ∃ t, exec (.functionLevelReset p) s = .next t ∧ bit (t.vif p).tencfg.toNat 63 = false ∧ (t.vif p).queues = [] ∧
      ∀ k, launchOf t p k = none) ∧
    (∃ t, exec (.packageReset x) s = .next t ∧ t.slots = [] ∧ t.launches = [] ∧ t.time = 0 ∧ t.node = s.node ∧
      (x = 0 → t.booted = false) ∧ (∀ a, 2 ^ 64 ≤ a → a < 2 ^ 65 → t.byte a = s.byte a) ∧ ∀ a, a < 2 ^ 64 → t.byte a = 0)

/-- 08 R154; 16 R265; 18 R282; 24 R352, R358, R360 to R363: the Ultra Ethernet engine takes the request at the head of a queue that is
enabled and rung: it sends its bytes, or completes it with a status when it is bad; a completion adds to the request's counter, a READ's
bytes first reach memory; unacknowledged packets go again. A peer's WRITE and READ reach the region of their RKEY, its SEND is published
in the ring of its endpoint, held to be tried again while that refuses it, and refused with DENIED without one. The host's write reaches device memory; an announced SC window has passed 96 ticks after its start; an
uncorrectable error poisons its granule.
The model's choices: what a peer says comes as an argument of the step, and a message sent stands in a list (log entry 138); whether a SEND
that arrives is of ordered delivery is a free value (log entry 167). -/
def Obligations.EthernetHostAndErrors : Prop :=
  ∀ (s : State) (q i st rkey off n ep : Nat) (data cells : List Nat), s.MemWf → (∀ b ∈ data, b < 256) →
    let u := sendQ s q
    let vi := u.vi
    let take := fun (ins : Instr) (op : Nat) => ∀ k, nextWork s q = some k → let l := workWords s q k
      workOp l = op →
        (workBad s vi l = false → epBad s vi l = false → ∃ t, exec ins s = .next t ∧ t.ueOut = s.ueOut ++ [workMsg s vi l] ∧
          (sendQ t q).work = u.work ++ [(k, l, 0)] ∧ (sendQ t q).head = inc32 u.head ∧ ∀ a, t.byte a = s.byte a) ∧
        (workBad s vi l = true → bit (workWord l 5) 63 = false → u.recs = [] → ∀ cs, ueCells s vi (workWord l 4) 8 = some cs →
          cs.Nodup → asleep s cs = false →
          ∃ t, exec ins s = .next t ∧ (sendQ t q).head = inc32 u.head ∧ t.ueOut = s.ueOut ∧
            numOf (cs.map t.byte) = (numOf (readCells s cs) + 2 ^ 48) % 2 ^ 64)
    take (.ueSend q) 1 ∧ take (.ueWrite q) 2 ∧ take (.ueRead q) 3 ∧
    (nextWork s q = none → exec (.ueSend q) s = .next s ∧ exec (.ueWrite q) s = .next s ∧ exec (.ueRead q) s = .next s) ∧
    (∀ l k cs, u.work.find? (fun e => e.1 == i) = some (i, l, k) → bit (workWord l 5) 63 = false → u.recs = [] →
      ueCells s vi (workWord l 4) 8 = some cs → cs.Nodup → asleep s cs = false →
      (st = 0 ∨ st = 1 ∨ st = 2 ∨ st = 4 → ¬(st = 0 ∧ workOp l = 3) → ∃ t, exec (.ueCompletion q i st data) s = .next t ∧
        (∀ e ∈ (sendQ t q).work, e.1 ≠ i) ∧
        numOf (cs.map t.byte) = (numOf (readCells s cs) + if st = 0 then 1 else 2 ^ 48) % 2 ^ 64) ∧
      (workOp l = 3 → localBytes s vi l 2 = some cells → data.length = cells.length → cells.Nodup → asleep s cells = false → (∀ c ∈ cells, isDev c = true) →
        (∀ c ∈ cs, c ∉ cells) → ∃ t, exec (.ueCompletion q i 0 data) s = .next t ∧ cells.map t.byte = data ∧
          ∀ e ∈ (sendQ t q).work, e.1 ≠ i) ∧
      ∃ t, exec (.ueRetransmission q i) s = .next t ∧ t.ueOut = s.ueOut ++ [workMsg s vi l] ∧ ∀ a, t.byte a = s.byte a) ∧
    (∃ t, exec (.ueWriteArrival rkey off data) s = .next t ∧
      match regionCells s rkey off data.length 2 with
      | none => t = s
      | some cs => cs.Nodup → asleep s cs = false → (∀ c ∈ cs, isDev c = true) → cs.map t.byte = data ∧ ∀ a, a ∉ cs → t.byte a = s.byte a) ∧
    (exec (.ueReadArrival rkey off n) s = .next (match regionCells s rkey off n 1 with
      | none => s
      | some cs => { s with ueOut := s.ueOut ++ [⟨4, false, 0, 0, 0, 0, off, rkey, readCells s cs⟩] })) ∧
    (let w := (s.endpts.get ep {}).w0.toNat
     let g := s.regn (bits w 16 4)
     let len := 8 + (data.length + 7) / 8 * 8
     bit w 63 = true → 8 ≤ data.length → data.length ≤ 248 → s.ueIn = [] →
     (bit g.w1.toNat 63 = false → ∃ t m, exec (.ueSendArrival ep data) s = .next t ∧ t.ueOut = s.ueOut ++ [m] ∧ m.op = 5 ∧ m.ep = ep ∧
      t.ueIn = [] ∧ ∀ a, t.byte a = s.byte a) ∧
     ∀ b, bit g.w1.toNat 63 = true → g.vi = bits w 37 32 →
     (readBrb s g.vi g.brb = some b → dword b.raw 4 % b.size + len ≤ b.size → b.size - (dword b.raw 4 - consOf g b) < len →
      ∃ t r, exec (.ueSendArrival ep data) s = .next t ∧ t.ueIn = [⟨ep, r, data⟩] ∧ t.regn (bits w 16 4) = g) ∧
     (readBrb s g.vi g.brb = some b → dword b.raw 4 % b.size + len ≤ b.size → len ≤ b.size - (dword b.raw 4 - consOf g b) →
      agentCells s ingressTlb g.vi (b.base + dword b.raw 4 % b.size) len 1 = .ok cells →
      agentCells s ingressTlb g.vi (b.base + dword b.raw 4 % b.size) len 2 = .ok cells → cells.Nodup → asleep s cells = false →
      (∀ c ∈ cells, isDev c = true) → ∃ t e, exec (.ueSendArrival ep data) s = .next t ∧
        (t.regn (bits w 16 4)).recs = g.recs ++ [e] ∧ e.typ = 1 ∧ e.len = len ∧
        ((cells.drop 8).take data.length).map t.byte = data)) ∧
    (ep + data.length ≤ 2 ^ 52 → data.length ≤ 512 → asleep s ((List.range data.length).map (ep + ·)) = false → ∃ t, exec (.hostMemoryWrite ep data) s = .next t ∧
      ((List.range data.length).map fun j => t.byte (ep + j)) = data ∧ ∀ a, a < ep ∨ ep + data.length ≤ a → t.byte a = s.byte a) ∧
    (64 * q + 96 ≤ s.time → ∃ t, exec (.scAnnouncement q) s = .next t ∧ (∀ e, e ∈ t.sc ↔ e ∈ s.sc ∧ e.window ≠ q) ∧ t.slots = s.slots) ∧
    (s.time < 64 * q + 96 → exec (.scAnnouncement q) s = .next s) ∧
    ∃ t, exec (.uncorrectableError q) s = .next t ∧ (∀ c, poisoned t c = (poisoned s c || c / 64 == q)) ∧ ∀ a, t.byte a = s.byte a

/-! ### The whole machine -/

/-- 04 R56, R57, R60, R64, R78, R88; 01 R9: at the turn of a core the slot that is next in rotation runs the word at its PC (or the word that
it is to run again, or the next word of its repeat frame, staggered): the step is exec of the decoded instruction at the state in which the
rotation has moved on and the slot has taken the word. A word that cannot be fetched raises its fault, one that stands for no instruction
ILLEGAL. Where no cache line and no poison is in the way, the word is the four bytes at PC. A turn of another agent is its step. Without
power there is no step.
Whose turn it is comes from the agenda, the model's own field, and the place of a slot that was skipped is its choice (log entries 7,
8). -/
def Obligations.StepRunsTheDecodedInstruction : Prop :=
  ∀ (s r : State) (dt c n w : Nat) (i : Instr),
    let u := tick r dt
    let t := { u.modCore c fun x => { x with rot := turnDone x.rot (slotIn n) } with cur := n }
    let x := t.slot n
    let ready := s.power = true ∧ takeTurn s = (⟨dt, .issue c⟩, r) ∧ nextSlot u c = some n ∧ preemptActs t n = false ∧
      handlerDue t n = false
    let loaded := t.setSlot n { x with iw := w }
    (ready → x.frame = none → (x.again = none ∧ fetchWord t n x.pc = .ok w) ∨ x.again = some w →
      (decode w = .ok i → step s = exec i loaded) ∧
      ∀ e, decode w = .error e → step s = .next (takeTrap loaded n { code := 0x01 })) ∧
    (ready → x.frame = none → x.again = none → ∀ e, fetchWord t n x.pc = .error e → step s = .next (takeTrap t n e)) ∧
    (∀ f, ready → x.frame = some f → f.words[f.rpos]? = some w → decode w = .ok i → step s = exec (stagger f i) loaded) ∧
    (∀ a, fetchCell t n x.pc = .ok a → poisoned t a = false → (∀ e ∈ t.icache, e.quad ≠ quadOf n ∨ e.addr ≠ x.pc) →
      fetchWord t n x.pc = .ok (t.raw a 4)) ∧
    (s.power = true → takeTurn s = (⟨dt, .event i⟩, r) → step s = exec i u) ∧
    (s.power = false → step s = .fault .poweredOff)

/-- 04 R60 to R62: a few words, their fields laid out as 26 gives them, and the instructions that they stand for; a word with a nonzero bit
where the encoding has zeros, and one of an unassigned operation, stand for none. -/
def Obligations.SomeWordsDecode : Prop :=
  decode 0x04A51E00 = .ok (.add 10 20 30) ∧ decode 0x0851BFFC = .ok (.addi 5 6 0x3FFC) ∧ decode 0x48518C02 = .ok (.ld 5 6 0 2) ∧
  decode 0x84221A00 = .ok (.vfadd 1 2 3 2) ∧ decode 0xC2435C05 = .ok (.mma 1 4 3 1 7) ∧ decode 0xD0050002 = .ok (.evbind 0 20) ∧
  decode 0xD8D00001 = .ok (.chfold 13) ∧ decode 0x4451A203 = .ok (.launch 5 6 1 2) ∧ decode 0x00108502 = .ok (.trap 1 2 5) ∧
  (∀ i, decode 0x00000101 ≠ .ok i) ∧ ∀ i, decode 0x000000FF ≠ .ok i

/-- 04 R60 to R64: every well-formed instruction has a word of 32 bits, and the decoder reads it back, from the word and from its bytes in
memory order, with every operand as it was. -/
def Obligations.EncodedInstructionsDecodeToThemselves : Prop :=
  ∀ i : Instr, wellFormed i = true → i.isAgentStep = false →
    ∃ w, encode i = some w ∧ w < 2 ^ 32 ∧ decode w = .ok i ∧ decodeBytes (wordBytes w) = some (i, [])

/-- The machine right after reset: its memory is in canonical form, Sumac slots are privileged (20 R295) with e31 bound (20
R303), no task, launch or chain exists, the quantum is 2^16 (22 R333) and no tenant is enabled (22 R330). That worker slots are Free, that
Sumac slots run from address 0 and that registers and memory read zero is the model's choice (log entries 2 to 6). -/
def Obligations.ResetState : Prop :=
  State.reset.MemWf ∧
  (∀ n, isWorker n = true → (State.reset.slot n).st = .free ∧ (State.reset.slot n).task = none) ∧
  (∀ n, isSumac n = true → (State.reset.slot n).mode = true ∧ (State.reset.slot n).bound 31 ≠ 0 ∧ (State.reset.slot n).pc = 0) ∧
  (∀ n r, (State.reset.slot n).rs r = 0 ∧ (State.reset.slot n).rv r = 0 ∧ (State.reset.slot n).flags = 0) ∧
  (∀ v, (State.reset.vif v).tencfg = 0 ∧ (State.reset.vif v).queues = []) ∧
  (∀ a, State.reset.byte a = 0) ∧
  State.reset.launches = [] ∧ State.reset.chains = [] ∧ State.reset.pre = [] ∧ State.reset.quantum = 0x10000 ∧ State.reset.power = true

/-- Every step of the machine keeps the canonical form of memory (ascending cells, none listed that reads as an unlisted one): equal memories
stay equal data, whichever instruction, engine or agent takes the step.
That an unlisted byte reads 0 is the model's choice (log entry 2). -/
def Obligations.EveryStepKeepsTheMemoryForm : Prop :=
  ∀ s t : State, s.MemWf → step s = .next t → t.MemWf
end

