-- ==== Sys2Proof/Laws/State.lean ====
section
/-!
SUPPORT. What each update of the state and of a slot does to each field and to each accessor: true by unfolding, said once.
-/

namespace Sys2Proof.Machine

open Sys2Proof

/-! ### Sparse tables -/

@[simp] theorem SMap.get_set_self {V : Type} (m : SMap V) (k : Nat) (v d : V) : (SMap.set m k v).get k d = v := by
  induction m with
  | nil => simp [SMap.set, SMap.get]
  | cons e t ih =>
    obtain ⟨j, u⟩ := e
    unfold SMap.set
    split
    · simp [SMap.get]
    · split
      · simp [SMap.get]
      · rename_i h; simpa [SMap.get, h] using ih

theorem SMap.get_set_ne {V : Type} (m : SMap V) {k j : Nat} (v d : V) (h : j ≠ k) :
    (SMap.set m k v).get j d = SMap.get m j d := by
  induction m with
  | nil => simp [SMap.set, SMap.get, h.symm]
  | cons e t ih =>
    obtain ⟨i, u⟩ := e
    unfold SMap.set
    split
    · simp [SMap.get, h.symm]
    · split
      · rename_i hi; subst hi; simp [SMap.get, h.symm]
      · simp only [SMap.get]; split <;> [rfl; exact ih]

theorem SMap.get_set {V : Type} (m : SMap V) (k j : Nat) (v d : V) :
    (SMap.set m k v).get j d = if j = k then v else SMap.get m j d := by
  split
  · subst_vars; simp
  · exact SMap.get_set_ne m v d ‹_›

/-! ### Accessors after an update of their own table -/

@[simp] theorem setSlot_slot_self (s : State) (n : Nat) (x : Slot) : (s.setSlot n x).slot n = x := by
  simp [State.setSlot, State.slot]

theorem setSlot_slot (s : State) (n m : Nat) (x : Slot) : (s.setSlot n x).slot m = if m = n then x else s.slot m := by
  simp only [State.setSlot, State.slot, SMap.get_set]

theorem setSlot_slot_ne (s : State) (n m : Nat) (x : Slot) (h : m ≠ n) : (s.setSlot n x).slot m = s.slot m := by
  simp [setSlot_slot, h]

@[simp] theorem modSlot_slot_self (s : State) (n : Nat) (f : Slot → Slot) : (s.modSlot n f).slot n = f (s.slot n) := by
  simp [State.modSlot]

theorem modSlot_slot (s : State) (n m : Nat) (f : Slot → Slot) :
    (s.modSlot n f).slot m = if m = n then f (s.slot n) else s.slot m := by
  simp only [State.modSlot, setSlot_slot]

theorem modSlot_slot_ne (s : State) (n m : Nat) (f : Slot → Slot) (h : m ≠ n) : (s.modSlot n f).slot m = s.slot m := by
  simp [modSlot_slot, h]

@[simp] theorem modCore_core_self (s : State) (n : Nat) (f : Core → Core) : (s.modCore n f).core n = f (s.core n) := by
  simp [State.modCore, State.core]

theorem modCore_core (s : State) (n m : Nat) (f : Core → Core) :
    (s.modCore n f).core m = if m = n then f (s.core n) else s.core m := by
  simp only [State.modCore, State.core, SMap.get_set]

theorem modCore_core_ne (s : State) (n m : Nat) (f : Core → Core) (h : m ≠ n) : (s.modCore n f).core m = s.core m := by
  simp [modCore_core, h]

@[simp] theorem modCluster_cluster_self (s : State) (n : Nat) (f : Cluster → Cluster) : (s.modCluster n f).cluster n = f (s.cluster n) := by
  simp [State.modCluster, State.cluster]

theorem modCluster_cluster (s : State) (n m : Nat) (f : Cluster → Cluster) :
    (s.modCluster n f).cluster m = if m = n then f (s.cluster n) else s.cluster m := by
  simp only [State.modCluster, State.cluster, SMap.get_set]

theorem modCluster_cluster_ne (s : State) (n m : Nat) (f : Cluster → Cluster) (h : m ≠ n) : (s.modCluster n f).cluster m = s.cluster m := by
  simp [modCluster_cluster, h]

@[simp] theorem modHome_home_self (s : State) (n : Nat) (f : Resolver → Resolver) : (s.modHome n f).home n = f (s.home n) := by
  simp [State.modHome, State.home]

theorem modHome_home (s : State) (n m : Nat) (f : Resolver → Resolver) :
    (s.modHome n f).home m = if m = n then f (s.home n) else s.home m := by
  simp only [State.modHome, State.home, SMap.get_set]

theorem modHome_home_ne (s : State) (n m : Nat) (f : Resolver → Resolver) (h : m ≠ n) : (s.modHome n f).home m = s.home m := by
  simp [modHome_home, h]

@[simp] theorem modDie_die_self (s : State) (n : Nat) (f : Die → Die) : (s.modDie n f).die n = f (s.die n) := by
  simp [State.modDie, State.die]

theorem modDie_die (s : State) (n m : Nat) (f : Die → Die) :
    (s.modDie n f).die m = if m = n then f (s.die n) else s.die m := by
  simp only [State.modDie, State.die, SMap.get_set]

theorem modDie_die_ne (s : State) (n m : Nat) (f : Die → Die) (h : m ≠ n) : (s.modDie n f).die m = s.die m := by
  simp [modDie_die, h]

@[simp] theorem modVi_vif_self (s : State) (n : Nat) (f : Vi → Vi) : (s.modVi n f).vif n = f (s.vif n) := by
  simp [State.modVi, State.vif]

theorem modVi_vif (s : State) (n m : Nat) (f : Vi → Vi) :
    (s.modVi n f).vif m = if m = n then f (s.vif n) else s.vif m := by
  simp only [State.modVi, State.vif, SMap.get_set]

theorem modVi_vif_ne (s : State) (n m : Nat) (f : Vi → Vi) (h : m ≠ n) : (s.modVi n f).vif m = s.vif m := by
  simp [modVi_vif, h]

@[simp] theorem modPort_port_self (s : State) (n : Nat) (f : Port → Port) : (s.modPort n f).port n = f (s.port n) := by
  simp [State.modPort, State.port]

theorem modPort_port (s : State) (n m : Nat) (f : Port → Port) :
    (s.modPort n f).port m = if m = n then f (s.port n) else s.port m := by
  simp only [State.modPort, State.port, SMap.get_set]

theorem modPort_port_ne (s : State) (n m : Nat) (f : Port → Port) (h : m ≠ n) : (s.modPort n f).port m = s.port m := by
  simp [modPort_port, h]

@[simp] theorem modRegn_regn_self (s : State) (n : Nat) (f : Regn → Regn) : (s.modRegn n f).regn n = f (s.regn n) := by
  simp [State.modRegn, State.regn]

theorem modRegn_regn (s : State) (n m : Nat) (f : Regn → Regn) :
    (s.modRegn n f).regn m = if m = n then f (s.regn n) else s.regn m := by
  simp only [State.modRegn, State.regn, SMap.get_set]

theorem modRegn_regn_ne (s : State) (n m : Nat) (f : Regn → Regn) (h : m ≠ n) : (s.modRegn n f).regn m = s.regn m := by
  simp [modRegn_regn, h]

/-! ### Fields of the state after an update of another field -/

@[simp] theorem setSlot_time_field (s : State) (n : Nat) (x : Slot) : (s.setSlot n x).time = s.time := rfl
@[simp] theorem setSlot_node_field (s : State) (n : Nat) (x : Slot) : (s.setSlot n x).node = s.node := rfl
@[simp] theorem setSlot_power_field (s : State) (n : Nat) (x : Slot) : (s.setSlot n x).power = s.power := rfl
@[simp] theorem setSlot_cur_field (s : State) (n : Nat) (x : Slot) : (s.setSlot n x).cur = s.cur := rfl
@[simp] theorem setSlot_agenda_field (s : State) (n : Nat) (x : Slot) : (s.setSlot n x).agenda = s.agenda := rfl
@[simp] theorem setSlot_fresh_field (s : State) (n : Nat) (x : Slot) : (s.setSlot n x).fresh = s.fresh := rfl
@[simp] theorem setSlot_late_field (s : State) (n : Nat) (x : Slot) : (s.setSlot n x).late = s.late := rfl
@[simp] theorem setSlot_hold_field (s : State) (n : Nat) (x : Slot) : (s.setSlot n x).hold = s.hold := rfl
@[simp] theorem setSlot_cores_field (s : State) (n : Nat) (x : Slot) : (s.setSlot n x).cores = s.cores := rfl
@[simp] theorem setSlot_clusters_field (s : State) (n : Nat) (x : Slot) : (s.setSlot n x).clusters = s.clusters := rfl
@[simp] theorem setSlot_homes_field (s : State) (n : Nat) (x : Slot) : (s.setSlot n x).homes = s.homes := rfl
@[simp] theorem setSlot_dies_field (s : State) (n : Nat) (x : Slot) : (s.setSlot n x).dies = s.dies := rfl
@[simp] theorem setSlot_vis_field (s : State) (n : Nat) (x : Slot) : (s.setSlot n x).vis = s.vis := rfl
@[simp] theorem setSlot_mem_field (s : State) (n : Nat) (x : Slot) : (s.setSlot n x).mem = s.mem := rfl
@[simp] theorem setSlot_poison_field (s : State) (n : Nat) (x : Slot) : (s.setSlot n x).poison = s.poison := rfl
@[simp] theorem setSlot_tlb_field (s : State) (n : Nat) (x : Slot) : (s.setSlot n x).tlb = s.tlb := rfl
@[simp] theorem setSlot_icache_field (s : State) (n : Nat) (x : Slot) : (s.setSlot n x).icache = s.icache := rfl
@[simp] theorem setSlot_sc_field (s : State) (n : Nat) (x : Slot) : (s.setSlot n x).sc = s.sc := rfl
@[simp] theorem setSlot_msgs_field (s : State) (n : Nat) (x : Slot) : (s.setSlot n x).msgs = s.msgs := rfl
@[simp] theorem setSlot_nextOff_field (s : State) (n : Nat) (x : Slot) : (s.setSlot n x).nextOff = s.nextOff := rfl
@[simp] theorem setSlot_launches_field (s : State) (n : Nat) (x : Slot) : (s.setSlot n x).launches = s.launches := rfl
@[simp] theorem setSlot_chains_field (s : State) (n : Nat) (x : Slot) : (s.setSlot n x).chains = s.chains := rfl
@[simp] theorem setSlot_pre_field (s : State) (n : Nat) (x : Slot) : (s.setSlot n x).pre = s.pre := rfl
@[simp] theorem setSlot_quantum_field (s : State) (n : Nat) (x : Slot) : (s.setSlot n x).quantum = s.quantum := rfl
@[simp] theorem setSlot_turn_field (s : State) (n : Nat) (x : Slot) : (s.setSlot n x).turn = s.turn := rfl
@[simp] theorem setSlot_kept_field (s : State) (n : Nat) (x : Slot) : (s.setSlot n x).kept = s.kept := rfl
@[simp] theorem setSlot_aims_field (s : State) (n : Nat) (x : Slot) : (s.setSlot n x).aims = s.aims := rfl
@[simp] theorem setSlot_parked_field (s : State) (n : Nat) (x : Slot) : (s.setSlot n x).parked = s.parked := rfl
@[simp] theorem setSlot_epochs_field (s : State) (n : Nat) (x : Slot) : (s.setSlot n x).epochs = s.epochs := rfl
@[simp] theorem setSlot_unitVi_field (s : State) (n : Nat) (x : Slot) : (s.setSlot n x).unitVi = s.unitVi := rfl
@[simp] theorem setSlot_ports_field (s : State) (n : Nat) (x : Slot) : (s.setSlot n x).ports = s.ports := rfl
@[simp] theorem setSlot_routes_field (s : State) (n : Nat) (x : Slot) : (s.setSlot n x).routes = s.routes := rfl
@[simp] theorem setSlot_regns_field (s : State) (n : Nat) (x : Slot) : (s.setSlot n x).regns = s.regns := rfl
@[simp] theorem setSlot_ingress_field (s : State) (n : Nat) (x : Slot) : (s.setSlot n x).ingress = s.ingress := rfl
@[simp] theorem setSlot_cache_field (s : State) (n : Nat) (x : Slot) : (s.setSlot n x).cache = s.cache := rfl
@[simp] theorem setSlot_errs_field (s : State) (n : Nat) (x : Slot) : (s.setSlot n x).errs = s.errs := rfl
@[simp] theorem setSlot_closing_field (s : State) (n : Nat) (x : Slot) : (s.setSlot n x).closing = s.closing := rfl
@[simp] theorem setSlot_invq_field (s : State) (n : Nat) (x : Slot) : (s.setSlot n x).invq = s.invq := rfl
@[simp] theorem setSlot_invdb_field (s : State) (n : Nat) (x : Slot) : (s.setSlot n x).invdb = s.invdb := rfl
@[simp] theorem setSlot_invack_field (s : State) (n : Nat) (x : Slot) : (s.setSlot n x).invack = s.invack := rfl
@[simp] theorem setSlot_inverr_field (s : State) (n : Nat) (x : Slot) : (s.setSlot n x).inverr = s.inverr := rfl
@[simp] theorem setSlot_inval_field (s : State) (n : Nat) (x : Slot) : (s.setSlot n x).inval = s.inval := rfl
@[simp] theorem setSlot_smsel_field (s : State) (n : Nat) (x : Slot) : (s.setSlot n x).smsel = s.smsel := rfl
@[simp] theorem setSlot_hostRead_field (s : State) (n : Nat) (x : Slot) : (s.setSlot n x).hostRead = s.hostRead := rfl
@[simp] theorem setSlot_sendqs_field (s : State) (n : Nat) (x : Slot) : (s.setSlot n x).sendqs = s.sendqs := rfl
@[simp] theorem setSlot_endpts_field (s : State) (n : Nat) (x : Slot) : (s.setSlot n x).endpts = s.endpts := rfl
@[simp] theorem setSlot_ueOut_field (s : State) (n : Nat) (x : Slot) : (s.setSlot n x).ueOut = s.ueOut := rfl
@[simp] theorem setSlot_ueIn_field (s : State) (n : Nat) (x : Slot) : (s.setSlot n x).ueIn = s.ueIn := rfl
@[simp] theorem setSlot_therm_field (s : State) (n : Nat) (x : Slot) : (s.setSlot n x).therm = s.therm := rfl
@[simp] theorem setSlot_irqs_field (s : State) (n : Nat) (x : Slot) : (s.setSlot n x).irqs = s.irqs := rfl
@[simp] theorem setSlot_booted_field (s : State) (n : Nat) (x : Slot) : (s.setSlot n x).booted = s.booted := rfl
@[simp] theorem setSlot_core_other (s : State) (n : Nat) (x : Slot) (j : Nat) : (s.setSlot n x).core j = s.core j := rfl
@[simp] theorem setSlot_cluster_other (s : State) (n : Nat) (x : Slot) (j : Nat) : (s.setSlot n x).cluster j = s.cluster j := rfl
@[simp] theorem setSlot_home_other (s : State) (n : Nat) (x : Slot) (j : Nat) : (s.setSlot n x).home j = s.home j := rfl
@[simp] theorem setSlot_die_other (s : State) (n : Nat) (x : Slot) (j : Nat) : (s.setSlot n x).die j = s.die j := rfl
@[simp] theorem setSlot_vif_other (s : State) (n : Nat) (x : Slot) (j : Nat) : (s.setSlot n x).vif j = s.vif j := rfl
@[simp] theorem setSlot_port_other (s : State) (n : Nat) (x : Slot) (j : Nat) : (s.setSlot n x).port j = s.port j := rfl
@[simp] theorem setSlot_regn_other (s : State) (n : Nat) (x : Slot) (j : Nat) : (s.setSlot n x).regn j = s.regn j := rfl
@[simp] theorem setSlot_byte_other (s : State) (n : Nat) (x : Slot) (j : Nat) : (s.setSlot n x).byte j = s.byte j := rfl

@[simp] theorem modSlot_time_field (s : State) (n : Nat) (f : Slot → Slot) : (s.modSlot n f).time = s.time := rfl
@[simp] theorem modSlot_node_field (s : State) (n : Nat) (f : Slot → Slot) : (s.modSlot n f).node = s.node := rfl
@[simp] theorem modSlot_power_field (s : State) (n : Nat) (f : Slot → Slot) : (s.modSlot n f).power = s.power := rfl
@[simp] theorem modSlot_cur_field (s : State) (n : Nat) (f : Slot → Slot) : (s.modSlot n f).cur = s.cur := rfl
@[simp] theorem modSlot_agenda_field (s : State) (n : Nat) (f : Slot → Slot) : (s.modSlot n f).agenda = s.agenda := rfl
@[simp] theorem modSlot_fresh_field (s : State) (n : Nat) (f : Slot → Slot) : (s.modSlot n f).fresh = s.fresh := rfl
@[simp] theorem modSlot_late_field (s : State) (n : Nat) (f : Slot → Slot) : (s.modSlot n f).late = s.late := rfl
@[simp] theorem modSlot_hold_field (s : State) (n : Nat) (f : Slot → Slot) : (s.modSlot n f).hold = s.hold := rfl
@[simp] theorem modSlot_cores_field (s : State) (n : Nat) (f : Slot → Slot) : (s.modSlot n f).cores = s.cores := rfl
@[simp] theorem modSlot_clusters_field (s : State) (n : Nat) (f : Slot → Slot) : (s.modSlot n f).clusters = s.clusters := rfl
@[simp] theorem modSlot_homes_field (s : State) (n : Nat) (f : Slot → Slot) : (s.modSlot n f).homes = s.homes := rfl
@[simp] theorem modSlot_dies_field (s : State) (n : Nat) (f : Slot → Slot) : (s.modSlot n f).dies = s.dies := rfl
@[simp] theorem modSlot_vis_field (s : State) (n : Nat) (f : Slot → Slot) : (s.modSlot n f).vis = s.vis := rfl
@[simp] theorem modSlot_mem_field (s : State) (n : Nat) (f : Slot → Slot) : (s.modSlot n f).mem = s.mem := rfl
@[simp] theorem modSlot_poison_field (s : State) (n : Nat) (f : Slot → Slot) : (s.modSlot n f).poison = s.poison := rfl
@[simp] theorem modSlot_tlb_field (s : State) (n : Nat) (f : Slot → Slot) : (s.modSlot n f).tlb = s.tlb := rfl
@[simp] theorem modSlot_icache_field (s : State) (n : Nat) (f : Slot → Slot) : (s.modSlot n f).icache = s.icache := rfl
@[simp] theorem modSlot_sc_field (s : State) (n : Nat) (f : Slot → Slot) : (s.modSlot n f).sc = s.sc := rfl
@[simp] theorem modSlot_msgs_field (s : State) (n : Nat) (f : Slot → Slot) : (s.modSlot n f).msgs = s.msgs := rfl
@[simp] theorem modSlot_nextOff_field (s : State) (n : Nat) (f : Slot → Slot) : (s.modSlot n f).nextOff = s.nextOff := rfl
@[simp] theorem modSlot_launches_field (s : State) (n : Nat) (f : Slot → Slot) : (s.modSlot n f).launches = s.launches := rfl
@[simp] theorem modSlot_chains_field (s : State) (n : Nat) (f : Slot → Slot) : (s.modSlot n f).chains = s.chains := rfl
@[simp] theorem modSlot_pre_field (s : State) (n : Nat) (f : Slot → Slot) : (s.modSlot n f).pre = s.pre := rfl
@[simp] theorem modSlot_quantum_field (s : State) (n : Nat) (f : Slot → Slot) : (s.modSlot n f).quantum = s.quantum := rfl
@[simp] theorem modSlot_turn_field (s : State) (n : Nat) (f : Slot → Slot) : (s.modSlot n f).turn = s.turn := rfl
@[simp] theorem modSlot_kept_field (s : State) (n : Nat) (f : Slot → Slot) : (s.modSlot n f).kept = s.kept := rfl
@[simp] theorem modSlot_aims_field (s : State) (n : Nat) (f : Slot → Slot) : (s.modSlot n f).aims = s.aims := rfl
@[simp] theorem modSlot_parked_field (s : State) (n : Nat) (f : Slot → Slot) : (s.modSlot n f).parked = s.parked := rfl
@[simp] theorem modSlot_epochs_field (s : State) (n : Nat) (f : Slot → Slot) : (s.modSlot n f).epochs = s.epochs := rfl
@[simp] theorem modSlot_unitVi_field (s : State) (n : Nat) (f : Slot → Slot) : (s.modSlot n f).unitVi = s.unitVi := rfl
@[simp] theorem modSlot_ports_field (s : State) (n : Nat) (f : Slot → Slot) : (s.modSlot n f).ports = s.ports := rfl
@[simp] theorem modSlot_routes_field (s : State) (n : Nat) (f : Slot → Slot) : (s.modSlot n f).routes = s.routes := rfl
@[simp] theorem modSlot_regns_field (s : State) (n : Nat) (f : Slot → Slot) : (s.modSlot n f).regns = s.regns := rfl
@[simp] theorem modSlot_ingress_field (s : State) (n : Nat) (f : Slot → Slot) : (s.modSlot n f).ingress = s.ingress := rfl
@[simp] theorem modSlot_cache_field (s : State) (n : Nat) (f : Slot → Slot) : (s.modSlot n f).cache = s.cache := rfl
@[simp] theorem modSlot_errs_field (s : State) (n : Nat) (f : Slot → Slot) : (s.modSlot n f).errs = s.errs := rfl
@[simp] theorem modSlot_closing_field (s : State) (n : Nat) (f : Slot → Slot) : (s.modSlot n f).closing = s.closing := rfl
@[simp] theorem modSlot_invq_field (s : State) (n : Nat) (f : Slot → Slot) : (s.modSlot n f).invq = s.invq := rfl
@[simp] theorem modSlot_invdb_field (s : State) (n : Nat) (f : Slot → Slot) : (s.modSlot n f).invdb = s.invdb := rfl
@[simp] theorem modSlot_invack_field (s : State) (n : Nat) (f : Slot → Slot) : (s.modSlot n f).invack = s.invack := rfl
@[simp] theorem modSlot_inverr_field (s : State) (n : Nat) (f : Slot → Slot) : (s.modSlot n f).inverr = s.inverr := rfl
@[simp] theorem modSlot_inval_field (s : State) (n : Nat) (f : Slot → Slot) : (s.modSlot n f).inval = s.inval := rfl
@[simp] theorem modSlot_smsel_field (s : State) (n : Nat) (f : Slot → Slot) : (s.modSlot n f).smsel = s.smsel := rfl
@[simp] theorem modSlot_hostRead_field (s : State) (n : Nat) (f : Slot → Slot) : (s.modSlot n f).hostRead = s.hostRead := rfl
@[simp] theorem modSlot_sendqs_field (s : State) (n : Nat) (f : Slot → Slot) : (s.modSlot n f).sendqs = s.sendqs := rfl
@[simp] theorem modSlot_endpts_field (s : State) (n : Nat) (f : Slot → Slot) : (s.modSlot n f).endpts = s.endpts := rfl
@[simp] theorem modSlot_ueOut_field (s : State) (n : Nat) (f : Slot → Slot) : (s.modSlot n f).ueOut = s.ueOut := rfl
@[simp] theorem modSlot_ueIn_field (s : State) (n : Nat) (f : Slot → Slot) : (s.modSlot n f).ueIn = s.ueIn := rfl
@[simp] theorem modSlot_therm_field (s : State) (n : Nat) (f : Slot → Slot) : (s.modSlot n f).therm = s.therm := rfl
@[simp] theorem modSlot_irqs_field (s : State) (n : Nat) (f : Slot → Slot) : (s.modSlot n f).irqs = s.irqs := rfl
@[simp] theorem modSlot_booted_field (s : State) (n : Nat) (f : Slot → Slot) : (s.modSlot n f).booted = s.booted := rfl
@[simp] theorem modSlot_core_other (s : State) (n : Nat) (f : Slot → Slot) (j : Nat) : (s.modSlot n f).core j = s.core j := rfl
@[simp] theorem modSlot_cluster_other (s : State) (n : Nat) (f : Slot → Slot) (j : Nat) : (s.modSlot n f).cluster j = s.cluster j := rfl
@[simp] theorem modSlot_home_other (s : State) (n : Nat) (f : Slot → Slot) (j : Nat) : (s.modSlot n f).home j = s.home j := rfl
@[simp] theorem modSlot_die_other (s : State) (n : Nat) (f : Slot → Slot) (j : Nat) : (s.modSlot n f).die j = s.die j := rfl
@[simp] theorem modSlot_vif_other (s : State) (n : Nat) (f : Slot → Slot) (j : Nat) : (s.modSlot n f).vif j = s.vif j := rfl
@[simp] theorem modSlot_port_other (s : State) (n : Nat) (f : Slot → Slot) (j : Nat) : (s.modSlot n f).port j = s.port j := rfl
@[simp] theorem modSlot_regn_other (s : State) (n : Nat) (f : Slot → Slot) (j : Nat) : (s.modSlot n f).regn j = s.regn j := rfl
@[simp] theorem modSlot_byte_other (s : State) (n : Nat) (f : Slot → Slot) (j : Nat) : (s.modSlot n f).byte j = s.byte j := rfl

@[simp] theorem modCore_time_field (s : State) (c : Nat) (f : Core → Core) : (s.modCore c f).time = s.time := rfl
@[simp] theorem modCore_node_field (s : State) (c : Nat) (f : Core → Core) : (s.modCore c f).node = s.node := rfl
@[simp] theorem modCore_power_field (s : State) (c : Nat) (f : Core → Core) : (s.modCore c f).power = s.power := rfl
@[simp] theorem modCore_cur_field (s : State) (c : Nat) (f : Core → Core) : (s.modCore c f).cur = s.cur := rfl
@[simp] theorem modCore_agenda_field (s : State) (c : Nat) (f : Core → Core) : (s.modCore c f).agenda = s.agenda := rfl
@[simp] theorem modCore_fresh_field (s : State) (c : Nat) (f : Core → Core) : (s.modCore c f).fresh = s.fresh := rfl
@[simp] theorem modCore_late_field (s : State) (c : Nat) (f : Core → Core) : (s.modCore c f).late = s.late := rfl
@[simp] theorem modCore_hold_field (s : State) (c : Nat) (f : Core → Core) : (s.modCore c f).hold = s.hold := rfl
@[simp] theorem modCore_slots_field (s : State) (c : Nat) (f : Core → Core) : (s.modCore c f).slots = s.slots := rfl
@[simp] theorem modCore_clusters_field (s : State) (c : Nat) (f : Core → Core) : (s.modCore c f).clusters = s.clusters := rfl
@[simp] theorem modCore_homes_field (s : State) (c : Nat) (f : Core → Core) : (s.modCore c f).homes = s.homes := rfl
@[simp] theorem modCore_dies_field (s : State) (c : Nat) (f : Core → Core) : (s.modCore c f).dies = s.dies := rfl
@[simp] theorem modCore_vis_field (s : State) (c : Nat) (f : Core → Core) : (s.modCore c f).vis = s.vis := rfl
@[simp] theorem modCore_mem_field (s : State) (c : Nat) (f : Core → Core) : (s.modCore c f).mem = s.mem := rfl
@[simp] theorem modCore_poison_field (s : State) (c : Nat) (f : Core → Core) : (s.modCore c f).poison = s.poison := rfl
@[simp] theorem modCore_tlb_field (s : State) (c : Nat) (f : Core → Core) : (s.modCore c f).tlb = s.tlb := rfl
@[simp] theorem modCore_icache_field (s : State) (c : Nat) (f : Core → Core) : (s.modCore c f).icache = s.icache := rfl
@[simp] theorem modCore_sc_field (s : State) (c : Nat) (f : Core → Core) : (s.modCore c f).sc = s.sc := rfl
@[simp] theorem modCore_msgs_field (s : State) (c : Nat) (f : Core → Core) : (s.modCore c f).msgs = s.msgs := rfl
@[simp] theorem modCore_nextOff_field (s : State) (c : Nat) (f : Core → Core) : (s.modCore c f).nextOff = s.nextOff := rfl
@[simp] theorem modCore_launches_field (s : State) (c : Nat) (f : Core → Core) : (s.modCore c f).launches = s.launches := rfl
@[simp] theorem modCore_chains_field (s : State) (c : Nat) (f : Core → Core) : (s.modCore c f).chains = s.chains := rfl
@[simp] theorem modCore_pre_field (s : State) (c : Nat) (f : Core → Core) : (s.modCore c f).pre = s.pre := rfl
@[simp] theorem modCore_quantum_field (s : State) (c : Nat) (f : Core → Core) : (s.modCore c f).quantum = s.quantum := rfl
@[simp] theorem modCore_turn_field (s : State) (c : Nat) (f : Core → Core) : (s.modCore c f).turn = s.turn := rfl
@[simp] theorem modCore_kept_field (s : State) (c : Nat) (f : Core → Core) : (s.modCore c f).kept = s.kept := rfl
@[simp] theorem modCore_aims_field (s : State) (c : Nat) (f : Core → Core) : (s.modCore c f).aims = s.aims := rfl
@[simp] theorem modCore_parked_field (s : State) (c : Nat) (f : Core → Core) : (s.modCore c f).parked = s.parked := rfl
@[simp] theorem modCore_epochs_field (s : State) (c : Nat) (f : Core → Core) : (s.modCore c f).epochs = s.epochs := rfl
@[simp] theorem modCore_unitVi_field (s : State) (c : Nat) (f : Core → Core) : (s.modCore c f).unitVi = s.unitVi := rfl
@[simp] theorem modCore_ports_field (s : State) (c : Nat) (f : Core → Core) : (s.modCore c f).ports = s.ports := rfl
@[simp] theorem modCore_routes_field (s : State) (c : Nat) (f : Core → Core) : (s.modCore c f).routes = s.routes := rfl
@[simp] theorem modCore_regns_field (s : State) (c : Nat) (f : Core → Core) : (s.modCore c f).regns = s.regns := rfl
@[simp] theorem modCore_ingress_field (s : State) (c : Nat) (f : Core → Core) : (s.modCore c f).ingress = s.ingress := rfl
@[simp] theorem modCore_cache_field (s : State) (c : Nat) (f : Core → Core) : (s.modCore c f).cache = s.cache := rfl
@[simp] theorem modCore_errs_field (s : State) (c : Nat) (f : Core → Core) : (s.modCore c f).errs = s.errs := rfl
@[simp] theorem modCore_closing_field (s : State) (c : Nat) (f : Core → Core) : (s.modCore c f).closing = s.closing := rfl
@[simp] theorem modCore_invq_field (s : State) (c : Nat) (f : Core → Core) : (s.modCore c f).invq = s.invq := rfl
@[simp] theorem modCore_invdb_field (s : State) (c : Nat) (f : Core → Core) : (s.modCore c f).invdb = s.invdb := rfl
@[simp] theorem modCore_invack_field (s : State) (c : Nat) (f : Core → Core) : (s.modCore c f).invack = s.invack := rfl
@[simp] theorem modCore_inverr_field (s : State) (c : Nat) (f : Core → Core) : (s.modCore c f).inverr = s.inverr := rfl
@[simp] theorem modCore_inval_field (s : State) (c : Nat) (f : Core → Core) : (s.modCore c f).inval = s.inval := rfl
@[simp] theorem modCore_smsel_field (s : State) (c : Nat) (f : Core → Core) : (s.modCore c f).smsel = s.smsel := rfl
@[simp] theorem modCore_hostRead_field (s : State) (c : Nat) (f : Core → Core) : (s.modCore c f).hostRead = s.hostRead := rfl
@[simp] theorem modCore_sendqs_field (s : State) (c : Nat) (f : Core → Core) : (s.modCore c f).sendqs = s.sendqs := rfl
@[simp] theorem modCore_endpts_field (s : State) (c : Nat) (f : Core → Core) : (s.modCore c f).endpts = s.endpts := rfl
@[simp] theorem modCore_ueOut_field (s : State) (c : Nat) (f : Core → Core) : (s.modCore c f).ueOut = s.ueOut := rfl
@[simp] theorem modCore_ueIn_field (s : State) (c : Nat) (f : Core → Core) : (s.modCore c f).ueIn = s.ueIn := rfl
@[simp] theorem modCore_therm_field (s : State) (c : Nat) (f : Core → Core) : (s.modCore c f).therm = s.therm := rfl
@[simp] theorem modCore_irqs_field (s : State) (c : Nat) (f : Core → Core) : (s.modCore c f).irqs = s.irqs := rfl
@[simp] theorem modCore_booted_field (s : State) (c : Nat) (f : Core → Core) : (s.modCore c f).booted = s.booted := rfl
@[simp] theorem modCore_slot_other (s : State) (c : Nat) (f : Core → Core) (j : Nat) : (s.modCore c f).slot j = s.slot j := rfl
@[simp] theorem modCore_cluster_other (s : State) (c : Nat) (f : Core → Core) (j : Nat) : (s.modCore c f).cluster j = s.cluster j := rfl
@[simp] theorem modCore_home_other (s : State) (c : Nat) (f : Core → Core) (j : Nat) : (s.modCore c f).home j = s.home j := rfl
@[simp] theorem modCore_die_other (s : State) (c : Nat) (f : Core → Core) (j : Nat) : (s.modCore c f).die j = s.die j := rfl
@[simp] theorem modCore_vif_other (s : State) (c : Nat) (f : Core → Core) (j : Nat) : (s.modCore c f).vif j = s.vif j := rfl
@[simp] theorem modCore_port_other (s : State) (c : Nat) (f : Core → Core) (j : Nat) : (s.modCore c f).port j = s.port j := rfl
@[simp] theorem modCore_regn_other (s : State) (c : Nat) (f : Core → Core) (j : Nat) : (s.modCore c f).regn j = s.regn j := rfl
@[simp] theorem modCore_byte_other (s : State) (c : Nat) (f : Core → Core) (j : Nat) : (s.modCore c f).byte j = s.byte j := rfl

@[simp] theorem modCluster_time_field (s : State) (p : Nat) (f : Cluster → Cluster) : (s.modCluster p f).time = s.time := rfl
@[simp] theorem modCluster_node_field (s : State) (p : Nat) (f : Cluster → Cluster) : (s.modCluster p f).node = s.node := rfl
@[simp] theorem modCluster_power_field (s : State) (p : Nat) (f : Cluster → Cluster) : (s.modCluster p f).power = s.power := rfl
@[simp] theorem modCluster_cur_field (s : State) (p : Nat) (f : Cluster → Cluster) : (s.modCluster p f).cur = s.cur := rfl
@[simp] theorem modCluster_agenda_field (s : State) (p : Nat) (f : Cluster → Cluster) : (s.modCluster p f).agenda = s.agenda := rfl
@[simp] theorem modCluster_fresh_field (s : State) (p : Nat) (f : Cluster → Cluster) : (s.modCluster p f).fresh = s.fresh := rfl
@[simp] theorem modCluster_late_field (s : State) (p : Nat) (f : Cluster → Cluster) : (s.modCluster p f).late = s.late := rfl
@[simp] theorem modCluster_hold_field (s : State) (p : Nat) (f : Cluster → Cluster) : (s.modCluster p f).hold = s.hold := rfl
@[simp] theorem modCluster_slots_field (s : State) (p : Nat) (f : Cluster → Cluster) : (s.modCluster p f).slots = s.slots := rfl
@[simp] theorem modCluster_cores_field (s : State) (p : Nat) (f : Cluster → Cluster) : (s.modCluster p f).cores = s.cores := rfl
@[simp] theorem modCluster_homes_field (s : State) (p : Nat) (f : Cluster → Cluster) : (s.modCluster p f).homes = s.homes := rfl
@[simp] theorem modCluster_dies_field (s : State) (p : Nat) (f : Cluster → Cluster) : (s.modCluster p f).dies = s.dies := rfl
@[simp] theorem modCluster_vis_field (s : State) (p : Nat) (f : Cluster → Cluster) : (s.modCluster p f).vis = s.vis := rfl
@[simp] theorem modCluster_mem_field (s : State) (p : Nat) (f : Cluster → Cluster) : (s.modCluster p f).mem = s.mem := rfl
@[simp] theorem modCluster_poison_field (s : State) (p : Nat) (f : Cluster → Cluster) : (s.modCluster p f).poison = s.poison := rfl
@[simp] theorem modCluster_tlb_field (s : State) (p : Nat) (f : Cluster → Cluster) : (s.modCluster p f).tlb = s.tlb := rfl
@[simp] theorem modCluster_icache_field (s : State) (p : Nat) (f : Cluster → Cluster) : (s.modCluster p f).icache = s.icache := rfl
@[simp] theorem modCluster_sc_field (s : State) (p : Nat) (f : Cluster → Cluster) : (s.modCluster p f).sc = s.sc := rfl
@[simp] theorem modCluster_msgs_field (s : State) (p : Nat) (f : Cluster → Cluster) : (s.modCluster p f).msgs = s.msgs := rfl
@[simp] theorem modCluster_nextOff_field (s : State) (p : Nat) (f : Cluster → Cluster) : (s.modCluster p f).nextOff = s.nextOff := rfl
@[simp] theorem modCluster_launches_field (s : State) (p : Nat) (f : Cluster → Cluster) : (s.modCluster p f).launches = s.launches := rfl
@[simp] theorem modCluster_chains_field (s : State) (p : Nat) (f : Cluster → Cluster) : (s.modCluster p f).chains = s.chains := rfl
@[simp] theorem modCluster_pre_field (s : State) (p : Nat) (f : Cluster → Cluster) : (s.modCluster p f).pre = s.pre := rfl
@[simp] theorem modCluster_quantum_field (s : State) (p : Nat) (f : Cluster → Cluster) : (s.modCluster p f).quantum = s.quantum := rfl
@[simp] theorem modCluster_turn_field (s : State) (p : Nat) (f : Cluster → Cluster) : (s.modCluster p f).turn = s.turn := rfl
@[simp] theorem modCluster_kept_field (s : State) (p : Nat) (f : Cluster → Cluster) : (s.modCluster p f).kept = s.kept := rfl
@[simp] theorem modCluster_aims_field (s : State) (p : Nat) (f : Cluster → Cluster) : (s.modCluster p f).aims = s.aims := rfl
@[simp] theorem modCluster_parked_field (s : State) (p : Nat) (f : Cluster → Cluster) : (s.modCluster p f).parked = s.parked := rfl
@[simp] theorem modCluster_epochs_field (s : State) (p : Nat) (f : Cluster → Cluster) : (s.modCluster p f).epochs = s.epochs := rfl
@[simp] theorem modCluster_unitVi_field (s : State) (p : Nat) (f : Cluster → Cluster) : (s.modCluster p f).unitVi = s.unitVi := rfl
@[simp] theorem modCluster_ports_field (s : State) (p : Nat) (f : Cluster → Cluster) : (s.modCluster p f).ports = s.ports := rfl
@[simp] theorem modCluster_routes_field (s : State) (p : Nat) (f : Cluster → Cluster) : (s.modCluster p f).routes = s.routes := rfl
@[simp] theorem modCluster_regns_field (s : State) (p : Nat) (f : Cluster → Cluster) : (s.modCluster p f).regns = s.regns := rfl
@[simp] theorem modCluster_ingress_field (s : State) (p : Nat) (f : Cluster → Cluster) : (s.modCluster p f).ingress = s.ingress := rfl
@[simp] theorem modCluster_cache_field (s : State) (p : Nat) (f : Cluster → Cluster) : (s.modCluster p f).cache = s.cache := rfl
@[simp] theorem modCluster_errs_field (s : State) (p : Nat) (f : Cluster → Cluster) : (s.modCluster p f).errs = s.errs := rfl
@[simp] theorem modCluster_closing_field (s : State) (p : Nat) (f : Cluster → Cluster) : (s.modCluster p f).closing = s.closing := rfl
@[simp] theorem modCluster_invq_field (s : State) (p : Nat) (f : Cluster → Cluster) : (s.modCluster p f).invq = s.invq := rfl
@[simp] theorem modCluster_invdb_field (s : State) (p : Nat) (f : Cluster → Cluster) : (s.modCluster p f).invdb = s.invdb := rfl
@[simp] theorem modCluster_invack_field (s : State) (p : Nat) (f : Cluster → Cluster) : (s.modCluster p f).invack = s.invack := rfl
@[simp] theorem modCluster_inverr_field (s : State) (p : Nat) (f : Cluster → Cluster) : (s.modCluster p f).inverr = s.inverr := rfl
@[simp] theorem modCluster_inval_field (s : State) (p : Nat) (f : Cluster → Cluster) : (s.modCluster p f).inval = s.inval := rfl
@[simp] theorem modCluster_smsel_field (s : State) (p : Nat) (f : Cluster → Cluster) : (s.modCluster p f).smsel = s.smsel := rfl
@[simp] theorem modCluster_hostRead_field (s : State) (p : Nat) (f : Cluster → Cluster) : (s.modCluster p f).hostRead = s.hostRead := rfl
@[simp] theorem modCluster_sendqs_field (s : State) (p : Nat) (f : Cluster → Cluster) : (s.modCluster p f).sendqs = s.sendqs := rfl
@[simp] theorem modCluster_endpts_field (s : State) (p : Nat) (f : Cluster → Cluster) : (s.modCluster p f).endpts = s.endpts := rfl
@[simp] theorem modCluster_ueOut_field (s : State) (p : Nat) (f : Cluster → Cluster) : (s.modCluster p f).ueOut = s.ueOut := rfl
@[simp] theorem modCluster_ueIn_field (s : State) (p : Nat) (f : Cluster → Cluster) : (s.modCluster p f).ueIn = s.ueIn := rfl
@[simp] theorem modCluster_therm_field (s : State) (p : Nat) (f : Cluster → Cluster) : (s.modCluster p f).therm = s.therm := rfl
@[simp] theorem modCluster_irqs_field (s : State) (p : Nat) (f : Cluster → Cluster) : (s.modCluster p f).irqs = s.irqs := rfl
@[simp] theorem modCluster_booted_field (s : State) (p : Nat) (f : Cluster → Cluster) : (s.modCluster p f).booted = s.booted := rfl
@[simp] theorem modCluster_slot_other (s : State) (p : Nat) (f : Cluster → Cluster) (j : Nat) : (s.modCluster p f).slot j = s.slot j := rfl
@[simp] theorem modCluster_core_other (s : State) (p : Nat) (f : Cluster → Cluster) (j : Nat) : (s.modCluster p f).core j = s.core j := rfl
@[simp] theorem modCluster_home_other (s : State) (p : Nat) (f : Cluster → Cluster) (j : Nat) : (s.modCluster p f).home j = s.home j := rfl
@[simp] theorem modCluster_die_other (s : State) (p : Nat) (f : Cluster → Cluster) (j : Nat) : (s.modCluster p f).die j = s.die j := rfl
@[simp] theorem modCluster_vif_other (s : State) (p : Nat) (f : Cluster → Cluster) (j : Nat) : (s.modCluster p f).vif j = s.vif j := rfl
@[simp] theorem modCluster_port_other (s : State) (p : Nat) (f : Cluster → Cluster) (j : Nat) : (s.modCluster p f).port j = s.port j := rfl
@[simp] theorem modCluster_regn_other (s : State) (p : Nat) (f : Cluster → Cluster) (j : Nat) : (s.modCluster p f).regn j = s.regn j := rfl
@[simp] theorem modCluster_byte_other (s : State) (p : Nat) (f : Cluster → Cluster) (j : Nat) : (s.modCluster p f).byte j = s.byte j := rfl

@[simp] theorem modHome_time_field (s : State) (h : Nat) (f : Resolver → Resolver) : (s.modHome h f).time = s.time := rfl
@[simp] theorem modHome_node_field (s : State) (h : Nat) (f : Resolver → Resolver) : (s.modHome h f).node = s.node := rfl
@[simp] theorem modHome_power_field (s : State) (h : Nat) (f : Resolver → Resolver) : (s.modHome h f).power = s.power := rfl
@[simp] theorem modHome_cur_field (s : State) (h : Nat) (f : Resolver → Resolver) : (s.modHome h f).cur = s.cur := rfl
@[simp] theorem modHome_agenda_field (s : State) (h : Nat) (f : Resolver → Resolver) : (s.modHome h f).agenda = s.agenda := rfl
@[simp] theorem modHome_fresh_field (s : State) (h : Nat) (f : Resolver → Resolver) : (s.modHome h f).fresh = s.fresh := rfl
@[simp] theorem modHome_late_field (s : State) (h : Nat) (f : Resolver → Resolver) : (s.modHome h f).late = s.late := rfl
@[simp] theorem modHome_hold_field (s : State) (h : Nat) (f : Resolver → Resolver) : (s.modHome h f).hold = s.hold := rfl
@[simp] theorem modHome_slots_field (s : State) (h : Nat) (f : Resolver → Resolver) : (s.modHome h f).slots = s.slots := rfl
@[simp] theorem modHome_cores_field (s : State) (h : Nat) (f : Resolver → Resolver) : (s.modHome h f).cores = s.cores := rfl
@[simp] theorem modHome_clusters_field (s : State) (h : Nat) (f : Resolver → Resolver) : (s.modHome h f).clusters = s.clusters := rfl
@[simp] theorem modHome_dies_field (s : State) (h : Nat) (f : Resolver → Resolver) : (s.modHome h f).dies = s.dies := rfl
@[simp] theorem modHome_vis_field (s : State) (h : Nat) (f : Resolver → Resolver) : (s.modHome h f).vis = s.vis := rfl
@[simp] theorem modHome_mem_field (s : State) (h : Nat) (f : Resolver → Resolver) : (s.modHome h f).mem = s.mem := rfl
@[simp] theorem modHome_poison_field (s : State) (h : Nat) (f : Resolver → Resolver) : (s.modHome h f).poison = s.poison := rfl
@[simp] theorem modHome_tlb_field (s : State) (h : Nat) (f : Resolver → Resolver) : (s.modHome h f).tlb = s.tlb := rfl
@[simp] theorem modHome_icache_field (s : State) (h : Nat) (f : Resolver → Resolver) : (s.modHome h f).icache = s.icache := rfl
@[simp] theorem modHome_sc_field (s : State) (h : Nat) (f : Resolver → Resolver) : (s.modHome h f).sc = s.sc := rfl
@[simp] theorem modHome_msgs_field (s : State) (h : Nat) (f : Resolver → Resolver) : (s.modHome h f).msgs = s.msgs := rfl
@[simp] theorem modHome_nextOff_field (s : State) (h : Nat) (f : Resolver → Resolver) : (s.modHome h f).nextOff = s.nextOff := rfl
@[simp] theorem modHome_launches_field (s : State) (h : Nat) (f : Resolver → Resolver) : (s.modHome h f).launches = s.launches := rfl
@[simp] theorem modHome_chains_field (s : State) (h : Nat) (f : Resolver → Resolver) : (s.modHome h f).chains = s.chains := rfl
@[simp] theorem modHome_pre_field (s : State) (h : Nat) (f : Resolver → Resolver) : (s.modHome h f).pre = s.pre := rfl
@[simp] theorem modHome_quantum_field (s : State) (h : Nat) (f : Resolver → Resolver) : (s.modHome h f).quantum = s.quantum := rfl
@[simp] theorem modHome_turn_field (s : State) (h : Nat) (f : Resolver → Resolver) : (s.modHome h f).turn = s.turn := rfl
@[simp] theorem modHome_kept_field (s : State) (h : Nat) (f : Resolver → Resolver) : (s.modHome h f).kept = s.kept := rfl
@[simp] theorem modHome_aims_field (s : State) (h : Nat) (f : Resolver → Resolver) : (s.modHome h f).aims = s.aims := rfl
@[simp] theorem modHome_parked_field (s : State) (h : Nat) (f : Resolver → Resolver) : (s.modHome h f).parked = s.parked := rfl
@[simp] theorem modHome_epochs_field (s : State) (h : Nat) (f : Resolver → Resolver) : (s.modHome h f).epochs = s.epochs := rfl
@[simp] theorem modHome_unitVi_field (s : State) (h : Nat) (f : Resolver → Resolver) : (s.modHome h f).unitVi = s.unitVi := rfl
@[simp] theorem modHome_ports_field (s : State) (h : Nat) (f : Resolver → Resolver) : (s.modHome h f).ports = s.ports := rfl
@[simp] theorem modHome_routes_field (s : State) (h : Nat) (f : Resolver → Resolver) : (s.modHome h f).routes = s.routes := rfl
@[simp] theorem modHome_regns_field (s : State) (h : Nat) (f : Resolver → Resolver) : (s.modHome h f).regns = s.regns := rfl
@[simp] theorem modHome_ingress_field (s : State) (h : Nat) (f : Resolver → Resolver) : (s.modHome h f).ingress = s.ingress := rfl
@[simp] theorem modHome_cache_field (s : State) (h : Nat) (f : Resolver → Resolver) : (s.modHome h f).cache = s.cache := rfl
@[simp] theorem modHome_errs_field (s : State) (h : Nat) (f : Resolver → Resolver) : (s.modHome h f).errs = s.errs := rfl
@[simp] theorem modHome_closing_field (s : State) (h : Nat) (f : Resolver → Resolver) : (s.modHome h f).closing = s.closing := rfl
@[simp] theorem modHome_invq_field (s : State) (h : Nat) (f : Resolver → Resolver) : (s.modHome h f).invq = s.invq := rfl
@[simp] theorem modHome_invdb_field (s : State) (h : Nat) (f : Resolver → Resolver) : (s.modHome h f).invdb = s.invdb := rfl
@[simp] theorem modHome_invack_field (s : State) (h : Nat) (f : Resolver → Resolver) : (s.modHome h f).invack = s.invack := rfl
@[simp] theorem modHome_inverr_field (s : State) (h : Nat) (f : Resolver → Resolver) : (s.modHome h f).inverr = s.inverr := rfl
@[simp] theorem modHome_inval_field (s : State) (h : Nat) (f : Resolver → Resolver) : (s.modHome h f).inval = s.inval := rfl
@[simp] theorem modHome_smsel_field (s : State) (h : Nat) (f : Resolver → Resolver) : (s.modHome h f).smsel = s.smsel := rfl
@[simp] theorem modHome_hostRead_field (s : State) (h : Nat) (f : Resolver → Resolver) : (s.modHome h f).hostRead = s.hostRead := rfl
@[simp] theorem modHome_sendqs_field (s : State) (h : Nat) (f : Resolver → Resolver) : (s.modHome h f).sendqs = s.sendqs := rfl
@[simp] theorem modHome_endpts_field (s : State) (h : Nat) (f : Resolver → Resolver) : (s.modHome h f).endpts = s.endpts := rfl
@[simp] theorem modHome_ueOut_field (s : State) (h : Nat) (f : Resolver → Resolver) : (s.modHome h f).ueOut = s.ueOut := rfl
@[simp] theorem modHome_ueIn_field (s : State) (h : Nat) (f : Resolver → Resolver) : (s.modHome h f).ueIn = s.ueIn := rfl
@[simp] theorem modHome_therm_field (s : State) (h : Nat) (f : Resolver → Resolver) : (s.modHome h f).therm = s.therm := rfl
@[simp] theorem modHome_irqs_field (s : State) (h : Nat) (f : Resolver → Resolver) : (s.modHome h f).irqs = s.irqs := rfl
@[simp] theorem modHome_booted_field (s : State) (h : Nat) (f : Resolver → Resolver) : (s.modHome h f).booted = s.booted := rfl
@[simp] theorem modHome_slot_other (s : State) (h : Nat) (f : Resolver → Resolver) (j : Nat) : (s.modHome h f).slot j = s.slot j := rfl
@[simp] theorem modHome_core_other (s : State) (h : Nat) (f : Resolver → Resolver) (j : Nat) : (s.modHome h f).core j = s.core j := rfl
@[simp] theorem modHome_cluster_other (s : State) (h : Nat) (f : Resolver → Resolver) (j : Nat) : (s.modHome h f).cluster j = s.cluster j := rfl
@[simp] theorem modHome_die_other (s : State) (h : Nat) (f : Resolver → Resolver) (j : Nat) : (s.modHome h f).die j = s.die j := rfl
@[simp] theorem modHome_vif_other (s : State) (h : Nat) (f : Resolver → Resolver) (j : Nat) : (s.modHome h f).vif j = s.vif j := rfl
@[simp] theorem modHome_port_other (s : State) (h : Nat) (f : Resolver → Resolver) (j : Nat) : (s.modHome h f).port j = s.port j := rfl
@[simp] theorem modHome_regn_other (s : State) (h : Nat) (f : Resolver → Resolver) (j : Nat) : (s.modHome h f).regn j = s.regn j := rfl
@[simp] theorem modHome_byte_other (s : State) (h : Nat) (f : Resolver → Resolver) (j : Nat) : (s.modHome h f).byte j = s.byte j := rfl

@[simp] theorem modDie_time_field (s : State) (d : Nat) (f : Die → Die) : (s.modDie d f).time = s.time := rfl
@[simp] theorem modDie_node_field (s : State) (d : Nat) (f : Die → Die) : (s.modDie d f).node = s.node := rfl
@[simp] theorem modDie_power_field (s : State) (d : Nat) (f : Die → Die) : (s.modDie d f).power = s.power := rfl
@[simp] theorem modDie_cur_field (s : State) (d : Nat) (f : Die → Die) : (s.modDie d f).cur = s.cur := rfl
@[simp] theorem modDie_agenda_field (s : State) (d : Nat) (f : Die → Die) : (s.modDie d f).agenda = s.agenda := rfl
@[simp] theorem modDie_fresh_field (s : State) (d : Nat) (f : Die → Die) : (s.modDie d f).fresh = s.fresh := rfl
@[simp] theorem modDie_late_field (s : State) (d : Nat) (f : Die → Die) : (s.modDie d f).late = s.late := rfl
@[simp] theorem modDie_hold_field (s : State) (d : Nat) (f : Die → Die) : (s.modDie d f).hold = s.hold := rfl
@[simp] theorem modDie_slots_field (s : State) (d : Nat) (f : Die → Die) : (s.modDie d f).slots = s.slots := rfl
@[simp] theorem modDie_cores_field (s : State) (d : Nat) (f : Die → Die) : (s.modDie d f).cores = s.cores := rfl
@[simp] theorem modDie_clusters_field (s : State) (d : Nat) (f : Die → Die) : (s.modDie d f).clusters = s.clusters := rfl
@[simp] theorem modDie_homes_field (s : State) (d : Nat) (f : Die → Die) : (s.modDie d f).homes = s.homes := rfl
@[simp] theorem modDie_vis_field (s : State) (d : Nat) (f : Die → Die) : (s.modDie d f).vis = s.vis := rfl
@[simp] theorem modDie_mem_field (s : State) (d : Nat) (f : Die → Die) : (s.modDie d f).mem = s.mem := rfl
@[simp] theorem modDie_poison_field (s : State) (d : Nat) (f : Die → Die) : (s.modDie d f).poison = s.poison := rfl
@[simp] theorem modDie_tlb_field (s : State) (d : Nat) (f : Die → Die) : (s.modDie d f).tlb = s.tlb := rfl
@[simp] theorem modDie_icache_field (s : State) (d : Nat) (f : Die → Die) : (s.modDie d f).icache = s.icache := rfl
@[simp] theorem modDie_sc_field (s : State) (d : Nat) (f : Die → Die) : (s.modDie d f).sc = s.sc := rfl
@[simp] theorem modDie_msgs_field (s : State) (d : Nat) (f : Die → Die) : (s.modDie d f).msgs = s.msgs := rfl
@[simp] theorem modDie_nextOff_field (s : State) (d : Nat) (f : Die → Die) : (s.modDie d f).nextOff = s.nextOff := rfl
@[simp] theorem modDie_launches_field (s : State) (d : Nat) (f : Die → Die) : (s.modDie d f).launches = s.launches := rfl
@[simp] theorem modDie_chains_field (s : State) (d : Nat) (f : Die → Die) : (s.modDie d f).chains = s.chains := rfl
@[simp] theorem modDie_pre_field (s : State) (d : Nat) (f : Die → Die) : (s.modDie d f).pre = s.pre := rfl
@[simp] theorem modDie_quantum_field (s : State) (d : Nat) (f : Die → Die) : (s.modDie d f).quantum = s.quantum := rfl
@[simp] theorem modDie_turn_field (s : State) (d : Nat) (f : Die → Die) : (s.modDie d f).turn = s.turn := rfl
@[simp] theorem modDie_kept_field (s : State) (d : Nat) (f : Die → Die) : (s.modDie d f).kept = s.kept := rfl
@[simp] theorem modDie_aims_field (s : State) (d : Nat) (f : Die → Die) : (s.modDie d f).aims = s.aims := rfl
@[simp] theorem modDie_parked_field (s : State) (d : Nat) (f : Die → Die) : (s.modDie d f).parked = s.parked := rfl
@[simp] theorem modDie_epochs_field (s : State) (d : Nat) (f : Die → Die) : (s.modDie d f).epochs = s.epochs := rfl
@[simp] theorem modDie_unitVi_field (s : State) (d : Nat) (f : Die → Die) : (s.modDie d f).unitVi = s.unitVi := rfl
@[simp] theorem modDie_ports_field (s : State) (d : Nat) (f : Die → Die) : (s.modDie d f).ports = s.ports := rfl
@[simp] theorem modDie_routes_field (s : State) (d : Nat) (f : Die → Die) : (s.modDie d f).routes = s.routes := rfl
@[simp] theorem modDie_regns_field (s : State) (d : Nat) (f : Die → Die) : (s.modDie d f).regns = s.regns := rfl
@[simp] theorem modDie_ingress_field (s : State) (d : Nat) (f : Die → Die) : (s.modDie d f).ingress = s.ingress := rfl
@[simp] theorem modDie_cache_field (s : State) (d : Nat) (f : Die → Die) : (s.modDie d f).cache = s.cache := rfl
@[simp] theorem modDie_errs_field (s : State) (d : Nat) (f : Die → Die) : (s.modDie d f).errs = s.errs := rfl
@[simp] theorem modDie_closing_field (s : State) (d : Nat) (f : Die → Die) : (s.modDie d f).closing = s.closing := rfl
@[simp] theorem modDie_invq_field (s : State) (d : Nat) (f : Die → Die) : (s.modDie d f).invq = s.invq := rfl
@[simp] theorem modDie_invdb_field (s : State) (d : Nat) (f : Die → Die) : (s.modDie d f).invdb = s.invdb := rfl
@[simp] theorem modDie_invack_field (s : State) (d : Nat) (f : Die → Die) : (s.modDie d f).invack = s.invack := rfl
@[simp] theorem modDie_inverr_field (s : State) (d : Nat) (f : Die → Die) : (s.modDie d f).inverr = s.inverr := rfl
@[simp] theorem modDie_inval_field (s : State) (d : Nat) (f : Die → Die) : (s.modDie d f).inval = s.inval := rfl
@[simp] theorem modDie_smsel_field (s : State) (d : Nat) (f : Die → Die) : (s.modDie d f).smsel = s.smsel := rfl
@[simp] theorem modDie_hostRead_field (s : State) (d : Nat) (f : Die → Die) : (s.modDie d f).hostRead = s.hostRead := rfl
@[simp] theorem modDie_sendqs_field (s : State) (d : Nat) (f : Die → Die) : (s.modDie d f).sendqs = s.sendqs := rfl
@[simp] theorem modDie_endpts_field (s : State) (d : Nat) (f : Die → Die) : (s.modDie d f).endpts = s.endpts := rfl
@[simp] theorem modDie_ueOut_field (s : State) (d : Nat) (f : Die → Die) : (s.modDie d f).ueOut = s.ueOut := rfl
@[simp] theorem modDie_ueIn_field (s : State) (d : Nat) (f : Die → Die) : (s.modDie d f).ueIn = s.ueIn := rfl
@[simp] theorem modDie_therm_field (s : State) (d : Nat) (f : Die → Die) : (s.modDie d f).therm = s.therm := rfl
@[simp] theorem modDie_irqs_field (s : State) (d : Nat) (f : Die → Die) : (s.modDie d f).irqs = s.irqs := rfl
@[simp] theorem modDie_booted_field (s : State) (d : Nat) (f : Die → Die) : (s.modDie d f).booted = s.booted := rfl
@[simp] theorem modDie_slot_other (s : State) (d : Nat) (f : Die → Die) (j : Nat) : (s.modDie d f).slot j = s.slot j := rfl
@[simp] theorem modDie_core_other (s : State) (d : Nat) (f : Die → Die) (j : Nat) : (s.modDie d f).core j = s.core j := rfl
@[simp] theorem modDie_cluster_other (s : State) (d : Nat) (f : Die → Die) (j : Nat) : (s.modDie d f).cluster j = s.cluster j := rfl
@[simp] theorem modDie_home_other (s : State) (d : Nat) (f : Die → Die) (j : Nat) : (s.modDie d f).home j = s.home j := rfl
@[simp] theorem modDie_vif_other (s : State) (d : Nat) (f : Die → Die) (j : Nat) : (s.modDie d f).vif j = s.vif j := rfl
@[simp] theorem modDie_port_other (s : State) (d : Nat) (f : Die → Die) (j : Nat) : (s.modDie d f).port j = s.port j := rfl
@[simp] theorem modDie_regn_other (s : State) (d : Nat) (f : Die → Die) (j : Nat) : (s.modDie d f).regn j = s.regn j := rfl
@[simp] theorem modDie_byte_other (s : State) (d : Nat) (f : Die → Die) (j : Nat) : (s.modDie d f).byte j = s.byte j := rfl

@[simp] theorem modVi_time_field (s : State) (v : Nat) (f : Vi → Vi) : (s.modVi v f).time = s.time := rfl
@[simp] theorem modVi_node_field (s : State) (v : Nat) (f : Vi → Vi) : (s.modVi v f).node = s.node := rfl
@[simp] theorem modVi_power_field (s : State) (v : Nat) (f : Vi → Vi) : (s.modVi v f).power = s.power := rfl
@[simp] theorem modVi_cur_field (s : State) (v : Nat) (f : Vi → Vi) : (s.modVi v f).cur = s.cur := rfl
@[simp] theorem modVi_agenda_field (s : State) (v : Nat) (f : Vi → Vi) : (s.modVi v f).agenda = s.agenda := rfl
@[simp] theorem modVi_fresh_field (s : State) (v : Nat) (f : Vi → Vi) : (s.modVi v f).fresh = s.fresh := rfl
@[simp] theorem modVi_late_field (s : State) (v : Nat) (f : Vi → Vi) : (s.modVi v f).late = s.late := rfl
@[simp] theorem modVi_hold_field (s : State) (v : Nat) (f : Vi → Vi) : (s.modVi v f).hold = s.hold := rfl
@[simp] theorem modVi_slots_field (s : State) (v : Nat) (f : Vi → Vi) : (s.modVi v f).slots = s.slots := rfl
@[simp] theorem modVi_cores_field (s : State) (v : Nat) (f : Vi → Vi) : (s.modVi v f).cores = s.cores := rfl
@[simp] theorem modVi_clusters_field (s : State) (v : Nat) (f : Vi → Vi) : (s.modVi v f).clusters = s.clusters := rfl
@[simp] theorem modVi_homes_field (s : State) (v : Nat) (f : Vi → Vi) : (s.modVi v f).homes = s.homes := rfl
@[simp] theorem modVi_dies_field (s : State) (v : Nat) (f : Vi → Vi) : (s.modVi v f).dies = s.dies := rfl
@[simp] theorem modVi_mem_field (s : State) (v : Nat) (f : Vi → Vi) : (s.modVi v f).mem = s.mem := rfl
@[simp] theorem modVi_poison_field (s : State) (v : Nat) (f : Vi → Vi) : (s.modVi v f).poison = s.poison := rfl
@[simp] theorem modVi_tlb_field (s : State) (v : Nat) (f : Vi → Vi) : (s.modVi v f).tlb = s.tlb := rfl
@[simp] theorem modVi_icache_field (s : State) (v : Nat) (f : Vi → Vi) : (s.modVi v f).icache = s.icache := rfl
@[simp] theorem modVi_sc_field (s : State) (v : Nat) (f : Vi → Vi) : (s.modVi v f).sc = s.sc := rfl
@[simp] theorem modVi_msgs_field (s : State) (v : Nat) (f : Vi → Vi) : (s.modVi v f).msgs = s.msgs := rfl
@[simp] theorem modVi_nextOff_field (s : State) (v : Nat) (f : Vi → Vi) : (s.modVi v f).nextOff = s.nextOff := rfl
@[simp] theorem modVi_launches_field (s : State) (v : Nat) (f : Vi → Vi) : (s.modVi v f).launches = s.launches := rfl
@[simp] theorem modVi_chains_field (s : State) (v : Nat) (f : Vi → Vi) : (s.modVi v f).chains = s.chains := rfl
@[simp] theorem modVi_pre_field (s : State) (v : Nat) (f : Vi → Vi) : (s.modVi v f).pre = s.pre := rfl
@[simp] theorem modVi_quantum_field (s : State) (v : Nat) (f : Vi → Vi) : (s.modVi v f).quantum = s.quantum := rfl
@[simp] theorem modVi_turn_field (s : State) (v : Nat) (f : Vi → Vi) : (s.modVi v f).turn = s.turn := rfl
@[simp] theorem modVi_kept_field (s : State) (v : Nat) (f : Vi → Vi) : (s.modVi v f).kept = s.kept := rfl
@[simp] theorem modVi_aims_field (s : State) (v : Nat) (f : Vi → Vi) : (s.modVi v f).aims = s.aims := rfl
@[simp] theorem modVi_parked_field (s : State) (v : Nat) (f : Vi → Vi) : (s.modVi v f).parked = s.parked := rfl
@[simp] theorem modVi_epochs_field (s : State) (v : Nat) (f : Vi → Vi) : (s.modVi v f).epochs = s.epochs := rfl
@[simp] theorem modVi_unitVi_field (s : State) (v : Nat) (f : Vi → Vi) : (s.modVi v f).unitVi = s.unitVi := rfl
@[simp] theorem modVi_ports_field (s : State) (v : Nat) (f : Vi → Vi) : (s.modVi v f).ports = s.ports := rfl
@[simp] theorem modVi_routes_field (s : State) (v : Nat) (f : Vi → Vi) : (s.modVi v f).routes = s.routes := rfl
@[simp] theorem modVi_regns_field (s : State) (v : Nat) (f : Vi → Vi) : (s.modVi v f).regns = s.regns := rfl
@[simp] theorem modVi_ingress_field (s : State) (v : Nat) (f : Vi → Vi) : (s.modVi v f).ingress = s.ingress := rfl
@[simp] theorem modVi_cache_field (s : State) (v : Nat) (f : Vi → Vi) : (s.modVi v f).cache = s.cache := rfl
@[simp] theorem modVi_errs_field (s : State) (v : Nat) (f : Vi → Vi) : (s.modVi v f).errs = s.errs := rfl
@[simp] theorem modVi_closing_field (s : State) (v : Nat) (f : Vi → Vi) : (s.modVi v f).closing = s.closing := rfl
@[simp] theorem modVi_invq_field (s : State) (v : Nat) (f : Vi → Vi) : (s.modVi v f).invq = s.invq := rfl
@[simp] theorem modVi_invdb_field (s : State) (v : Nat) (f : Vi → Vi) : (s.modVi v f).invdb = s.invdb := rfl
@[simp] theorem modVi_invack_field (s : State) (v : Nat) (f : Vi → Vi) : (s.modVi v f).invack = s.invack := rfl
@[simp] theorem modVi_inverr_field (s : State) (v : Nat) (f : Vi → Vi) : (s.modVi v f).inverr = s.inverr := rfl
@[simp] theorem modVi_inval_field (s : State) (v : Nat) (f : Vi → Vi) : (s.modVi v f).inval = s.inval := rfl
@[simp] theorem modVi_smsel_field (s : State) (v : Nat) (f : Vi → Vi) : (s.modVi v f).smsel = s.smsel := rfl
@[simp] theorem modVi_hostRead_field (s : State) (v : Nat) (f : Vi → Vi) : (s.modVi v f).hostRead = s.hostRead := rfl
@[simp] theorem modVi_sendqs_field (s : State) (v : Nat) (f : Vi → Vi) : (s.modVi v f).sendqs = s.sendqs := rfl
@[simp] theorem modVi_endpts_field (s : State) (v : Nat) (f : Vi → Vi) : (s.modVi v f).endpts = s.endpts := rfl
@[simp] theorem modVi_ueOut_field (s : State) (v : Nat) (f : Vi → Vi) : (s.modVi v f).ueOut = s.ueOut := rfl
@[simp] theorem modVi_ueIn_field (s : State) (v : Nat) (f : Vi → Vi) : (s.modVi v f).ueIn = s.ueIn := rfl
@[simp] theorem modVi_therm_field (s : State) (v : Nat) (f : Vi → Vi) : (s.modVi v f).therm = s.therm := rfl
@[simp] theorem modVi_irqs_field (s : State) (v : Nat) (f : Vi → Vi) : (s.modVi v f).irqs = s.irqs := rfl
@[simp] theorem modVi_booted_field (s : State) (v : Nat) (f : Vi → Vi) : (s.modVi v f).booted = s.booted := rfl
@[simp] theorem modVi_slot_other (s : State) (v : Nat) (f : Vi → Vi) (j : Nat) : (s.modVi v f).slot j = s.slot j := rfl
@[simp] theorem modVi_core_other (s : State) (v : Nat) (f : Vi → Vi) (j : Nat) : (s.modVi v f).core j = s.core j := rfl
@[simp] theorem modVi_cluster_other (s : State) (v : Nat) (f : Vi → Vi) (j : Nat) : (s.modVi v f).cluster j = s.cluster j := rfl
@[simp] theorem modVi_home_other (s : State) (v : Nat) (f : Vi → Vi) (j : Nat) : (s.modVi v f).home j = s.home j := rfl
@[simp] theorem modVi_die_other (s : State) (v : Nat) (f : Vi → Vi) (j : Nat) : (s.modVi v f).die j = s.die j := rfl
@[simp] theorem modVi_port_other (s : State) (v : Nat) (f : Vi → Vi) (j : Nat) : (s.modVi v f).port j = s.port j := rfl
@[simp] theorem modVi_regn_other (s : State) (v : Nat) (f : Vi → Vi) (j : Nat) : (s.modVi v f).regn j = s.regn j := rfl
@[simp] theorem modVi_byte_other (s : State) (v : Nat) (f : Vi → Vi) (j : Nat) : (s.modVi v f).byte j = s.byte j := rfl

@[simp] theorem modPort_time_field (s : State) (p : Nat) (f : Port → Port) : (s.modPort p f).time = s.time := rfl
@[simp] theorem modPort_node_field (s : State) (p : Nat) (f : Port → Port) : (s.modPort p f).node = s.node := rfl
@[simp] theorem modPort_power_field (s : State) (p : Nat) (f : Port → Port) : (s.modPort p f).power = s.power := rfl
@[simp] theorem modPort_cur_field (s : State) (p : Nat) (f : Port → Port) : (s.modPort p f).cur = s.cur := rfl
@[simp] theorem modPort_agenda_field (s : State) (p : Nat) (f : Port → Port) : (s.modPort p f).agenda = s.agenda := rfl
@[simp] theorem modPort_fresh_field (s : State) (p : Nat) (f : Port → Port) : (s.modPort p f).fresh = s.fresh := rfl
@[simp] theorem modPort_late_field (s : State) (p : Nat) (f : Port → Port) : (s.modPort p f).late = s.late := rfl
@[simp] theorem modPort_hold_field (s : State) (p : Nat) (f : Port → Port) : (s.modPort p f).hold = s.hold := rfl
@[simp] theorem modPort_slots_field (s : State) (p : Nat) (f : Port → Port) : (s.modPort p f).slots = s.slots := rfl
@[simp] theorem modPort_cores_field (s : State) (p : Nat) (f : Port → Port) : (s.modPort p f).cores = s.cores := rfl
@[simp] theorem modPort_clusters_field (s : State) (p : Nat) (f : Port → Port) : (s.modPort p f).clusters = s.clusters := rfl
@[simp] theorem modPort_homes_field (s : State) (p : Nat) (f : Port → Port) : (s.modPort p f).homes = s.homes := rfl
@[simp] theorem modPort_dies_field (s : State) (p : Nat) (f : Port → Port) : (s.modPort p f).dies = s.dies := rfl
@[simp] theorem modPort_vis_field (s : State) (p : Nat) (f : Port → Port) : (s.modPort p f).vis = s.vis := rfl
@[simp] theorem modPort_mem_field (s : State) (p : Nat) (f : Port → Port) : (s.modPort p f).mem = s.mem := rfl
@[simp] theorem modPort_poison_field (s : State) (p : Nat) (f : Port → Port) : (s.modPort p f).poison = s.poison := rfl
@[simp] theorem modPort_tlb_field (s : State) (p : Nat) (f : Port → Port) : (s.modPort p f).tlb = s.tlb := rfl
@[simp] theorem modPort_icache_field (s : State) (p : Nat) (f : Port → Port) : (s.modPort p f).icache = s.icache := rfl
@[simp] theorem modPort_sc_field (s : State) (p : Nat) (f : Port → Port) : (s.modPort p f).sc = s.sc := rfl
@[simp] theorem modPort_msgs_field (s : State) (p : Nat) (f : Port → Port) : (s.modPort p f).msgs = s.msgs := rfl
@[simp] theorem modPort_nextOff_field (s : State) (p : Nat) (f : Port → Port) : (s.modPort p f).nextOff = s.nextOff := rfl
@[simp] theorem modPort_launches_field (s : State) (p : Nat) (f : Port → Port) : (s.modPort p f).launches = s.launches := rfl
@[simp] theorem modPort_chains_field (s : State) (p : Nat) (f : Port → Port) : (s.modPort p f).chains = s.chains := rfl
@[simp] theorem modPort_pre_field (s : State) (p : Nat) (f : Port → Port) : (s.modPort p f).pre = s.pre := rfl
@[simp] theorem modPort_quantum_field (s : State) (p : Nat) (f : Port → Port) : (s.modPort p f).quantum = s.quantum := rfl
@[simp] theorem modPort_turn_field (s : State) (p : Nat) (f : Port → Port) : (s.modPort p f).turn = s.turn := rfl
@[simp] theorem modPort_kept_field (s : State) (p : Nat) (f : Port → Port) : (s.modPort p f).kept = s.kept := rfl
@[simp] theorem modPort_aims_field (s : State) (p : Nat) (f : Port → Port) : (s.modPort p f).aims = s.aims := rfl
@[simp] theorem modPort_parked_field (s : State) (p : Nat) (f : Port → Port) : (s.modPort p f).parked = s.parked := rfl
@[simp] theorem modPort_epochs_field (s : State) (p : Nat) (f : Port → Port) : (s.modPort p f).epochs = s.epochs := rfl
@[simp] theorem modPort_unitVi_field (s : State) (p : Nat) (f : Port → Port) : (s.modPort p f).unitVi = s.unitVi := rfl
@[simp] theorem modPort_routes_field (s : State) (p : Nat) (f : Port → Port) : (s.modPort p f).routes = s.routes := rfl
@[simp] theorem modPort_regns_field (s : State) (p : Nat) (f : Port → Port) : (s.modPort p f).regns = s.regns := rfl
@[simp] theorem modPort_ingress_field (s : State) (p : Nat) (f : Port → Port) : (s.modPort p f).ingress = s.ingress := rfl
@[simp] theorem modPort_cache_field (s : State) (p : Nat) (f : Port → Port) : (s.modPort p f).cache = s.cache := rfl
@[simp] theorem modPort_errs_field (s : State) (p : Nat) (f : Port → Port) : (s.modPort p f).errs = s.errs := rfl
@[simp] theorem modPort_closing_field (s : State) (p : Nat) (f : Port → Port) : (s.modPort p f).closing = s.closing := rfl
@[simp] theorem modPort_invq_field (s : State) (p : Nat) (f : Port → Port) : (s.modPort p f).invq = s.invq := rfl
@[simp] theorem modPort_invdb_field (s : State) (p : Nat) (f : Port → Port) : (s.modPort p f).invdb = s.invdb := rfl
@[simp] theorem modPort_invack_field (s : State) (p : Nat) (f : Port → Port) : (s.modPort p f).invack = s.invack := rfl
@[simp] theorem modPort_inverr_field (s : State) (p : Nat) (f : Port → Port) : (s.modPort p f).inverr = s.inverr := rfl
@[simp] theorem modPort_inval_field (s : State) (p : Nat) (f : Port → Port) : (s.modPort p f).inval = s.inval := rfl
@[simp] theorem modPort_smsel_field (s : State) (p : Nat) (f : Port → Port) : (s.modPort p f).smsel = s.smsel := rfl
@[simp] theorem modPort_hostRead_field (s : State) (p : Nat) (f : Port → Port) : (s.modPort p f).hostRead = s.hostRead := rfl
@[simp] theorem modPort_sendqs_field (s : State) (p : Nat) (f : Port → Port) : (s.modPort p f).sendqs = s.sendqs := rfl
@[simp] theorem modPort_endpts_field (s : State) (p : Nat) (f : Port → Port) : (s.modPort p f).endpts = s.endpts := rfl
@[simp] theorem modPort_ueOut_field (s : State) (p : Nat) (f : Port → Port) : (s.modPort p f).ueOut = s.ueOut := rfl
@[simp] theorem modPort_ueIn_field (s : State) (p : Nat) (f : Port → Port) : (s.modPort p f).ueIn = s.ueIn := rfl
@[simp] theorem modPort_therm_field (s : State) (p : Nat) (f : Port → Port) : (s.modPort p f).therm = s.therm := rfl
@[simp] theorem modPort_irqs_field (s : State) (p : Nat) (f : Port → Port) : (s.modPort p f).irqs = s.irqs := rfl
@[simp] theorem modPort_booted_field (s : State) (p : Nat) (f : Port → Port) : (s.modPort p f).booted = s.booted := rfl
@[simp] theorem modPort_slot_other (s : State) (p : Nat) (f : Port → Port) (j : Nat) : (s.modPort p f).slot j = s.slot j := rfl
@[simp] theorem modPort_core_other (s : State) (p : Nat) (f : Port → Port) (j : Nat) : (s.modPort p f).core j = s.core j := rfl
@[simp] theorem modPort_cluster_other (s : State) (p : Nat) (f : Port → Port) (j : Nat) : (s.modPort p f).cluster j = s.cluster j := rfl
@[simp] theorem modPort_home_other (s : State) (p : Nat) (f : Port → Port) (j : Nat) : (s.modPort p f).home j = s.home j := rfl
@[simp] theorem modPort_die_other (s : State) (p : Nat) (f : Port → Port) (j : Nat) : (s.modPort p f).die j = s.die j := rfl
@[simp] theorem modPort_vif_other (s : State) (p : Nat) (f : Port → Port) (j : Nat) : (s.modPort p f).vif j = s.vif j := rfl
@[simp] theorem modPort_regn_other (s : State) (p : Nat) (f : Port → Port) (j : Nat) : (s.modPort p f).regn j = s.regn j := rfl
@[simp] theorem modPort_byte_other (s : State) (p : Nat) (f : Port → Port) (j : Nat) : (s.modPort p f).byte j = s.byte j := rfl

@[simp] theorem modRegn_time_field (s : State) (i : Nat) (f : Regn → Regn) : (s.modRegn i f).time = s.time := rfl
@[simp] theorem modRegn_node_field (s : State) (i : Nat) (f : Regn → Regn) : (s.modRegn i f).node = s.node := rfl
@[simp] theorem modRegn_power_field (s : State) (i : Nat) (f : Regn → Regn) : (s.modRegn i f).power = s.power := rfl
@[simp] theorem modRegn_cur_field (s : State) (i : Nat) (f : Regn → Regn) : (s.modRegn i f).cur = s.cur := rfl
@[simp] theorem modRegn_agenda_field (s : State) (i : Nat) (f : Regn → Regn) : (s.modRegn i f).agenda = s.agenda := rfl
@[simp] theorem modRegn_fresh_field (s : State) (i : Nat) (f : Regn → Regn) : (s.modRegn i f).fresh = s.fresh := rfl
@[simp] theorem modRegn_late_field (s : State) (i : Nat) (f : Regn → Regn) : (s.modRegn i f).late = s.late := rfl
@[simp] theorem modRegn_hold_field (s : State) (i : Nat) (f : Regn → Regn) : (s.modRegn i f).hold = s.hold := rfl
@[simp] theorem modRegn_slots_field (s : State) (i : Nat) (f : Regn → Regn) : (s.modRegn i f).slots = s.slots := rfl
@[simp] theorem modRegn_cores_field (s : State) (i : Nat) (f : Regn → Regn) : (s.modRegn i f).cores = s.cores := rfl
@[simp] theorem modRegn_clusters_field (s : State) (i : Nat) (f : Regn → Regn) : (s.modRegn i f).clusters = s.clusters := rfl
@[simp] theorem modRegn_homes_field (s : State) (i : Nat) (f : Regn → Regn) : (s.modRegn i f).homes = s.homes := rfl
@[simp] theorem modRegn_dies_field (s : State) (i : Nat) (f : Regn → Regn) : (s.modRegn i f).dies = s.dies := rfl
@[simp] theorem modRegn_vis_field (s : State) (i : Nat) (f : Regn → Regn) : (s.modRegn i f).vis = s.vis := rfl
@[simp] theorem modRegn_mem_field (s : State) (i : Nat) (f : Regn → Regn) : (s.modRegn i f).mem = s.mem := rfl
@[simp] theorem modRegn_poison_field (s : State) (i : Nat) (f : Regn → Regn) : (s.modRegn i f).poison = s.poison := rfl
@[simp] theorem modRegn_tlb_field (s : State) (i : Nat) (f : Regn → Regn) : (s.modRegn i f).tlb = s.tlb := rfl
@[simp] theorem modRegn_icache_field (s : State) (i : Nat) (f : Regn → Regn) : (s.modRegn i f).icache = s.icache := rfl
@[simp] theorem modRegn_sc_field (s : State) (i : Nat) (f : Regn → Regn) : (s.modRegn i f).sc = s.sc := rfl
@[simp] theorem modRegn_msgs_field (s : State) (i : Nat) (f : Regn → Regn) : (s.modRegn i f).msgs = s.msgs := rfl
@[simp] theorem modRegn_nextOff_field (s : State) (i : Nat) (f : Regn → Regn) : (s.modRegn i f).nextOff = s.nextOff := rfl
@[simp] theorem modRegn_launches_field (s : State) (i : Nat) (f : Regn → Regn) : (s.modRegn i f).launches = s.launches := rfl
@[simp] theorem modRegn_chains_field (s : State) (i : Nat) (f : Regn → Regn) : (s.modRegn i f).chains = s.chains := rfl
@[simp] theorem modRegn_pre_field (s : State) (i : Nat) (f : Regn → Regn) : (s.modRegn i f).pre = s.pre := rfl
@[simp] theorem modRegn_quantum_field (s : State) (i : Nat) (f : Regn → Regn) : (s.modRegn i f).quantum = s.quantum := rfl
@[simp] theorem modRegn_turn_field (s : State) (i : Nat) (f : Regn → Regn) : (s.modRegn i f).turn = s.turn := rfl
@[simp] theorem modRegn_kept_field (s : State) (i : Nat) (f : Regn → Regn) : (s.modRegn i f).kept = s.kept := rfl
@[simp] theorem modRegn_aims_field (s : State) (i : Nat) (f : Regn → Regn) : (s.modRegn i f).aims = s.aims := rfl
@[simp] theorem modRegn_parked_field (s : State) (i : Nat) (f : Regn → Regn) : (s.modRegn i f).parked = s.parked := rfl
@[simp] theorem modRegn_epochs_field (s : State) (i : Nat) (f : Regn → Regn) : (s.modRegn i f).epochs = s.epochs := rfl
@[simp] theorem modRegn_unitVi_field (s : State) (i : Nat) (f : Regn → Regn) : (s.modRegn i f).unitVi = s.unitVi := rfl
@[simp] theorem modRegn_ports_field (s : State) (i : Nat) (f : Regn → Regn) : (s.modRegn i f).ports = s.ports := rfl
@[simp] theorem modRegn_routes_field (s : State) (i : Nat) (f : Regn → Regn) : (s.modRegn i f).routes = s.routes := rfl
@[simp] theorem modRegn_ingress_field (s : State) (i : Nat) (f : Regn → Regn) : (s.modRegn i f).ingress = s.ingress := rfl
@[simp] theorem modRegn_cache_field (s : State) (i : Nat) (f : Regn → Regn) : (s.modRegn i f).cache = s.cache := rfl
@[simp] theorem modRegn_errs_field (s : State) (i : Nat) (f : Regn → Regn) : (s.modRegn i f).errs = s.errs := rfl
@[simp] theorem modRegn_closing_field (s : State) (i : Nat) (f : Regn → Regn) : (s.modRegn i f).closing = s.closing := rfl
@[simp] theorem modRegn_invq_field (s : State) (i : Nat) (f : Regn → Regn) : (s.modRegn i f).invq = s.invq := rfl
@[simp] theorem modRegn_invdb_field (s : State) (i : Nat) (f : Regn → Regn) : (s.modRegn i f).invdb = s.invdb := rfl
@[simp] theorem modRegn_invack_field (s : State) (i : Nat) (f : Regn → Regn) : (s.modRegn i f).invack = s.invack := rfl
@[simp] theorem modRegn_inverr_field (s : State) (i : Nat) (f : Regn → Regn) : (s.modRegn i f).inverr = s.inverr := rfl
@[simp] theorem modRegn_inval_field (s : State) (i : Nat) (f : Regn → Regn) : (s.modRegn i f).inval = s.inval := rfl
@[simp] theorem modRegn_smsel_field (s : State) (i : Nat) (f : Regn → Regn) : (s.modRegn i f).smsel = s.smsel := rfl
@[simp] theorem modRegn_hostRead_field (s : State) (i : Nat) (f : Regn → Regn) : (s.modRegn i f).hostRead = s.hostRead := rfl
@[simp] theorem modRegn_sendqs_field (s : State) (i : Nat) (f : Regn → Regn) : (s.modRegn i f).sendqs = s.sendqs := rfl
@[simp] theorem modRegn_endpts_field (s : State) (i : Nat) (f : Regn → Regn) : (s.modRegn i f).endpts = s.endpts := rfl
@[simp] theorem modRegn_ueOut_field (s : State) (i : Nat) (f : Regn → Regn) : (s.modRegn i f).ueOut = s.ueOut := rfl
@[simp] theorem modRegn_ueIn_field (s : State) (i : Nat) (f : Regn → Regn) : (s.modRegn i f).ueIn = s.ueIn := rfl
@[simp] theorem modRegn_therm_field (s : State) (i : Nat) (f : Regn → Regn) : (s.modRegn i f).therm = s.therm := rfl
@[simp] theorem modRegn_irqs_field (s : State) (i : Nat) (f : Regn → Regn) : (s.modRegn i f).irqs = s.irqs := rfl
@[simp] theorem modRegn_booted_field (s : State) (i : Nat) (f : Regn → Regn) : (s.modRegn i f).booted = s.booted := rfl
@[simp] theorem modRegn_slot_other (s : State) (i : Nat) (f : Regn → Regn) (j : Nat) : (s.modRegn i f).slot j = s.slot j := rfl
@[simp] theorem modRegn_core_other (s : State) (i : Nat) (f : Regn → Regn) (j : Nat) : (s.modRegn i f).core j = s.core j := rfl
@[simp] theorem modRegn_cluster_other (s : State) (i : Nat) (f : Regn → Regn) (j : Nat) : (s.modRegn i f).cluster j = s.cluster j := rfl
@[simp] theorem modRegn_home_other (s : State) (i : Nat) (f : Regn → Regn) (j : Nat) : (s.modRegn i f).home j = s.home j := rfl
@[simp] theorem modRegn_die_other (s : State) (i : Nat) (f : Regn → Regn) (j : Nat) : (s.modRegn i f).die j = s.die j := rfl
@[simp] theorem modRegn_vif_other (s : State) (i : Nat) (f : Regn → Regn) (j : Nat) : (s.modRegn i f).vif j = s.vif j := rfl
@[simp] theorem modRegn_port_other (s : State) (i : Nat) (f : Regn → Regn) (j : Nat) : (s.modRegn i f).port j = s.port j := rfl
@[simp] theorem modRegn_byte_other (s : State) (i : Nat) (f : Regn → Regn) (j : Nat) : (s.modRegn i f).byte j = s.byte j := rfl

@[simp] theorem setByte_time_field (s : State) (c b : Nat) : (s.setByte c b).time = s.time := rfl
@[simp] theorem setByte_node_field (s : State) (c b : Nat) : (s.setByte c b).node = s.node := rfl
@[simp] theorem setByte_power_field (s : State) (c b : Nat) : (s.setByte c b).power = s.power := rfl
@[simp] theorem setByte_cur_field (s : State) (c b : Nat) : (s.setByte c b).cur = s.cur := rfl
@[simp] theorem setByte_agenda_field (s : State) (c b : Nat) : (s.setByte c b).agenda = s.agenda := rfl
@[simp] theorem setByte_fresh_field (s : State) (c b : Nat) : (s.setByte c b).fresh = s.fresh := rfl
@[simp] theorem setByte_late_field (s : State) (c b : Nat) : (s.setByte c b).late = s.late := rfl
@[simp] theorem setByte_hold_field (s : State) (c b : Nat) : (s.setByte c b).hold = s.hold := rfl
@[simp] theorem setByte_slots_field (s : State) (c b : Nat) : (s.setByte c b).slots = s.slots := rfl
@[simp] theorem setByte_cores_field (s : State) (c b : Nat) : (s.setByte c b).cores = s.cores := rfl
@[simp] theorem setByte_clusters_field (s : State) (c b : Nat) : (s.setByte c b).clusters = s.clusters := rfl
@[simp] theorem setByte_homes_field (s : State) (c b : Nat) : (s.setByte c b).homes = s.homes := rfl
@[simp] theorem setByte_dies_field (s : State) (c b : Nat) : (s.setByte c b).dies = s.dies := rfl
@[simp] theorem setByte_vis_field (s : State) (c b : Nat) : (s.setByte c b).vis = s.vis := rfl
@[simp] theorem setByte_poison_field (s : State) (c b : Nat) : (s.setByte c b).poison = s.poison := rfl
@[simp] theorem setByte_tlb_field (s : State) (c b : Nat) : (s.setByte c b).tlb = s.tlb := rfl
@[simp] theorem setByte_icache_field (s : State) (c b : Nat) : (s.setByte c b).icache = s.icache := rfl
@[simp] theorem setByte_sc_field (s : State) (c b : Nat) : (s.setByte c b).sc = s.sc := rfl
@[simp] theorem setByte_msgs_field (s : State) (c b : Nat) : (s.setByte c b).msgs = s.msgs := rfl
@[simp] theorem setByte_nextOff_field (s : State) (c b : Nat) : (s.setByte c b).nextOff = s.nextOff := rfl
@[simp] theorem setByte_launches_field (s : State) (c b : Nat) : (s.setByte c b).launches = s.launches := rfl
@[simp] theorem setByte_chains_field (s : State) (c b : Nat) : (s.setByte c b).chains = s.chains := rfl
@[simp] theorem setByte_pre_field (s : State) (c b : Nat) : (s.setByte c b).pre = s.pre := rfl
@[simp] theorem setByte_quantum_field (s : State) (c b : Nat) : (s.setByte c b).quantum = s.quantum := rfl
@[simp] theorem setByte_turn_field (s : State) (c b : Nat) : (s.setByte c b).turn = s.turn := rfl
@[simp] theorem setByte_kept_field (s : State) (c b : Nat) : (s.setByte c b).kept = s.kept := rfl
@[simp] theorem setByte_aims_field (s : State) (c b : Nat) : (s.setByte c b).aims = s.aims := rfl
@[simp] theorem setByte_parked_field (s : State) (c b : Nat) : (s.setByte c b).parked = s.parked := rfl
@[simp] theorem setByte_epochs_field (s : State) (c b : Nat) : (s.setByte c b).epochs = s.epochs := rfl
@[simp] theorem setByte_unitVi_field (s : State) (c b : Nat) : (s.setByte c b).unitVi = s.unitVi := rfl
@[simp] theorem setByte_ports_field (s : State) (c b : Nat) : (s.setByte c b).ports = s.ports := rfl
@[simp] theorem setByte_routes_field (s : State) (c b : Nat) : (s.setByte c b).routes = s.routes := rfl
@[simp] theorem setByte_regns_field (s : State) (c b : Nat) : (s.setByte c b).regns = s.regns := rfl
@[simp] theorem setByte_ingress_field (s : State) (c b : Nat) : (s.setByte c b).ingress = s.ingress := rfl
@[simp] theorem setByte_cache_field (s : State) (c b : Nat) : (s.setByte c b).cache = s.cache := rfl
@[simp] theorem setByte_errs_field (s : State) (c b : Nat) : (s.setByte c b).errs = s.errs := rfl
@[simp] theorem setByte_closing_field (s : State) (c b : Nat) : (s.setByte c b).closing = s.closing := rfl
@[simp] theorem setByte_invq_field (s : State) (c b : Nat) : (s.setByte c b).invq = s.invq := rfl
@[simp] theorem setByte_invdb_field (s : State) (c b : Nat) : (s.setByte c b).invdb = s.invdb := rfl
@[simp] theorem setByte_invack_field (s : State) (c b : Nat) : (s.setByte c b).invack = s.invack := rfl
@[simp] theorem setByte_inverr_field (s : State) (c b : Nat) : (s.setByte c b).inverr = s.inverr := rfl
@[simp] theorem setByte_inval_field (s : State) (c b : Nat) : (s.setByte c b).inval = s.inval := rfl
@[simp] theorem setByte_smsel_field (s : State) (c b : Nat) : (s.setByte c b).smsel = s.smsel := rfl
@[simp] theorem setByte_hostRead_field (s : State) (c b : Nat) : (s.setByte c b).hostRead = s.hostRead := rfl
@[simp] theorem setByte_sendqs_field (s : State) (c b : Nat) : (s.setByte c b).sendqs = s.sendqs := rfl
@[simp] theorem setByte_endpts_field (s : State) (c b : Nat) : (s.setByte c b).endpts = s.endpts := rfl
@[simp] theorem setByte_ueOut_field (s : State) (c b : Nat) : (s.setByte c b).ueOut = s.ueOut := rfl
@[simp] theorem setByte_ueIn_field (s : State) (c b : Nat) : (s.setByte c b).ueIn = s.ueIn := rfl
@[simp] theorem setByte_therm_field (s : State) (c b : Nat) : (s.setByte c b).therm = s.therm := rfl
@[simp] theorem setByte_irqs_field (s : State) (c b : Nat) : (s.setByte c b).irqs = s.irqs := rfl
@[simp] theorem setByte_booted_field (s : State) (c b : Nat) : (s.setByte c b).booted = s.booted := rfl
@[simp] theorem setByte_slot_other (s : State) (c b : Nat) (j : Nat) : (s.setByte c b).slot j = s.slot j := rfl
@[simp] theorem setByte_core_other (s : State) (c b : Nat) (j : Nat) : (s.setByte c b).core j = s.core j := rfl
@[simp] theorem setByte_cluster_other (s : State) (c b : Nat) (j : Nat) : (s.setByte c b).cluster j = s.cluster j := rfl
@[simp] theorem setByte_home_other (s : State) (c b : Nat) (j : Nat) : (s.setByte c b).home j = s.home j := rfl
@[simp] theorem setByte_die_other (s : State) (c b : Nat) (j : Nat) : (s.setByte c b).die j = s.die j := rfl
@[simp] theorem setByte_vif_other (s : State) (c b : Nat) (j : Nat) : (s.setByte c b).vif j = s.vif j := rfl
@[simp] theorem setByte_port_other (s : State) (c b : Nat) (j : Nat) : (s.setByte c b).port j = s.port j := rfl
@[simp] theorem setByte_regn_other (s : State) (c b : Nat) (j : Nat) : (s.setByte c b).regn j = s.regn j := rfl

/-! ### Registers of a slot -/

/-- What a scalar register reads after a write (04 R65). -/
theorem Slot.rs_ws (x : Slot) (d r : Nat) (v : Word) :
    (x.ws d v).rs r = if r % 64 = d % 64 ∧ d % 64 ≠ 0 then v else x.rs r := by
  unfold Slot.ws Slot.rs
  by_cases hd : d % 64 = 0
  · simp [hd]
  · by_cases hr : r % 64 = 0
    · have : ¬ r % 64 = d % 64 := by omega
      simp [hd, hr]; omega
    · simp only [hd, hr, if_false, SMap.get_set]
      by_cases h : r % 64 = d % 64 <;> simp [h, hd]

theorem Slot.rv_wv (x : Slot) (d r : Nat) (v : Vec) : (x.wv d v).rv r = if r % 32 = d % 32 then v else x.rv r := by
  simp only [Slot.wv, Slot.rv, SMap.get_set]

theorem Slot.rk_wk (x : Slot) (d r : Nat) (v : Pred) :
    (x.wk d v).rk r = if r % 8 = d % 8 ∧ d % 8 ≠ 0 then v else x.rk r := by
  unfold Slot.wk Slot.rk
  by_cases hd : d % 8 = 0
  · simp [hd]
  · by_cases hr : r % 8 = 0
    · have : ¬ r % 8 = d % 8 := by omega
      simp [hd, hr]; omega
    · simp only [hd, hr, if_false, SMap.get_set]
      by_cases h : r % 8 = d % 8 <;> simp [h, hd]

@[simp] theorem Slot.rs_zero (x : Slot) : x.rs 0 = 0 := rfl
@[simp] theorem Slot.rk_zero (x : Slot) : x.rk 0 = BitVec.allOnes 128 := rfl

@[simp] theorem Slot.ws_st (x : Slot) (d : Nat) (v : Word) : (x.ws d v).st = x.st := by
  unfold Slot.ws; split <;> rfl
@[simp] theorem Slot.ws_pc (x : Slot) (d : Nat) (v : Word) : (x.ws d v).pc = x.pc := by
  unfold Slot.ws; split <;> rfl
@[simp] theorem Slot.ws_v (x : Slot) (d : Nat) (v : Word) : (x.ws d v).v = x.v := by
  unfold Slot.ws; split <;> rfl
@[simp] theorem Slot.ws_k (x : Slot) (d : Nat) (v : Word) : (x.ws d v).k = x.k := by
  unfold Slot.ws; split <;> rfl
@[simp] theorem Slot.ws_shadow (x : Slot) (d : Nat) (v : Word) : (x.ws d v).shadow = x.shadow := by
  unfold Slot.ws; split <;> rfl
@[simp] theorem Slot.ws_fmt (x : Slot) (d : Nat) (v : Word) : (x.ws d v).fmt = x.fmt := by
  unfold Slot.ws; split <;> rfl
@[simp] theorem Slot.ws_flags (x : Slot) (d : Nat) (v : Word) : (x.ws d v).flags = x.flags := by
  unfold Slot.ws; split <;> rfl
@[simp] theorem Slot.ws_rmode (x : Slot) (d : Nat) (v : Word) : (x.ws d v).rmode = x.rmode := by
  unfold Slot.ws; split <;> rfl
@[simp] theorem Slot.ws_domain (x : Slot) (d : Nat) (v : Word) : (x.ws d v).domain = x.domain := by
  unfold Slot.ws; split <;> rfl
@[simp] theorem Slot.ws_pfx (x : Slot) (d : Nat) (v : Word) : (x.ws d v).pfx = x.pfx := by
  unfold Slot.ws; split <;> rfl
@[simp] theorem Slot.ws_frame (x : Slot) (d : Nat) (v : Word) : (x.ws d v).frame = x.frame := by
  unfold Slot.ws; split <;> rfl
@[simp] theorem Slot.ws_soh (x : Slot) (d : Nat) (v : Word) : (x.ws d v).soh = x.soh := by
  unfold Slot.ws; split <;> rfl
@[simp] theorem Slot.ws_instret (x : Slot) (d : Nat) (v : Word) : (x.ws d v).instret = x.instret := by
  unfold Slot.ws; split <;> rfl
@[simp] theorem Slot.ws_last (x : Slot) (d : Nat) (v : Word) : (x.ws d v).last = x.last := by
  unfold Slot.ws; split <;> rfl
@[simp] theorem Slot.ws_lstat (x : Slot) (d : Nat) (v : Word) : (x.ws d v).lstat = x.lstat := by
  unfold Slot.ws; split <;> rfl
@[simp] theorem Slot.ws_offer (x : Slot) (d : Nat) (v : Word) : (x.ws d v).offer = x.offer := by
  unfold Slot.ws; split <;> rfl
@[simp] theorem Slot.ws_susp (x : Slot) (d : Nat) (v : Word) : (x.ws d v).susp = x.susp := by
  unfold Slot.ws; split <;> rfl
@[simp] theorem Slot.ws_stand (x : Slot) (d : Nat) (v : Word) : (x.ws d v).stand = x.stand := by
  unfold Slot.ws; split <;> rfl
@[simp] theorem Slot.ws_armNext (x : Slot) (d : Nat) (v : Word) : (x.ws d v).armNext = x.armNext := by
  unfold Slot.ws; split <;> rfl
@[simp] theorem Slot.ws_ready (x : Slot) (d : Nat) (v : Word) : (x.ws d v).ready = x.ready := by
  unfold Slot.ws; split <;> rfl
@[simp] theorem Slot.ws_readyPc (x : Slot) (d : Nat) (v : Word) : (x.ws d v).readyPc = x.readyPc := by
  unfold Slot.ws; split <;> rfl
@[simp] theorem Slot.ws_mode (x : Slot) (d : Nat) (v : Word) : (x.ws d v).mode = x.mode := by
  unfold Slot.ws; split <;> rfl
@[simp] theorem Slot.ws_pmode (x : Slot) (d : Nat) (v : Word) : (x.ws d v).pmode = x.pmode := by
  unfold Slot.ws; split <;> rfl
@[simp] theorem Slot.ws_inh (x : Slot) (d : Nat) (v : Word) : (x.ws d v).inh = x.inh := by
  unfold Slot.ws; split <;> rfl
@[simp] theorem Slot.ws_epc (x : Slot) (d : Nat) (v : Word) : (x.ws d v).epc = x.epc := by
  unfold Slot.ws; split <;> rfl
@[simp] theorem Slot.ws_ecause (x : Slot) (d : Nat) (v : Word) : (x.ws d v).ecause = x.ecause := by
  unfold Slot.ws; split <;> rfl
@[simp] theorem Slot.ws_vbase (x : Slot) (d : Nat) (v : Word) : (x.ws d v).vbase = x.vbase := by
  unfold Slot.ws; split <;> rfl
@[simp] theorem Slot.ws_saveptr (x : Slot) (d : Nat) (v : Word) : (x.ws d v).saveptr = x.saveptr := by
  unfold Slot.ws; split <;> rfl
@[simp] theorem Slot.ws_pscratch (x : Slot) (d : Nat) (v : Word) : (x.ws d v).pscratch = x.pscratch := by
  unfold Slot.ws; split <;> rfl
@[simp] theorem Slot.ws_evb (x : Slot) (d : Nat) (v : Word) : (x.ws d v).evb = x.evb := by
  unfold Slot.ws; split <;> rfl
@[simp] theorem Slot.ws_tag (x : Slot) (d : Nat) (v : Word) : (x.ws d v).tag = x.tag := by
  unfold Slot.ws; split <;> rfl
@[simp] theorem Slot.ws_batches (x : Slot) (d : Nat) (v : Word) : (x.ws d v).batches = x.batches := by
  unfold Slot.ws; split <;> rfl
@[simp] theorem Slot.ws_closes (x : Slot) (d : Nat) (v : Word) : (x.ws d v).closes = x.closes := by
  unfold Slot.ws; split <;> rfl
@[simp] theorem Slot.ws_appends (x : Slot) (d : Nat) (v : Word) : (x.ws d v).appends = x.appends := by
  unfold Slot.ws; split <;> rfl
@[simp] theorem Slot.ws_sent (x : Slot) (d : Nat) (v : Word) : (x.ws d v).sent = x.sent := by
  unfold Slot.ws; split <;> rfl
@[simp] theorem Slot.ws_seq (x : Slot) (d : Nat) (v : Word) : (x.ws d v).seq = x.seq := by
  unfold Slot.ws; split <;> rfl
@[simp] theorem Slot.ws_sb (x : Slot) (d : Nat) (v : Word) : (x.ws d v).sb = x.sb := by
  unfold Slot.ws; split <;> rfl
@[simp] theorem Slot.ws_report (x : Slot) (d : Nat) (v : Word) : (x.ws d v).report = x.report := by
  unfold Slot.ws; split <;> rfl
@[simp] theorem Slot.ws_reports (x : Slot) (d : Nat) (v : Word) : (x.ws d v).reports = x.reports := by
  unfold Slot.ws; split <;> rfl
@[simp] theorem Slot.ws_mflags (x : Slot) (d : Nat) (v : Word) : (x.ws d v).mflags = x.mflags := by
  unfold Slot.ws; split <;> rfl
@[simp] theorem Slot.ws_settles (x : Slot) (d : Nat) (v : Word) : (x.ws d v).settles = x.settles := by
  unfold Slot.ws; split <;> rfl
@[simp] theorem Slot.ws_streams (x : Slot) (d : Nat) (v : Word) : (x.ws d v).streams = x.streams := by
  unfold Slot.ws; split <;> rfl
@[simp] theorem Slot.ws_again (x : Slot) (d : Nat) (v : Word) : (x.ws d v).again = x.again := by
  unfold Slot.ws; split <;> rfl
@[simp] theorem Slot.ws_iw (x : Slot) (d : Nat) (v : Word) : (x.ws d v).iw = x.iw := by
  unfold Slot.ws; split <;> rfl
@[simp] theorem Slot.ws_posted (x : Slot) (d : Nat) (v : Word) : (x.ws d v).posted = x.posted := by
  unfold Slot.ws; split <;> rfl
@[simp] theorem Slot.ws_preReq (x : Slot) (d : Nat) (v : Word) : (x.ws d v).preReq = x.preReq := by
  unfold Slot.ws; split <;> rfl
@[simp] theorem Slot.ws_blockDue (x : Slot) (d : Nat) (v : Word) : (x.ws d v).blockDue = x.blockDue := by
  unfold Slot.ws; split <;> rfl
@[simp] theorem Slot.ws_retain (x : Slot) (d : Nat) (v : Word) : (x.ws d v).retain = x.retain := by
  unfold Slot.ws; split <;> rfl
@[simp] theorem Slot.ws_task (x : Slot) (d : Nat) (v : Word) : (x.ws d v).task = x.task := by
  unfold Slot.ws; split <;> rfl
@[simp] theorem Slot.ws_vi (x : Slot) (d : Nat) (v : Word) : (x.ws d v).vi = x.vi := by
  unfold Slot.ws; split <;> rfl
@[simp] theorem Slot.ws_held (x : Slot) (d : Nat) (v : Word) : (x.ws d v).held = x.held := by
  unfold Slot.ws; split <;> rfl
@[simp] theorem Slot.ws_want (x : Slot) (d : Nat) (v : Word) : (x.ws d v).want = x.want := by
  unfold Slot.ws; split <;> rfl
@[simp] theorem Slot.ws_dorm (x : Slot) (d : Nat) (v : Word) : (x.ws d v).dorm = x.dorm := by
  unfold Slot.ws; split <;> rfl
@[simp] theorem Slot.ws_limit (x : Slot) (d : Nat) (v : Word) : (x.ws d v).limit = x.limit := by
  unfold Slot.ws; split <;> rfl
@[simp] theorem Slot.ws_cut (x : Slot) (d : Nat) (v : Word) : (x.ws d v).cut = x.cut := by
  unfold Slot.ws; split <;> rfl
@[simp] theorem Slot.ws_newChan (x : Slot) (d : Nat) (v : Word) : (x.ws d v).newChan = x.newChan := by
  unfold Slot.ws; split <;> rfl
@[simp] theorem Slot.ws_accDue (x : Slot) (d : Nat) (v : Word) : (x.ws d v).accDue = x.accDue := by
  unfold Slot.ws; split <;> rfl
@[simp] theorem Slot.ws_keptA (x : Slot) (d : Nat) (v : Word) : (x.ws d v).keptA = x.keptA := by
  unfold Slot.ws; split <;> rfl
@[simp] theorem Slot.ws_keptB (x : Slot) (d : Nat) (v : Word) : (x.ws d v).keptB = x.keptB := by
  unfold Slot.ws; split <;> rfl
@[simp] theorem Slot.ws_rv_reg (x : Slot) (d r : Nat) (v : Word) : (x.ws d v).rv r = x.rv r := by
  unfold Slot.ws; split <;> rfl
@[simp] theorem Slot.ws_rk_reg (x : Slot) (d r : Nat) (v : Word) : (x.ws d v).rk r = x.rk r := by
  unfold Slot.ws; split <;> rfl
@[simp] theorem Slot.wk_st (x : Slot) (d : Nat) (v : Pred) : (x.wk d v).st = x.st := by
  unfold Slot.wk; split <;> rfl
@[simp] theorem Slot.wk_pc (x : Slot) (d : Nat) (v : Pred) : (x.wk d v).pc = x.pc := by
  unfold Slot.wk; split <;> rfl
@[simp] theorem Slot.wk_s (x : Slot) (d : Nat) (v : Pred) : (x.wk d v).s = x.s := by
  unfold Slot.wk; split <;> rfl
@[simp] theorem Slot.wk_v (x : Slot) (d : Nat) (v : Pred) : (x.wk d v).v = x.v := by
  unfold Slot.wk; split <;> rfl
@[simp] theorem Slot.wk_shadow (x : Slot) (d : Nat) (v : Pred) : (x.wk d v).shadow = x.shadow := by
  unfold Slot.wk; split <;> rfl
@[simp] theorem Slot.wk_fmt (x : Slot) (d : Nat) (v : Pred) : (x.wk d v).fmt = x.fmt := by
  unfold Slot.wk; split <;> rfl
@[simp] theorem Slot.wk_flags (x : Slot) (d : Nat) (v : Pred) : (x.wk d v).flags = x.flags := by
  unfold Slot.wk; split <;> rfl
@[simp] theorem Slot.wk_rmode (x : Slot) (d : Nat) (v : Pred) : (x.wk d v).rmode = x.rmode := by
  unfold Slot.wk; split <;> rfl
@[simp] theorem Slot.wk_domain (x : Slot) (d : Nat) (v : Pred) : (x.wk d v).domain = x.domain := by
  unfold Slot.wk; split <;> rfl
@[simp] theorem Slot.wk_pfx (x : Slot) (d : Nat) (v : Pred) : (x.wk d v).pfx = x.pfx := by
  unfold Slot.wk; split <;> rfl
@[simp] theorem Slot.wk_frame (x : Slot) (d : Nat) (v : Pred) : (x.wk d v).frame = x.frame := by
  unfold Slot.wk; split <;> rfl
@[simp] theorem Slot.wk_soh (x : Slot) (d : Nat) (v : Pred) : (x.wk d v).soh = x.soh := by
  unfold Slot.wk; split <;> rfl
@[simp] theorem Slot.wk_instret (x : Slot) (d : Nat) (v : Pred) : (x.wk d v).instret = x.instret := by
  unfold Slot.wk; split <;> rfl
@[simp] theorem Slot.wk_last (x : Slot) (d : Nat) (v : Pred) : (x.wk d v).last = x.last := by
  unfold Slot.wk; split <;> rfl
@[simp] theorem Slot.wk_lstat (x : Slot) (d : Nat) (v : Pred) : (x.wk d v).lstat = x.lstat := by
  unfold Slot.wk; split <;> rfl
@[simp] theorem Slot.wk_offer (x : Slot) (d : Nat) (v : Pred) : (x.wk d v).offer = x.offer := by
  unfold Slot.wk; split <;> rfl
@[simp] theorem Slot.wk_susp (x : Slot) (d : Nat) (v : Pred) : (x.wk d v).susp = x.susp := by
  unfold Slot.wk; split <;> rfl
@[simp] theorem Slot.wk_stand (x : Slot) (d : Nat) (v : Pred) : (x.wk d v).stand = x.stand := by
  unfold Slot.wk; split <;> rfl
@[simp] theorem Slot.wk_armNext (x : Slot) (d : Nat) (v : Pred) : (x.wk d v).armNext = x.armNext := by
  unfold Slot.wk; split <;> rfl
@[simp] theorem Slot.wk_ready (x : Slot) (d : Nat) (v : Pred) : (x.wk d v).ready = x.ready := by
  unfold Slot.wk; split <;> rfl
@[simp] theorem Slot.wk_readyPc (x : Slot) (d : Nat) (v : Pred) : (x.wk d v).readyPc = x.readyPc := by
  unfold Slot.wk; split <;> rfl
@[simp] theorem Slot.wk_mode (x : Slot) (d : Nat) (v : Pred) : (x.wk d v).mode = x.mode := by
  unfold Slot.wk; split <;> rfl
@[simp] theorem Slot.wk_pmode (x : Slot) (d : Nat) (v : Pred) : (x.wk d v).pmode = x.pmode := by
  unfold Slot.wk; split <;> rfl
@[simp] theorem Slot.wk_inh (x : Slot) (d : Nat) (v : Pred) : (x.wk d v).inh = x.inh := by
  unfold Slot.wk; split <;> rfl
@[simp] theorem Slot.wk_epc (x : Slot) (d : Nat) (v : Pred) : (x.wk d v).epc = x.epc := by
  unfold Slot.wk; split <;> rfl
@[simp] theorem Slot.wk_ecause (x : Slot) (d : Nat) (v : Pred) : (x.wk d v).ecause = x.ecause := by
  unfold Slot.wk; split <;> rfl
@[simp] theorem Slot.wk_vbase (x : Slot) (d : Nat) (v : Pred) : (x.wk d v).vbase = x.vbase := by
  unfold Slot.wk; split <;> rfl
@[simp] theorem Slot.wk_saveptr (x : Slot) (d : Nat) (v : Pred) : (x.wk d v).saveptr = x.saveptr := by
  unfold Slot.wk; split <;> rfl
@[simp] theorem Slot.wk_pscratch (x : Slot) (d : Nat) (v : Pred) : (x.wk d v).pscratch = x.pscratch := by
  unfold Slot.wk; split <;> rfl
@[simp] theorem Slot.wk_evb (x : Slot) (d : Nat) (v : Pred) : (x.wk d v).evb = x.evb := by
  unfold Slot.wk; split <;> rfl
@[simp] theorem Slot.wk_tag (x : Slot) (d : Nat) (v : Pred) : (x.wk d v).tag = x.tag := by
  unfold Slot.wk; split <;> rfl
@[simp] theorem Slot.wk_batches (x : Slot) (d : Nat) (v : Pred) : (x.wk d v).batches = x.batches := by
  unfold Slot.wk; split <;> rfl
@[simp] theorem Slot.wk_closes (x : Slot) (d : Nat) (v : Pred) : (x.wk d v).closes = x.closes := by
  unfold Slot.wk; split <;> rfl
@[simp] theorem Slot.wk_appends (x : Slot) (d : Nat) (v : Pred) : (x.wk d v).appends = x.appends := by
  unfold Slot.wk; split <;> rfl
@[simp] theorem Slot.wk_sent (x : Slot) (d : Nat) (v : Pred) : (x.wk d v).sent = x.sent := by
  unfold Slot.wk; split <;> rfl
@[simp] theorem Slot.wk_seq (x : Slot) (d : Nat) (v : Pred) : (x.wk d v).seq = x.seq := by
  unfold Slot.wk; split <;> rfl
@[simp] theorem Slot.wk_sb (x : Slot) (d : Nat) (v : Pred) : (x.wk d v).sb = x.sb := by
  unfold Slot.wk; split <;> rfl
@[simp] theorem Slot.wk_report (x : Slot) (d : Nat) (v : Pred) : (x.wk d v).report = x.report := by
  unfold Slot.wk; split <;> rfl
@[simp] theorem Slot.wk_reports (x : Slot) (d : Nat) (v : Pred) : (x.wk d v).reports = x.reports := by
  unfold Slot.wk; split <;> rfl
@[simp] theorem Slot.wk_mflags (x : Slot) (d : Nat) (v : Pred) : (x.wk d v).mflags = x.mflags := by
  unfold Slot.wk; split <;> rfl
@[simp] theorem Slot.wk_settles (x : Slot) (d : Nat) (v : Pred) : (x.wk d v).settles = x.settles := by
  unfold Slot.wk; split <;> rfl
@[simp] theorem Slot.wk_streams (x : Slot) (d : Nat) (v : Pred) : (x.wk d v).streams = x.streams := by
  unfold Slot.wk; split <;> rfl
@[simp] theorem Slot.wk_again (x : Slot) (d : Nat) (v : Pred) : (x.wk d v).again = x.again := by
  unfold Slot.wk; split <;> rfl
@[simp] theorem Slot.wk_iw (x : Slot) (d : Nat) (v : Pred) : (x.wk d v).iw = x.iw := by
  unfold Slot.wk; split <;> rfl
@[simp] theorem Slot.wk_posted (x : Slot) (d : Nat) (v : Pred) : (x.wk d v).posted = x.posted := by
  unfold Slot.wk; split <;> rfl
@[simp] theorem Slot.wk_preReq (x : Slot) (d : Nat) (v : Pred) : (x.wk d v).preReq = x.preReq := by
  unfold Slot.wk; split <;> rfl
@[simp] theorem Slot.wk_blockDue (x : Slot) (d : Nat) (v : Pred) : (x.wk d v).blockDue = x.blockDue := by
  unfold Slot.wk; split <;> rfl
@[simp] theorem Slot.wk_retain (x : Slot) (d : Nat) (v : Pred) : (x.wk d v).retain = x.retain := by
  unfold Slot.wk; split <;> rfl
@[simp] theorem Slot.wk_task (x : Slot) (d : Nat) (v : Pred) : (x.wk d v).task = x.task := by
  unfold Slot.wk; split <;> rfl
@[simp] theorem Slot.wk_vi (x : Slot) (d : Nat) (v : Pred) : (x.wk d v).vi = x.vi := by
  unfold Slot.wk; split <;> rfl
@[simp] theorem Slot.wk_held (x : Slot) (d : Nat) (v : Pred) : (x.wk d v).held = x.held := by
  unfold Slot.wk; split <;> rfl
@[simp] theorem Slot.wk_want (x : Slot) (d : Nat) (v : Pred) : (x.wk d v).want = x.want := by
  unfold Slot.wk; split <;> rfl
@[simp] theorem Slot.wk_dorm (x : Slot) (d : Nat) (v : Pred) : (x.wk d v).dorm = x.dorm := by
  unfold Slot.wk; split <;> rfl
@[simp] theorem Slot.wk_limit (x : Slot) (d : Nat) (v : Pred) : (x.wk d v).limit = x.limit := by
  unfold Slot.wk; split <;> rfl
@[simp] theorem Slot.wk_cut (x : Slot) (d : Nat) (v : Pred) : (x.wk d v).cut = x.cut := by
  unfold Slot.wk; split <;> rfl
@[simp] theorem Slot.wk_newChan (x : Slot) (d : Nat) (v : Pred) : (x.wk d v).newChan = x.newChan := by
  unfold Slot.wk; split <;> rfl
@[simp] theorem Slot.wk_accDue (x : Slot) (d : Nat) (v : Pred) : (x.wk d v).accDue = x.accDue := by
  unfold Slot.wk; split <;> rfl
@[simp] theorem Slot.wk_keptA (x : Slot) (d : Nat) (v : Pred) : (x.wk d v).keptA = x.keptA := by
  unfold Slot.wk; split <;> rfl
@[simp] theorem Slot.wk_keptB (x : Slot) (d : Nat) (v : Pred) : (x.wk d v).keptB = x.keptB := by
  unfold Slot.wk; split <;> rfl
@[simp] theorem Slot.wk_rs_reg (x : Slot) (d r : Nat) (v : Pred) : (x.wk d v).rs r = x.rs r := by
  unfold Slot.wk; split <;> rfl
@[simp] theorem Slot.wk_rv_reg (x : Slot) (d r : Nat) (v : Pred) : (x.wk d v).rv r = x.rv r := by
  unfold Slot.wk; split <;> rfl
@[simp] theorem Slot.wv_st (x : Slot) (d : Nat) (v : Vec) : (x.wv d v).st = x.st := rfl
@[simp] theorem Slot.raiseFlags_st (x : Slot) (g : Nat) : (x.raiseFlags g).st = x.st := rfl
@[simp] theorem Slot.wv_pc (x : Slot) (d : Nat) (v : Vec) : (x.wv d v).pc = x.pc := rfl
@[simp] theorem Slot.raiseFlags_pc (x : Slot) (g : Nat) : (x.raiseFlags g).pc = x.pc := rfl
@[simp] theorem Slot.wv_s (x : Slot) (d : Nat) (v : Vec) : (x.wv d v).s = x.s := rfl
@[simp] theorem Slot.raiseFlags_s (x : Slot) (g : Nat) : (x.raiseFlags g).s = x.s := rfl
@[simp] theorem Slot.raiseFlags_v (x : Slot) (g : Nat) : (x.raiseFlags g).v = x.v := rfl
@[simp] theorem Slot.wv_k (x : Slot) (d : Nat) (v : Vec) : (x.wv d v).k = x.k := rfl
@[simp] theorem Slot.raiseFlags_k (x : Slot) (g : Nat) : (x.raiseFlags g).k = x.k := rfl
@[simp] theorem Slot.wv_shadow (x : Slot) (d : Nat) (v : Vec) : (x.wv d v).shadow = x.shadow := rfl
@[simp] theorem Slot.raiseFlags_shadow (x : Slot) (g : Nat) : (x.raiseFlags g).shadow = x.shadow := rfl
@[simp] theorem Slot.wv_fmt (x : Slot) (d : Nat) (v : Vec) : (x.wv d v).fmt = x.fmt := rfl
@[simp] theorem Slot.raiseFlags_fmt (x : Slot) (g : Nat) : (x.raiseFlags g).fmt = x.fmt := rfl
@[simp] theorem Slot.wv_flags (x : Slot) (d : Nat) (v : Vec) : (x.wv d v).flags = x.flags := rfl
@[simp] theorem Slot.wv_rmode (x : Slot) (d : Nat) (v : Vec) : (x.wv d v).rmode = x.rmode := rfl
@[simp] theorem Slot.raiseFlags_rmode (x : Slot) (g : Nat) : (x.raiseFlags g).rmode = x.rmode := rfl
@[simp] theorem Slot.wv_domain (x : Slot) (d : Nat) (v : Vec) : (x.wv d v).domain = x.domain := rfl
@[simp] theorem Slot.raiseFlags_domain (x : Slot) (g : Nat) : (x.raiseFlags g).domain = x.domain := rfl
@[simp] theorem Slot.wv_pfx (x : Slot) (d : Nat) (v : Vec) : (x.wv d v).pfx = x.pfx := rfl
@[simp] theorem Slot.raiseFlags_pfx (x : Slot) (g : Nat) : (x.raiseFlags g).pfx = x.pfx := rfl
@[simp] theorem Slot.wv_frame (x : Slot) (d : Nat) (v : Vec) : (x.wv d v).frame = x.frame := rfl
@[simp] theorem Slot.raiseFlags_frame (x : Slot) (g : Nat) : (x.raiseFlags g).frame = x.frame := rfl
@[simp] theorem Slot.wv_soh (x : Slot) (d : Nat) (v : Vec) : (x.wv d v).soh = x.soh := rfl
@[simp] theorem Slot.raiseFlags_soh (x : Slot) (g : Nat) : (x.raiseFlags g).soh = x.soh := rfl
@[simp] theorem Slot.wv_instret (x : Slot) (d : Nat) (v : Vec) : (x.wv d v).instret = x.instret := rfl
@[simp] theorem Slot.raiseFlags_instret (x : Slot) (g : Nat) : (x.raiseFlags g).instret = x.instret := rfl
@[simp] theorem Slot.wv_last (x : Slot) (d : Nat) (v : Vec) : (x.wv d v).last = x.last := rfl
@[simp] theorem Slot.raiseFlags_last (x : Slot) (g : Nat) : (x.raiseFlags g).last = x.last := rfl
@[simp] theorem Slot.wv_lstat (x : Slot) (d : Nat) (v : Vec) : (x.wv d v).lstat = x.lstat := rfl
@[simp] theorem Slot.raiseFlags_lstat (x : Slot) (g : Nat) : (x.raiseFlags g).lstat = x.lstat := rfl
@[simp] theorem Slot.wv_offer (x : Slot) (d : Nat) (v : Vec) : (x.wv d v).offer = x.offer := rfl
@[simp] theorem Slot.raiseFlags_offer (x : Slot) (g : Nat) : (x.raiseFlags g).offer = x.offer := rfl
@[simp] theorem Slot.wv_susp (x : Slot) (d : Nat) (v : Vec) : (x.wv d v).susp = x.susp := rfl
@[simp] theorem Slot.raiseFlags_susp (x : Slot) (g : Nat) : (x.raiseFlags g).susp = x.susp := rfl
@[simp] theorem Slot.wv_stand (x : Slot) (d : Nat) (v : Vec) : (x.wv d v).stand = x.stand := rfl
@[simp] theorem Slot.raiseFlags_stand (x : Slot) (g : Nat) : (x.raiseFlags g).stand = x.stand := rfl
@[simp] theorem Slot.wv_armNext (x : Slot) (d : Nat) (v : Vec) : (x.wv d v).armNext = x.armNext := rfl
@[simp] theorem Slot.raiseFlags_armNext (x : Slot) (g : Nat) : (x.raiseFlags g).armNext = x.armNext := rfl
@[simp] theorem Slot.wv_ready (x : Slot) (d : Nat) (v : Vec) : (x.wv d v).ready = x.ready := rfl
@[simp] theorem Slot.raiseFlags_ready (x : Slot) (g : Nat) : (x.raiseFlags g).ready = x.ready := rfl
@[simp] theorem Slot.wv_readyPc (x : Slot) (d : Nat) (v : Vec) : (x.wv d v).readyPc = x.readyPc := rfl
@[simp] theorem Slot.raiseFlags_readyPc (x : Slot) (g : Nat) : (x.raiseFlags g).readyPc = x.readyPc := rfl
@[simp] theorem Slot.wv_mode (x : Slot) (d : Nat) (v : Vec) : (x.wv d v).mode = x.mode := rfl
@[simp] theorem Slot.raiseFlags_mode (x : Slot) (g : Nat) : (x.raiseFlags g).mode = x.mode := rfl
@[simp] theorem Slot.wv_pmode (x : Slot) (d : Nat) (v : Vec) : (x.wv d v).pmode = x.pmode := rfl
@[simp] theorem Slot.raiseFlags_pmode (x : Slot) (g : Nat) : (x.raiseFlags g).pmode = x.pmode := rfl
@[simp] theorem Slot.wv_inh (x : Slot) (d : Nat) (v : Vec) : (x.wv d v).inh = x.inh := rfl
@[simp] theorem Slot.raiseFlags_inh (x : Slot) (g : Nat) : (x.raiseFlags g).inh = x.inh := rfl
@[simp] theorem Slot.wv_epc (x : Slot) (d : Nat) (v : Vec) : (x.wv d v).epc = x.epc := rfl
@[simp] theorem Slot.raiseFlags_epc (x : Slot) (g : Nat) : (x.raiseFlags g).epc = x.epc := rfl
@[simp] theorem Slot.wv_ecause (x : Slot) (d : Nat) (v : Vec) : (x.wv d v).ecause = x.ecause := rfl
@[simp] theorem Slot.raiseFlags_ecause (x : Slot) (g : Nat) : (x.raiseFlags g).ecause = x.ecause := rfl
@[simp] theorem Slot.wv_vbase (x : Slot) (d : Nat) (v : Vec) : (x.wv d v).vbase = x.vbase := rfl
@[simp] theorem Slot.raiseFlags_vbase (x : Slot) (g : Nat) : (x.raiseFlags g).vbase = x.vbase := rfl
@[simp] theorem Slot.wv_saveptr (x : Slot) (d : Nat) (v : Vec) : (x.wv d v).saveptr = x.saveptr := rfl
@[simp] theorem Slot.raiseFlags_saveptr (x : Slot) (g : Nat) : (x.raiseFlags g).saveptr = x.saveptr := rfl
@[simp] theorem Slot.wv_pscratch (x : Slot) (d : Nat) (v : Vec) : (x.wv d v).pscratch = x.pscratch := rfl
@[simp] theorem Slot.raiseFlags_pscratch (x : Slot) (g : Nat) : (x.raiseFlags g).pscratch = x.pscratch := rfl
@[simp] theorem Slot.wv_evb (x : Slot) (d : Nat) (v : Vec) : (x.wv d v).evb = x.evb := rfl
@[simp] theorem Slot.raiseFlags_evb (x : Slot) (g : Nat) : (x.raiseFlags g).evb = x.evb := rfl
@[simp] theorem Slot.wv_tag (x : Slot) (d : Nat) (v : Vec) : (x.wv d v).tag = x.tag := rfl
@[simp] theorem Slot.raiseFlags_tag (x : Slot) (g : Nat) : (x.raiseFlags g).tag = x.tag := rfl
@[simp] theorem Slot.wv_batches (x : Slot) (d : Nat) (v : Vec) : (x.wv d v).batches = x.batches := rfl
@[simp] theorem Slot.raiseFlags_batches (x : Slot) (g : Nat) : (x.raiseFlags g).batches = x.batches := rfl
@[simp] theorem Slot.wv_closes (x : Slot) (d : Nat) (v : Vec) : (x.wv d v).closes = x.closes := rfl
@[simp] theorem Slot.raiseFlags_closes (x : Slot) (g : Nat) : (x.raiseFlags g).closes = x.closes := rfl
@[simp] theorem Slot.wv_appends (x : Slot) (d : Nat) (v : Vec) : (x.wv d v).appends = x.appends := rfl
@[simp] theorem Slot.raiseFlags_appends (x : Slot) (g : Nat) : (x.raiseFlags g).appends = x.appends := rfl
@[simp] theorem Slot.wv_sent (x : Slot) (d : Nat) (v : Vec) : (x.wv d v).sent = x.sent := rfl
@[simp] theorem Slot.raiseFlags_sent (x : Slot) (g : Nat) : (x.raiseFlags g).sent = x.sent := rfl
@[simp] theorem Slot.wv_seq (x : Slot) (d : Nat) (v : Vec) : (x.wv d v).seq = x.seq := rfl
@[simp] theorem Slot.raiseFlags_seq (x : Slot) (g : Nat) : (x.raiseFlags g).seq = x.seq := rfl
@[simp] theorem Slot.wv_sb (x : Slot) (d : Nat) (v : Vec) : (x.wv d v).sb = x.sb := rfl
@[simp] theorem Slot.raiseFlags_sb (x : Slot) (g : Nat) : (x.raiseFlags g).sb = x.sb := rfl
@[simp] theorem Slot.wv_report (x : Slot) (d : Nat) (v : Vec) : (x.wv d v).report = x.report := rfl
@[simp] theorem Slot.raiseFlags_report (x : Slot) (g : Nat) : (x.raiseFlags g).report = x.report := rfl
@[simp] theorem Slot.wv_reports (x : Slot) (d : Nat) (v : Vec) : (x.wv d v).reports = x.reports := rfl
@[simp] theorem Slot.raiseFlags_reports (x : Slot) (g : Nat) : (x.raiseFlags g).reports = x.reports := rfl
@[simp] theorem Slot.wv_mflags (x : Slot) (d : Nat) (v : Vec) : (x.wv d v).mflags = x.mflags := rfl
@[simp] theorem Slot.raiseFlags_mflags (x : Slot) (g : Nat) : (x.raiseFlags g).mflags = x.mflags := rfl
@[simp] theorem Slot.wv_settles (x : Slot) (d : Nat) (v : Vec) : (x.wv d v).settles = x.settles := rfl
@[simp] theorem Slot.raiseFlags_settles (x : Slot) (g : Nat) : (x.raiseFlags g).settles = x.settles := rfl
@[simp] theorem Slot.wv_streams (x : Slot) (d : Nat) (v : Vec) : (x.wv d v).streams = x.streams := rfl
@[simp] theorem Slot.raiseFlags_streams (x : Slot) (g : Nat) : (x.raiseFlags g).streams = x.streams := rfl
@[simp] theorem Slot.wv_again (x : Slot) (d : Nat) (v : Vec) : (x.wv d v).again = x.again := rfl
@[simp] theorem Slot.raiseFlags_again (x : Slot) (g : Nat) : (x.raiseFlags g).again = x.again := rfl
@[simp] theorem Slot.wv_iw (x : Slot) (d : Nat) (v : Vec) : (x.wv d v).iw = x.iw := rfl
@[simp] theorem Slot.raiseFlags_iw (x : Slot) (g : Nat) : (x.raiseFlags g).iw = x.iw := rfl
@[simp] theorem Slot.wv_posted (x : Slot) (d : Nat) (v : Vec) : (x.wv d v).posted = x.posted := rfl
@[simp] theorem Slot.raiseFlags_posted (x : Slot) (g : Nat) : (x.raiseFlags g).posted = x.posted := rfl
@[simp] theorem Slot.wv_preReq (x : Slot) (d : Nat) (v : Vec) : (x.wv d v).preReq = x.preReq := rfl
@[simp] theorem Slot.raiseFlags_preReq (x : Slot) (g : Nat) : (x.raiseFlags g).preReq = x.preReq := rfl
@[simp] theorem Slot.wv_blockDue (x : Slot) (d : Nat) (v : Vec) : (x.wv d v).blockDue = x.blockDue := rfl
@[simp] theorem Slot.raiseFlags_blockDue (x : Slot) (g : Nat) : (x.raiseFlags g).blockDue = x.blockDue := rfl
@[simp] theorem Slot.wv_retain (x : Slot) (d : Nat) (v : Vec) : (x.wv d v).retain = x.retain := rfl
@[simp] theorem Slot.raiseFlags_retain (x : Slot) (g : Nat) : (x.raiseFlags g).retain = x.retain := rfl
@[simp] theorem Slot.wv_task (x : Slot) (d : Nat) (v : Vec) : (x.wv d v).task = x.task := rfl
@[simp] theorem Slot.raiseFlags_task (x : Slot) (g : Nat) : (x.raiseFlags g).task = x.task := rfl
@[simp] theorem Slot.wv_vi (x : Slot) (d : Nat) (v : Vec) : (x.wv d v).vi = x.vi := rfl
@[simp] theorem Slot.raiseFlags_vi (x : Slot) (g : Nat) : (x.raiseFlags g).vi = x.vi := rfl
@[simp] theorem Slot.wv_held (x : Slot) (d : Nat) (v : Vec) : (x.wv d v).held = x.held := rfl
@[simp] theorem Slot.raiseFlags_held (x : Slot) (g : Nat) : (x.raiseFlags g).held = x.held := rfl
@[simp] theorem Slot.wv_want (x : Slot) (d : Nat) (v : Vec) : (x.wv d v).want = x.want := rfl
@[simp] theorem Slot.raiseFlags_want (x : Slot) (g : Nat) : (x.raiseFlags g).want = x.want := rfl
@[simp] theorem Slot.wv_dorm (x : Slot) (d : Nat) (v : Vec) : (x.wv d v).dorm = x.dorm := rfl
@[simp] theorem Slot.raiseFlags_dorm (x : Slot) (g : Nat) : (x.raiseFlags g).dorm = x.dorm := rfl
@[simp] theorem Slot.wv_limit (x : Slot) (d : Nat) (v : Vec) : (x.wv d v).limit = x.limit := rfl
@[simp] theorem Slot.raiseFlags_limit (x : Slot) (g : Nat) : (x.raiseFlags g).limit = x.limit := rfl
@[simp] theorem Slot.wv_cut (x : Slot) (d : Nat) (v : Vec) : (x.wv d v).cut = x.cut := rfl
@[simp] theorem Slot.raiseFlags_cut (x : Slot) (g : Nat) : (x.raiseFlags g).cut = x.cut := rfl
@[simp] theorem Slot.wv_newChan (x : Slot) (d : Nat) (v : Vec) : (x.wv d v).newChan = x.newChan := rfl
@[simp] theorem Slot.raiseFlags_newChan (x : Slot) (g : Nat) : (x.raiseFlags g).newChan = x.newChan := rfl
@[simp] theorem Slot.wv_accDue (x : Slot) (d : Nat) (v : Vec) : (x.wv d v).accDue = x.accDue := rfl
@[simp] theorem Slot.raiseFlags_accDue (x : Slot) (g : Nat) : (x.raiseFlags g).accDue = x.accDue := rfl
@[simp] theorem Slot.wv_keptA (x : Slot) (d : Nat) (v : Vec) : (x.wv d v).keptA = x.keptA := rfl
@[simp] theorem Slot.raiseFlags_keptA (x : Slot) (g : Nat) : (x.raiseFlags g).keptA = x.keptA := rfl
@[simp] theorem Slot.wv_keptB (x : Slot) (d : Nat) (v : Vec) : (x.wv d v).keptB = x.keptB := rfl
@[simp] theorem Slot.raiseFlags_keptB (x : Slot) (g : Nat) : (x.raiseFlags g).keptB = x.keptB := rfl
@[simp] theorem Slot.wv_rs_reg (x : Slot) (d r : Nat) (v : Vec) : (x.wv d v).rs r = x.rs r := rfl
@[simp] theorem Slot.wv_rk_reg (x : Slot) (d r : Nat) (v : Vec) : (x.wv d v).rk r = x.rk r := rfl
@[simp] theorem Slot.raiseFlags_rs_reg (x : Slot) (g r : Nat) : (x.raiseFlags g).rs r = x.rs r := rfl
@[simp] theorem Slot.raiseFlags_rk_reg (x : Slot) (g r : Nat) : (x.raiseFlags g).rk r = x.rk r := rfl
@[simp] theorem Slot.raiseFlags_rv_reg (x : Slot) (g r : Nat) : (x.raiseFlags g).rv r = x.rv r := rfl

end Sys2Proof.Machine
end

