-- ==== Sys2Proof/Laws/Frame.lean ====
section
/-!
SUPPORT. What the shared frame of an instruction can do: how a completed one retires, and what `plain`, `formatted`, `privileged` and
`event` answer, said once for every meaning that is written over them.
-/

namespace Sys2Proof.Machine

open Sys2Proof

/-! ### Retirement -/

theorem nextPc_rest (x : Slot) : nextPc x = { x with pc := (nextPc x).pc, frame := (nextPc x).frame } := by
  unfold nextPc; split
  · rename_i h; cases x; simp_all
  · split
    · rfl
    · split <;> rfl

theorem nextPc_none {x : Slot} (h : x.frame = none) : nextPc x = { x with pc := (x.pc + 4) % 2 ^ 52 } := by
  unfold nextPc; rw [h]

/-- Retirement touches the running slot and its core's count. -/
theorem retire_ownSlotOnly (s : State) (f : Slot → Slot) (p : Bool) :
    OwnSlotOnly s (retire (s.modSlot s.cur f) s.cur p) where
  rest := rfl
  bytes _ := rfl
  slots m hm := by simp [retire, modSlot_slot, hm]
  cores c := by
    simp only [retire, modCore_core]
    split
    · subst_vars; rfl
    · rfl

theorem retireTo_ownSlotOnly (s : State) (f : Slot → Slot) (pc : Nat) :
    OwnSlotOnly s (retireTo (s.modSlot s.cur f) s.cur pc) where
  rest := rfl
  bytes _ := rfl
  slots m hm := by simp [retireTo, modSlot_slot, hm]
  cores c := by
    simp only [retireTo, modCore_core]
    split
    · subst_vars; rfl
    · rfl

theorem retire_slot_self (s : State) (n : Nat) (p : Bool) :
    (retire s n p).slot n = (let y := nextPc (countInstr (s.slot n)); if p then { y with pfx := none } else y) := by
  simp [retire]

theorem retireTo_slot_self (s : State) (n pc : Nat) :
    (retireTo s n pc).slot n = { countInstr (s.slot n) with pc := pc % 2 ^ 52 } := by
  simp [retireTo]

/-- What retirement makes of a slot whose registers or flags an instruction has written. -/
theorem completed_of_registers (x : Slot) (a : SMap Word) (b : SMap Vec) (c : SMap Pred) (g : Word) (p : Bool)
    (hp : x.pfx = none ∨ p = true) :
    x.Completed (let y := nextPc (countInstr { x with s := a, v := b, k := c, flags := g })
                 if p then { y with pfx := none } else y) := by
  generalize hz : nextPc (countInstr { x with s := a, v := b, k := c, flags := g }) = z
  have hq : z = { x with
      s := a, v := b, k := c, flags := g, st := .running, again := none
      instret := (x.instret + 1) % 2 ^ 64, pc := z.pc, frame := z.frame } := by
    conv_lhs => rw [← hz, nextPc_rest, hz]
    rfl
  have hn : x.frame = none → z.pc = (x.pc + 4) % 2 ^ 52 ∧ z.frame = none := by
    intro hf
    have h1 : (countInstr { x with s := a, v := b, k := c, flags := g }).frame = none := hf
    rw [nextPc_none h1] at hz
    subst hz
    exact ⟨rfl, hf⟩
  have hpx : z.pfx = x.pfx := by rw [hq]
  have hin : z.instret = (x.instret + 1) % 2 ^ 64 := by rw [hq]
  have hst : z.st = .running := by rw [hq]
  cases p
  · have hp : x.pfx = none := by simpa using hp
    simp only [Bool.false_eq_true, if_false]
    refine ⟨hn, hin, hst, hpx.trans hp, ?_⟩
    cases x; cases z; cases hp; simp at hq ⊢; simp [hq]
  · simp only [if_true]
    refine ⟨hn, hin, hst, rfl, ?_⟩
    cases x; cases z; simp at hq ⊢; simp [hq]

/-- The slot after an instruction that changed it by `f` and completed. -/
theorem retire_completed (s : State) (f : Slot → Slot) (p : Bool) (hp : s.me.pfx = none ∨ p = true)
    (hf : f s.me = { s.me with s := (f s.me).s, v := (f s.me).v, k := (f s.me).k, flags := (f s.me).flags }) :
    s.me.Completed ((retire (s.modSlot s.cur f) s.cur p).slot s.cur) := by
  rw [retire_slot_self, modSlot_slot_self, hf]
  exact completed_of_registers _ _ _ _ _ _ hp

/-- Registers and flags are what the instruction made them. -/
theorem retire_rs (s : State) (f : Slot → Slot) (n : Nat) (p : Bool) (r : Nat) :
    ((retire (s.modSlot n f) n p).slot n).rs r = (f (s.slot n)).rs r := by
  rw [retire_slot_self, modSlot_slot_self, nextPc_rest]; cases p <;> rfl

theorem retire_rv (s : State) (f : Slot → Slot) (n : Nat) (p : Bool) (r : Nat) :
    ((retire (s.modSlot n f) n p).slot n).rv r = (f (s.slot n)).rv r := by
  rw [retire_slot_self, modSlot_slot_self, nextPc_rest]; cases p <;> rfl

theorem retire_rk (s : State) (f : Slot → Slot) (n : Nat) (p : Bool) (r : Nat) :
    ((retire (s.modSlot n f) n p).slot n).rk r = (f (s.slot n)).rk r := by
  rw [retire_slot_self, modSlot_slot_self, nextPc_rest]; cases p <;> rfl

theorem retire_flags (s : State) (f : Slot → Slot) (n : Nat) (p : Bool) :
    ((retire (s.modSlot n f) n p).slot n).flags = (f (s.slot n)).flags := by
  rw [retire_slot_self, modSlot_slot_self, nextPc_rest]; cases p <;> rfl

/-! ### What an instruction answers -/

theorem plain_eq {s : State} (f : State → Nat → Except Trap Res) (h : s.NoPrefix) :
    plain f s = .next (conclude s s.cur (f s s.cur)) := by
  simp only [State.NoPrefix] at h
  simp [plain, h]

theorem plain_illegal {s : State} (f : State → Nat → Except Trap Res) (h : s.me.pfx ≠ none) :
    plain f s = .next (takeTrap s s.cur { code := 0x01 }) := by
  have : (s.slot s.cur).pfx.isSome = true := by
    cases hp : (s.slot s.cur).pfx <;> simp_all
  simp [plain, this, illegal, raise]

theorem privileged_eq {s : State} (f : State → Nat → Except Trap Res) (h : s.NoPrefix) (hm : s.me.mode = true) :
    privileged f s = .next (conclude s s.cur (f s s.cur)) := by
  unfold privileged
  rw [plain_eq _ h]
  simp [hm]

theorem privileged_user {s : State} (f : State → Nat → Except Trap Res) (h : s.NoPrefix) (hm : s.me.mode = false) :
    privileged f s = .next (takeTrap s s.cur { code := 0x02 }) := by
  unfold privileged
  rw [plain_eq _ h]
  simp [hm, conclude, raise]

/-- An instruction that writes one scalar register and completes (04 R79): everything that it does. -/
theorem scalarResult_of_writeDone {i : Instr} {s : State} {d : Nat} {v : Word} (h : s.NoPrefix)
    (hx : exec i s = .next (conclude s s.cur (writeDone s s.cur d v))) : ScalarResult i s d v := by
  simp only [State.NoPrefix] at h
  refine ⟨_, hx, ?_, ?_, ?_, ?_, ?_, ?_⟩
  · exact retire_ownSlotOnly s (fun x => x.ws d v) _
  · refine retire_completed s (fun x => x.ws d v) _ (.inl h) ?_
    show s.me.ws d v = _
    unfold Slot.ws; split <;> rfl
  · intro r; rw [show conclude s s.cur (writeDone s s.cur d v) = retire (s.modSlot s.cur fun x => x.ws d v) s.cur _ from rfl,
      retire_rs]; exact Slot.rs_ws _ _ _ _
  · intro r; exact (retire_rv s (fun x => x.ws d v) _ _ r).trans (by simp)
  · intro r; exact (retire_rk s (fun x => x.ws d v) _ _ r).trans (by simp)
  · exact (retire_flags s (fun x => x.ws d v) _ _).trans (by simp)

/-- An instruction that writes one vector register and completes. -/
theorem vectorResult_of_done {i : Instr} {s : State} {d w fl : Nat} {v : Vec} {f : Nat → Nat} {g : Slot → Slot}
    (hg : ∀ x, g x = (x.wv d v).raiseFlags fl ∨ (g x = x.wv d v ∧ fl = 0))
    (hx : exec i s = .next (retire (s.modSlot s.cur g) s.cur s.me.pfx.isSome))
    (hv : ∀ j, j < 1024 / w → elem w v j = f j) : VectorResult i s d w f fl := by
  have hfl : s.me.flags = s.me.flags ||| BitVec.ofNat 64 (0 % 32) := by simp
  refine ⟨_, hx, retire_ownSlotOnly s g _, ?_, ⟨?_, ?_⟩, ?_, ?_, ?_⟩
  · refine retire_completed s g _ ?_ ?_
    · cases h : s.me.pfx <;> simp
    · rcases hg s.me with h | ⟨h, _⟩ <;> rw [h] <;> rfl
  · intro j hj; rw [retire_rv]
    rcases hg (s.slot s.cur) with h | ⟨h, _⟩ <;> rw [h] <;> simp [Slot.raiseFlags_rv_reg, Slot.rv_wv, hv j hj]
  · intro r hr; rw [retire_rv]
    rcases hg (s.slot s.cur) with h | ⟨h, _⟩ <;> rw [h] <;> simp [Slot.raiseFlags_rv_reg, Slot.rv_wv, hr]
  · intro r; rw [retire_rs]; rcases hg (s.slot s.cur) with h | ⟨h, _⟩ <;> rw [h] <;> rfl
  · intro r; rw [retire_rk]; rcases hg (s.slot s.cur) with h | ⟨h, _⟩ <;> rw [h] <;> rfl
  · rw [retire_flags]; rcases hg (s.slot s.cur) with h | ⟨h, h0⟩ <;> rw [h]
    · rfl
    · subst h0; exact hfl

/-- An instruction that writes one predicate register and completes. -/
theorem predResult_of_done {i : Instr} {s : State} {d fl : Nat} {v : Pred} {f : Nat → Bool} {g : Slot → Slot}
    (hg : ∀ x, g x = (x.wk d v).raiseFlags fl ∨ (g x = x.wk d v ∧ fl = 0))
    (hx : exec i s = .next (retire (s.modSlot s.cur g) s.cur s.me.pfx.isSome))
    (hv : ∀ j, j < 128 → v.getLsbD j = f j) : PredResult i s d f fl := by
  have hfl : s.me.flags = s.me.flags ||| BitVec.ofNat 64 (0 % 32) := by simp
  refine ⟨_, hx, retire_ownSlotOnly s g _, ?_, ⟨?_, ?_, ?_⟩, ?_, ?_, ?_⟩
  · refine retire_completed s g _ ?_ ?_
    · cases h : s.me.pfx <;> simp
    · rcases hg s.me with h | ⟨h, _⟩ <;> rw [h] <;> unfold Slot.wk <;> split <;> rfl
  · intro hd j hj; rw [retire_rk]
    rcases hg (s.slot s.cur) with h | ⟨h, _⟩ <;> rw [h] <;> simp [Slot.raiseFlags_rk_reg, Slot.rk_wk, hd, hv j hj]
  · intro r hr; rw [retire_rk]
    rcases hg (s.slot s.cur) with h | ⟨h, _⟩ <;> rw [h] <;> simp [Slot.raiseFlags_rk_reg, Slot.rk_wk, hr]
  · intro hd r; rw [retire_rk]
    rcases hg (s.slot s.cur) with h | ⟨h, _⟩ <;> rw [h] <;> simp [Slot.raiseFlags_rk_reg, Slot.rk_wk, hd]
  · intro r; rw [retire_rs]; rcases hg (s.slot s.cur) with h | ⟨h, _⟩ <;> rw [h] <;> simp
  · intro r; rw [retire_rv]; rcases hg (s.slot s.cur) with h | ⟨h, _⟩ <;> rw [h] <;> simp
  · rw [retire_flags]; rcases hg (s.slot s.cur) with h | ⟨h, h0⟩ <;> rw [h]
    · simp [Slot.raiseFlags]
    · subst h0; simpa using hfl

/-- An instruction that only completes (NOP, PAD). -/
theorem noEffect_of_done {i : Instr} {s : State} (h : s.NoPrefix)
    (hx : exec i s = .next (conclude s s.cur (.ok (.done s)))) : NoEffect i s := by
  have h0 : conclude s s.cur (.ok (.done s)) = retire s s.cur false := by
    simp only [State.NoPrefix] at h; simp [conclude, h]
  rw [h0] at hx
  refine ⟨_, hx, ⟨rfl, fun _ => rfl, fun m hm => by simp [retire, modSlot_slot, hm], fun c => ?_⟩, ?_, ?_, ?_, ?_, ?_⟩
  · simp only [retire, modCore_core]; split
    · subst_vars; rfl
    · rfl
  · rw [retire_slot_self]
    exact completed_of_registers s.me s.me.s s.me.v s.me.k s.me.flags false (.inl h)
  · intro r; rw [retire_slot_self, nextPc_rest]; rfl
  · intro r; rw [retire_slot_self, nextPc_rest]; rfl
  · intro r; rw [retire_slot_self, nextPc_rest]; rfl
  · rw [retire_slot_self, nextPc_rest]; rfl

/-- An instruction that moves PC and changes its slot by `f` only. -/
theorem goesTo_of_jump {i : Instr} {s : State} {pc : Nat} (f : Slot → Slot)
    (hx : exec i s = .next (retireTo (s.modSlot s.cur f) s.cur pc)) (hf : (f s.me).instret = s.me.instret)
    (hpc : pc < 2 ^ 52) : GoesTo i s (f s.me) pc := by
  refine ⟨_, hx, retireTo_ownSlotOnly s f pc, ?_⟩
  rw [retireTo_slot_self, modSlot_slot_self, Nat.mod_eq_of_lt hpc]
  simp [countInstr, hf]

end Sys2Proof.Machine
end

