-- ==== Sys2Proof/Laws/Memory.lean ====
section
/-!
SUPPORT. The laws of memory: read after write, frames, and that every memory operation keeps the canonical form.
-/

namespace Sys2Proof.Machine

open Sys2Proof

/-! ### One cell -/

theorem Memory.get_set_ne (m : List Host.Cell) {a c : Nat} (b : BitVec 8) (h : c ≠ a) :
    Memory.get (Memory.set m a b) c = Memory.get m c := by
  induction m with
  | nil => unfold Memory.set Memory.get; split <;> simp [SMap.get, h.symm]
  | cons e t ih =>
    obtain ⟨j, u⟩ := e
    unfold Memory.set
    split
    · split
      · rfl
      · simp [Memory.get, SMap.get, h.symm]
    · split
      · rename_i hj; subst hj
        split <;> simp [Memory.get, SMap.get, h.symm]
      · simp only [Memory.get, SMap.get] at ih ⊢
        split <;> [rfl; exact ih]

/-- Cells below the first listed one read as the default. -/
theorem Memory.get_of_lt (m : List Host.Cell) {lo a : Nat} (h : Memory.wfFrom lo m = true) (ha : a < lo) :
    Memory.get m a = Config.memDefault := by
  induction m generalizing lo with
  | nil => rfl
  | cons e t ih =>
    obtain ⟨j, u⟩ := e
    simp only [Memory.wfFrom, Bool.and_eq_true, decide_eq_true_eq] at h
    have hj : ¬ j = a := by omega
    simpa [Memory.get, SMap.get, hj] using ih h.2 (by omega)

theorem Memory.get_set_self (m : List Host.Cell) {lo a : Nat} (b : BitVec 8) (h : Memory.wfFrom lo m = true) :
    Memory.get (Memory.set m a b) a = b := by
  induction m generalizing lo with
  | nil => unfold Memory.set; split <;> simp_all [Memory.get, SMap.get]
  | cons e t ih =>
    obtain ⟨j, u⟩ := e
    have h' := h
    simp only [Memory.wfFrom, Bool.and_eq_true, decide_eq_true_eq] at h
    unfold Memory.set
    split
    · split
      · rename_i hb; subst hb
        rename_i hlt
        have hj : ¬ j = a := by omega
        simpa [Memory.get, SMap.get, hj] using Memory.get_of_lt t h.2 (by omega)
      · simp [Memory.get, SMap.get]
    · split
      · rename_i hj; subst hj
        split
        · rename_i hb; subst hb; exact Memory.get_of_lt t h.2 (by omega)
        · simp [Memory.get, SMap.get]
      · rename_i hj
        simpa [Memory.get, SMap.get, hj] using ih h.2

theorem Memory.wfFrom_mono (m : List Host.Cell) {lo lo' : Nat} (h : Memory.wfFrom lo m = true) (hl : lo' ≤ lo) :
    Memory.wfFrom lo' m = true := by
  cases m with
  | nil => rfl
  | cons e t =>
    simp only [Memory.wfFrom, Bool.and_eq_true, decide_eq_true_eq] at h ⊢
    exact ⟨⟨by omega, h.1.2⟩, h.2⟩

theorem Memory.wfFrom_set (m : List Host.Cell) {lo a : Nat} (b : BitVec 8) (h : Memory.wfFrom lo m = true) (ha : lo ≤ a) :
    Memory.wfFrom lo (Memory.set m a b) = true := by
  induction m generalizing lo with
  | nil => unfold Memory.set; split <;> simp_all [Memory.wfFrom]
  | cons e t ih =>
    obtain ⟨j, u⟩ := e
    have h' := h
    simp only [Memory.wfFrom, Bool.and_eq_true, decide_eq_true_eq] at h
    unfold Memory.set
    split
    · split
      · exact h'
      · simp only [Memory.wfFrom, Bool.and_eq_true, decide_eq_true_eq]
        exact ⟨⟨ha, by assumption⟩, ⟨by omega, h.1.2⟩, h.2⟩
    · split
      · rename_i hj; subst hj
        split
        · exact Memory.wfFrom_mono t h.2 (by omega)
        · simp only [Memory.wfFrom, Bool.and_eq_true, decide_eq_true_eq]
          exact ⟨⟨h.1.1, by assumption⟩, h.2⟩
      · simp only [Memory.wfFrom, Bool.and_eq_true, decide_eq_true_eq]
        exact ⟨h.1, ih h.2 (by omega)⟩

theorem Memory.wfFrom_filter (m : List Host.Cell) {lo : Nat} (p : Host.Cell → Bool) (h : Memory.wfFrom lo m = true) :
    Memory.wfFrom lo (m.filter p) = true := by
  induction m generalizing lo with
  | nil => rfl
  | cons e t ih =>
    obtain ⟨j, u⟩ := e
    simp only [Memory.wfFrom, Bool.and_eq_true, decide_eq_true_eq] at h
    rw [List.filter_cons]
    split
    · simp only [Memory.wfFrom, Bool.and_eq_true, decide_eq_true_eq]
      exact ⟨h.1, ih h.2⟩
    · exact Memory.wfFrom_mono _ (ih h.2) (by omega)

/-! ### The operations over the state -/

theorem reset_memWf : State.reset.MemWf := rfl

theorem setByte_memWf {s : State} (h : s.MemWf) (c b : Nat) : (s.setByte c b).MemWf :=
  Memory.wfFrom_set s.mem _ h (Nat.zero_le c)

theorem setByte_byte_ne (s : State) {c a : Nat} (b : Nat) (h : a ≠ c) : (s.setByte c b).byte a = s.byte a := by
  simp only [State.byte, State.setByte]; rw [Memory.get_set_ne _ _ h]

theorem setByte_byte_self {s : State} (h : s.MemWf) (c b : Nat) : (s.setByte c b).byte c = b % 256 := by
  simp only [State.byte, State.setByte]; rw [Memory.get_set_self (lo := 0) _ _ h]; simp

theorem setRaw_memWf {s : State} (h : s.MemWf) (c n x : Nat) : (s.setRaw c n x).MemWf := by
  induction n generalizing s c x with
  | zero => exact h
  | succ n ih => exact ih (setByte_memWf h _ _) _ _

theorem setRaw_byte_ne (s : State) (c n x a : Nat) (h : a < c ∨ c + n ≤ a) : (s.setRaw c n x).byte a = s.byte a := by
  induction n generalizing s c x with
  | zero => rfl
  | succ n ih =>
    show (State.setRaw (s.setByte c (x % 256)) (c + 1) n (x / 256)).byte a = _
    rw [ih _ _ _ (by omega), setByte_byte_ne _ _ (by omega)]

/-- A number of `n` bytes read where it was written. -/
theorem setRaw_raw {s : State} (h : s.MemWf) (c n x : Nat) : (s.setRaw c n x).raw c n = x % 256 ^ n := by
  induction n generalizing s c x with
  | zero => simp [State.raw, Nat.mod_one]
  | succ n ih =>
    show (State.setRaw (s.setByte c (x % 256)) (c + 1) n (x / 256)).byte c + 256 *
      (State.setRaw (s.setByte c (x % 256)) (c + 1) n (x / 256)).raw (c + 1) n = _
    rw [ih (setByte_memWf h _ _), setRaw_byte_ne _ _ _ _ _ (by omega), setByte_byte_self h]
    rw [Nat.pow_succ, Nat.mul_comm (256 ^ n) 256, Nat.mod_mul]
    omega

/-- A number is read from bytes that nothing has changed. -/
theorem raw_congr {s t : State} (c n : Nat) (h : ∀ a, c ≤ a → a < c + n → t.byte a = s.byte a) : t.raw c n = s.raw c n := by
  induction n generalizing c with
  | zero => rfl
  | succ n ih =>
    show t.byte c + 256 * t.raw (c + 1) n = s.byte c + 256 * s.raw (c + 1) n
    rw [h c (by omega) (by omega), ih (c + 1) fun a h1 h2 => h a (by omega) (by omega)]

theorem clearRange_memWf {s : State} (h : s.MemWf) (lo n : Nat) : (clearRange s lo n).MemWf :=
  Memory.wfFrom_filter s.mem _ h

/-- What is folded over a state keeps the canonical form when each step does. -/
theorem foldl_memWf {α : Type} (f : State → α → State) (hf : ∀ t a, t.MemWf → (f t a).MemWf) (l : List α) {s : State}
    (h : s.MemWf) : (l.foldl f s).MemWf := by
  induction l generalizing s with
  | nil => exact h
  | cons a l ih => exact ih (hf _ _ h)

theorem writeBytes_memWf {s : State} (h : s.MemWf) (cells data : List Nat) : (writeBytes s cells data).MemWf :=
  foldl_memWf _ (fun t (e : Nat × Nat) ht => by split <;> [exact ht; exact setByte_memWf ht _ _]) (cells.zip data) h

theorem clearPoison_memWf {s : State} (h : s.MemWf) (cells : List Nat) : (clearPoison s cells).MemWf := h

theorem writeCells_memWf {s : State} (h : s.MemWf) (cells data : List Nat) : (writeCells s cells data).MemWf :=
  clearPoison_memWf (writeBytes_memWf h cells data) cells

/-! ### Numbers as bytes -/

theorem bytesOf_length (n x : Nat) : (bytesOf n x).length = n := by
  induction n generalizing x with
  | zero => rfl
  | succ n ih => simp [bytesOf, ih]

theorem numOf_bytesOf (n x : Nat) : numOf (bytesOf n x) = x % 256 ^ n := by
  induction n generalizing x with
  | zero => simp [bytesOf, numOf, Nat.mod_one]
  | succ n ih =>
    simp only [bytesOf, numOf, ih]
    rw [Nat.pow_succ, Nat.mul_comm (256 ^ n) 256, Nat.mod_mul]

end Sys2Proof.Machine
end

