-- ==== Sys2Proof/Laws/PerInstr.lean ====
section
/-!
SUPPORT. What holds of each instruction as syntax, one lemma per constructor: the word of a well-formed instruction decodes to that
instruction (04 R60 to R64). The lemmas fields0, fields1, … read the fields of one layout each.
-/

namespace Sys2Proof.Laws.RoundTrip

open Sys2Proof

set_option Elab.async false

/-- The word of a well-formed instruction has 32 bits and decodes to it; a step of another agent has no word. -/
def Statement (i : Instr) : Prop :=
  wellFormed i = true → ∀ w, encode i = some w → w < 2 ^ 32 ∧ decode w = .ok i

/-- A field of a number: `x` between the part above it and the part below it. -/
theorem part (n l y x a w : Nat) (h : w = (y * n + x) * l + a) (ha : a < l) (hx : x < n) : w / l % n = x := by
  have hl : 0 < l := by omega
  rw [h, Nat.mul_comm, Nat.mul_add_div hl, Nat.div_eq_of_lt ha, Nat.add_zero, Nat.mul_comm, Nat.mul_add_mod,
    Nat.mod_eq_of_lt hx]

theorem fields0 {w : Nat} (c c2 c1 c0 : Nat)
    (hc : c = c2 * 256 + c1 * 1 + c0 * 67108864 ∧ c2 < 262144 ∧ c1 < 256 ∧ c0 < 64)
    (hw : c = w) :
    w < 2 ^ 32 ∧ bits w 31 26 = c0 ∧ bits w 7 0 = c1 ∧ bits w 25 8 = c2 := by
  refine ⟨by omega, ?_, ?_, ?_⟩
  · exact part 64 67108864 (0) _ (c2 * 256 + c1 * 1) w (by omega) (by omega) hc.2.2.2
  · exact part 256 1 (c2 * 1 + c0 * 262144) _ (0) w (by omega) Nat.one_pos hc.2.2.1
  · exact part 262144 256 (c0 * 1) _ (c1 * 1) w (by omega) (by omega) hc.2.1

theorem fields1 {x0 x1 x2 w : Nat} (c c1 c0 : Nat)
    (hc : c = c1 * 1 + c0 * 67108864 ∧ c1 < 256 ∧ c0 < 64)
    (hw : c + x0 * 2 ^ 20 + x1 * 2 ^ 14 + x2 * 2 ^ 8 = w) (h : x0 < 64 ∧ x1 < 64 ∧ x2 < 64) :
    w < 2 ^ 32 ∧ bits w 31 26 = c0 ∧ bits w 7 0 = c1 ∧ bits w 25 20 = x0 ∧ bits w 19 14 = x1 ∧ bits w 13 8 = x2 := by
  refine ⟨by omega, ?_, ?_, ?_, ?_, ?_⟩
  · exact part 64 67108864 (0) _ (c1 * 1 + x0 * 1048576 + x1 * 16384 + x2 * 256) w (by omega) (by omega) hc.2.2
  · exact part 256 1 (c0 * 262144 + x0 * 4096 + x1 * 64 + x2 * 1) _ (0) w (by omega) Nat.one_pos hc.2.1
  · exact part 64 1048576 (c0 * 1) _ (c1 * 1 + x1 * 16384 + x2 * 256) w (by omega) (by omega) h.1
  · exact part 64 16384 (c0 * 64 + x0 * 1) _ (c1 * 1 + x2 * 256) w (by omega) (by omega) h.2.1
  · exact part 64 256 (c0 * 4096 + x0 * 64 + x1 * 1) _ (c1 * 1) w (by omega) (by omega) h.2.2

theorem fields2 {x0 x1 w : Nat} (c c1 c0 c2 : Nat)
    (hc : c = c1 * 1 + c0 * 67108864 + c2 * 16384 ∧ c1 < 256 ∧ c0 < 64 ∧ c2 < 64)
    (hw : c + x0 * 2 ^ 20 + x1 * 2 ^ 8 = w) (h : x0 < 64 ∧ x1 < 64) :
    w < 2 ^ 32 ∧ bits w 31 26 = c0 ∧ bits w 7 0 = c1 ∧ bits w 19 14 = c2 ∧ bits w 25 20 = x0 ∧ bits w 13 8 = x1 := by
  refine ⟨by omega, ?_, ?_, ?_, ?_, ?_⟩
  · exact part 64 67108864 (0) _ (c1 * 1 + c2 * 16384 + x0 * 1048576 + x1 * 256) w (by omega) (by omega) hc.2.2.1
  · exact part 256 1 (c0 * 262144 + c2 * 64 + x0 * 4096 + x1 * 1) _ (0) w (by omega) Nat.one_pos hc.2.1
  · exact part 64 16384 (c0 * 64 + x0 * 1) _ (c1 * 1 + x1 * 256) w (by omega) (by omega) hc.2.2.2
  · exact part 64 1048576 (c0 * 1) _ (c1 * 1 + c2 * 16384 + x1 * 256) w (by omega) (by omega) h.1
  · exact part 64 256 (c0 * 4096 + c2 * 1 + x0 * 64) _ (c1 * 1) w (by omega) (by omega) h.2

theorem fields3 {x0 w : Nat} (c c2 c1 c0 : Nat)
    (hc : c = c2 * 16384 + c1 * 1 + c0 * 67108864 ∧ c2 < 4096 ∧ c1 < 256 ∧ c0 < 64)
    (hw : c + x0 * 2 ^ 8 = w) (h : x0 < 64) :
    w < 2 ^ 32 ∧ bits w 31 26 = c0 ∧ bits w 7 0 = c1 ∧ bits w 25 14 = c2 ∧ bits w 13 8 = x0 := by
  refine ⟨by omega, ?_, ?_, ?_, ?_⟩
  · exact part 64 67108864 (0) _ (c2 * 16384 + c1 * 1 + x0 * 256) w (by omega) (by omega) hc.2.2.2
  · exact part 256 1 (c2 * 64 + c0 * 262144 + x0 * 1) _ (0) w (by omega) Nat.one_pos hc.2.2.1
  · exact part 4096 16384 (c0 * 1) _ (c1 * 1 + x0 * 256) w (by omega) (by omega) hc.2.1
  · exact part 64 256 (c2 * 1 + c0 * 4096) _ (c1 * 1) w (by omega) (by omega) h

theorem fields4 {x0 w : Nat} (c c1 c0 c2 c3 : Nat)
    (hc : c = c1 * 1 + c0 * 67108864 + c2 * 1048576 + c3 * 256 ∧ c1 < 256 ∧ c0 < 64 ∧ c2 < 64 ∧ c3 < 64)
    (hw : c + x0 * 2 ^ 14 = w) (h : x0 < 64) :
    w < 2 ^ 32 ∧ bits w 31 26 = c0 ∧ bits w 7 0 = c1 ∧ bits w 25 20 = c2 ∧ bits w 13 8 = c3 ∧ bits w 19 14 = x0 := by
  refine ⟨by omega, ?_, ?_, ?_, ?_, ?_⟩
  · exact part 64 67108864 (0) _ (c1 * 1 + c2 * 1048576 + c3 * 256 + x0 * 16384) w (by omega) (by omega) hc.2.2.1
  · exact part 256 1 (c0 * 262144 + c2 * 4096 + c3 * 1 + x0 * 64) _ (0) w (by omega) Nat.one_pos hc.2.1
  · exact part 64 1048576 (c0 * 1) _ (c1 * 1 + c3 * 256 + x0 * 16384) w (by omega) (by omega) hc.2.2.2.1
  · exact part 64 256 (c0 * 4096 + c2 * 64 + x0 * 1) _ (c1 * 1) w (by omega) (by omega) hc.2.2.2.2
  · exact part 64 16384 (c0 * 64 + c2 * 1) _ (c1 * 1 + c3 * 256) w (by omega) (by omega) h

theorem fields5 {x0 x1 w : Nat} (c c1 c0 c2 : Nat)
    (hc : c = c1 * 1 + c0 * 67108864 + c2 * 256 ∧ c1 < 256 ∧ c0 < 64 ∧ c2 < 64)
    (hw : c + x0 * 2 ^ 20 + x1 * 2 ^ 14 = w) (h : x0 < 64 ∧ x1 < 64) :
    w < 2 ^ 32 ∧ bits w 31 26 = c0 ∧ bits w 7 0 = c1 ∧ bits w 13 8 = c2 ∧ bits w 25 20 = x0 ∧ bits w 19 14 = x1 := by
  refine ⟨by omega, ?_, ?_, ?_, ?_, ?_⟩
  · exact part 64 67108864 (0) _ (c1 * 1 + c2 * 256 + x0 * 1048576 + x1 * 16384) w (by omega) (by omega) hc.2.2.1
  · exact part 256 1 (c0 * 262144 + c2 * 1 + x0 * 4096 + x1 * 64) _ (0) w (by omega) Nat.one_pos hc.2.1
  · exact part 64 256 (c0 * 4096 + x0 * 64 + x1 * 1) _ (c1 * 1) w (by omega) (by omega) hc.2.2.2
  · exact part 64 1048576 (c0 * 1) _ (c1 * 1 + c2 * 256 + x1 * 16384) w (by omega) (by omega) h.1
  · exact part 64 16384 (c0 * 64 + x0 * 1) _ (c1 * 1 + c2 * 256) w (by omega) (by omega) h.2

theorem fields6 {x0 x1 x2 w : Nat} (c c0 : Nat)
    (hc : c = c0 * 67108864 ∧ c0 < 64)
    (hw : c + x0 * 2 ^ 20 + x1 * 2 ^ 14 + x2 * 2 ^ 0 = w) (h : x0 < 64 ∧ x1 < 64 ∧ x2 < 16384) :
    w < 2 ^ 32 ∧ bits w 31 26 = c0 ∧ bits w 25 20 = x0 ∧ bits w 19 14 = x1 ∧ bits w 13 0 = x2 := by
  refine ⟨by omega, ?_, ?_, ?_, ?_⟩
  · exact part 64 67108864 (0) _ (x0 * 1048576 + x1 * 16384 + x2 * 1) w (by omega) (by omega) hc.2
  · exact part 64 1048576 (c0 * 1) _ (x1 * 16384 + x2 * 1) w (by omega) (by omega) h.1
  · exact part 64 16384 (c0 * 64 + x0 * 1) _ (x2 * 1) w (by omega) (by omega) h.2.1
  · exact part 16384 1 (c0 * 4096 + x0 * 64 + x1 * 1) _ (0) w (by omega) Nat.one_pos h.2.2

theorem fields7 {x0 x1 x2 w : Nat} (c c0 c2 c1 : Nat)
    (hc : c = c0 * 67108864 + c2 * 64 + c1 * 4096 ∧ c0 < 64 ∧ c2 < 64 ∧ c1 < 4)
    (hw : c + x0 * 2 ^ 20 + x1 * 2 ^ 14 + x2 * 2 ^ 0 = w) (h : x0 < 64 ∧ x1 < 64 ∧ x2 < 64) :
    w < 2 ^ 32 ∧ bits w 31 26 = c0 ∧ bits w 13 12 = c1 ∧ bits w 11 6 = c2 ∧ bits w 25 20 = x0 ∧ bits w 19 14 = x1 ∧ bits w 5 0 = x2 := by
  refine ⟨by omega, ?_, ?_, ?_, ?_, ?_, ?_⟩
  · exact part 64 67108864 (0) _ (c2 * 64 + c1 * 4096 + x0 * 1048576 + x1 * 16384 + x2 * 1) w (by omega) (by omega) hc.2.1
  · exact part 4 4096 (c0 * 4096 + x0 * 64 + x1 * 1) _ (c2 * 64 + x2 * 1) w (by omega) (by omega) hc.2.2.2
  · exact part 64 64 (c0 * 16384 + c1 * 1 + x0 * 256 + x1 * 4) _ (x2 * 1) w (by omega) (by omega) hc.2.2.1
  · exact part 64 1048576 (c0 * 1) _ (c2 * 64 + c1 * 4096 + x1 * 16384 + x2 * 1) w (by omega) (by omega) h.1
  · exact part 64 16384 (c0 * 64 + x0 * 1) _ (c2 * 64 + c1 * 4096 + x2 * 1) w (by omega) (by omega) h.2.1
  · exact part 64 1 (c0 * 1048576 + c2 * 1 + c1 * 64 + x0 * 16384 + x1 * 256) _ (0) w (by omega) Nat.one_pos h.2.2

theorem fields8 {x0 x1 w : Nat} (c c0 : Nat)
    (hc : c = c0 * 67108864 ∧ c0 < 64)
    (hw : c + x0 * 2 ^ 20 + x1 * 2 ^ 0 = w) (h : x0 < 64 ∧ x1 < 1048576) :
    w < 2 ^ 32 ∧ bits w 31 26 = c0 ∧ bits w 25 20 = x0 ∧ bits w 19 0 = x1 := by
  refine ⟨by omega, ?_, ?_, ?_⟩
  · exact part 64 67108864 (0) _ (x0 * 1048576 + x1 * 1) w (by omega) (by omega) hc.2
  · exact part 64 1048576 (c0 * 1) _ (x1 * 1) w (by omega) (by omega) h.1
  · exact part 1048576 1 (c0 * 64 + x0 * 1) _ (0) w (by omega) Nat.one_pos h.2

theorem fields9 {x0 x1 w : Nat} (c c0 c1 : Nat)
    (hc : c = c0 * 67108864 + c1 * 8388608 ∧ c0 < 64 ∧ c1 < 8)
    (hw : c + x0 * 2 ^ 17 + x1 * 2 ^ 0 = w) (h : x0 < 64 ∧ x1 < 131072) :
    w < 2 ^ 32 ∧ bits w 31 26 = c0 ∧ bits w 25 23 = c1 ∧ bits w 22 17 = x0 ∧ bits w 16 0 = x1 := by
  refine ⟨by omega, ?_, ?_, ?_, ?_⟩
  · exact part 64 67108864 (0) _ (c1 * 8388608 + x0 * 131072 + x1 * 1) w (by omega) (by omega) hc.2.1
  · exact part 8 8388608 (c0 * 1) _ (x0 * 131072 + x1 * 1) w (by omega) (by omega) hc.2.2
  · exact part 64 131072 (c0 * 8 + c1 * 1) _ (x1 * 1) w (by omega) (by omega) h.1
  · exact part 131072 1 (c0 * 512 + c1 * 64 + x0 * 1) _ (0) w (by omega) Nat.one_pos h.2

theorem fields10 {x0 w : Nat} (c c0 : Nat)
    (hc : c = c0 * 67108864 ∧ c0 < 64)
    (hw : c + x0 * 2 ^ 0 = w) (h : x0 < 67108864) :
    w < 2 ^ 32 ∧ bits w 31 26 = c0 ∧ bits w 25 0 = x0 := by
  refine ⟨by omega, ?_, ?_⟩
  · exact part 64 67108864 (0) _ (x0 * 1) w (by omega) (by omega) hc.2
  · exact part 67108864 1 (c0 * 1) _ (0) w (by omega) Nat.one_pos h

theorem fields11 {x0 x1 w : Nat} (c c1 c0 c2 : Nat)
    (hc : c = c1 * 1 + c0 * 67108864 + c2 * 1048576 ∧ c1 < 256 ∧ c0 < 64 ∧ c2 < 64)
    (hw : c + x0 * 2 ^ 14 + x1 * 2 ^ 8 = w) (h : x0 < 64 ∧ x1 < 64) :
    w < 2 ^ 32 ∧ bits w 31 26 = c0 ∧ bits w 7 0 = c1 ∧ bits w 25 20 = c2 ∧ bits w 19 14 = x0 ∧ bits w 13 8 = x1 := by
  refine ⟨by omega, ?_, ?_, ?_, ?_, ?_⟩
  · exact part 64 67108864 (0) _ (c1 * 1 + c2 * 1048576 + x0 * 16384 + x1 * 256) w (by omega) (by omega) hc.2.2.1
  · exact part 256 1 (c0 * 262144 + c2 * 4096 + x0 * 64 + x1 * 1) _ (0) w (by omega) Nat.one_pos hc.2.1
  · exact part 64 1048576 (c0 * 1) _ (c1 * 1 + x0 * 16384 + x1 * 256) w (by omega) (by omega) hc.2.2.2
  · exact part 64 16384 (c0 * 64 + c2 * 1) _ (c1 * 1 + x1 * 256) w (by omega) (by omega) h.1
  · exact part 64 256 (c0 * 4096 + c2 * 64 + x0 * 1) _ (c1 * 1) w (by omega) (by omega) h.2

theorem fields12 {x0 w : Nat} (c c0 c1 : Nat)
    (hc : c = c0 * 67108864 + c1 * 1048576 ∧ c0 < 64 ∧ c1 < 64)
    (hw : c + x0 * 2 ^ 0 = w) (h : x0 < 1048576) :
    w < 2 ^ 32 ∧ bits w 31 26 = c0 ∧ bits w 25 20 = c1 ∧ bits w 19 0 = x0 := by
  refine ⟨by omega, ?_, ?_, ?_⟩
  · exact part 64 67108864 (0) _ (c1 * 1048576 + x0 * 1) w (by omega) (by omega) hc.2.1
  · exact part 64 1048576 (c0 * 1) _ (x0 * 1) w (by omega) (by omega) hc.2.2
  · exact part 1048576 1 (c0 * 64 + c1 * 1) _ (0) w (by omega) Nat.one_pos h

theorem fields13 {x0 x1 x2 x3 x4 w : Nat} (c c1 c0 : Nat)
    (hc : c = c1 * 1 + c0 * 67108864 ∧ c1 < 128 ∧ c0 < 64)
    (hw : c + x0 * 2 ^ 22 + x1 * 2 ^ 16 + x2 * 2 ^ 13 + x3 * 2 ^ 10 + x4 * 2 ^ 7 = w) (h : x0 < 16 ∧ x1 < 64 ∧ x2 < 8 ∧ x3 < 8 ∧ x4 < 8) :
    w < 2 ^ 32 ∧ bits w 31 26 = c0 ∧ bits w 6 0 = c1 ∧ bits w 25 22 = x0 ∧ bits w 21 16 = x1 ∧ bits w 15 13 = x2 ∧ bits w 12 10 = x3 ∧ bits w 9 7 = x4 := by
  refine ⟨by omega, ?_, ?_, ?_, ?_, ?_, ?_, ?_⟩
  · exact part 64 67108864 (0) _ (c1 * 1 + x0 * 4194304 + x1 * 65536 + x2 * 8192 + x3 * 1024 + x4 * 128) w (by omega) (by omega) hc.2.2
  · exact part 128 1 (c0 * 524288 + x0 * 32768 + x1 * 512 + x2 * 64 + x3 * 8 + x4 * 1) _ (0) w (by omega) Nat.one_pos hc.2.1
  · exact part 16 4194304 (c0 * 1) _ (c1 * 1 + x1 * 65536 + x2 * 8192 + x3 * 1024 + x4 * 128) w (by omega) (by omega) h.1
  · exact part 64 65536 (c0 * 16 + x0 * 1) _ (c1 * 1 + x2 * 8192 + x3 * 1024 + x4 * 128) w (by omega) (by omega) h.2.1
  · exact part 8 8192 (c0 * 1024 + x0 * 64 + x1 * 1) _ (c1 * 1 + x3 * 1024 + x4 * 128) w (by omega) (by omega) h.2.2.1
  · exact part 8 1024 (c0 * 8192 + x0 * 512 + x1 * 8 + x2 * 1) _ (c1 * 1 + x4 * 128) w (by omega) (by omega) h.2.2.2.1
  · exact part 8 128 (c0 * 65536 + x0 * 4096 + x1 * 64 + x2 * 8 + x3 * 1) _ (c1 * 1) w (by omega) (by omega) h.2.2.2.2

theorem fields14 {x0 w : Nat} (c c2 c1 c0 : Nat)
    (hc : c = c2 * 256 + c1 * 1 + c0 * 67108864 ∧ c2 < 4096 ∧ c1 < 256 ∧ c0 < 64)
    (hw : c + x0 * 2 ^ 20 = w) (h : x0 < 64) :
    w < 2 ^ 32 ∧ bits w 31 26 = c0 ∧ bits w 7 0 = c1 ∧ bits w 19 8 = c2 ∧ bits w 25 20 = x0 := by
  refine ⟨by omega, ?_, ?_, ?_, ?_⟩
  · exact part 64 67108864 (0) _ (c2 * 256 + c1 * 1 + x0 * 1048576) w (by omega) (by omega) hc.2.2.2
  · exact part 256 1 (c2 * 1 + c0 * 262144 + x0 * 4096) _ (0) w (by omega) Nat.one_pos hc.2.2.1
  · exact part 4096 256 (c0 * 64 + x0 * 1) _ (c1 * 1) w (by omega) (by omega) hc.2.1
  · exact part 64 1048576 (c0 * 1) _ (c2 * 256 + c1 * 1) w (by omega) (by omega) h

theorem fields15 {x0 x1 x2 x3 w : Nat} (c c1 c0 : Nat)
    (hc : c = c1 * 1 + c0 * 67108864 ∧ c1 < 256 ∧ c0 < 64)
    (hw : c + x0 * 2 ^ 20 + x1 * 2 ^ 14 + x2 * 2 ^ 13 + x3 * 2 ^ 8 = w) (h : x0 < 64 ∧ x1 < 64 ∧ x2 < 2 ∧ x3 < 32) :
    w < 2 ^ 32 ∧ bits w 31 26 = c0 ∧ bits w 7 0 = c1 ∧ bits w 25 20 = x0 ∧ bits w 19 14 = x1 ∧ bits w 13 13 = x2 ∧ bits w 12 8 = x3 := by
  refine ⟨by omega, ?_, ?_, ?_, ?_, ?_, ?_⟩
  · exact part 64 67108864 (0) _ (c1 * 1 + x0 * 1048576 + x1 * 16384 + x2 * 8192 + x3 * 256) w (by omega) (by omega) hc.2.2
  · exact part 256 1 (c0 * 262144 + x0 * 4096 + x1 * 64 + x2 * 32 + x3 * 1) _ (0) w (by omega) Nat.one_pos hc.2.1
  · exact part 64 1048576 (c0 * 1) _ (c1 * 1 + x1 * 16384 + x2 * 8192 + x3 * 256) w (by omega) (by omega) h.1
  · exact part 64 16384 (c0 * 64 + x0 * 1) _ (c1 * 1 + x2 * 8192 + x3 * 256) w (by omega) (by omega) h.2.1
  · exact part 2 8192 (c0 * 4096 + x0 * 64 + x1 * 1) _ (c1 * 1 + x3 * 256) w (by omega) (by omega) h.2.2.1
  · exact part 32 256 (c0 * 8192 + x0 * 128 + x1 * 2 + x2 * 1) _ (c1 * 1) w (by omega) (by omega) h.2.2.2

theorem fields16 {x0 x1 x2 x3 w : Nat} (c c0 c1 : Nat)
    (hc : c = c0 * 67108864 + c1 * 512 ∧ c0 < 64 ∧ c1 < 8)
    (hw : c + x0 * 2 ^ 20 + x1 * 2 ^ 14 + x2 * 2 ^ 12 + x3 * 2 ^ 0 = w) (h : x0 < 64 ∧ x1 < 64 ∧ x2 < 4 ∧ x3 < 512) :
    w < 2 ^ 32 ∧ bits w 31 26 = c0 ∧ bits w 11 9 = c1 ∧ bits w 25 20 = x0 ∧ bits w 19 14 = x1 ∧ bits w 13 12 = x2 ∧ bits w 8 0 = x3 := by
  refine ⟨by omega, ?_, ?_, ?_, ?_, ?_, ?_⟩
  · exact part 64 67108864 (0) _ (c1 * 512 + x0 * 1048576 + x1 * 16384 + x2 * 4096 + x3 * 1) w (by omega) (by omega) hc.2.1
  · exact part 8 512 (c0 * 16384 + x0 * 256 + x1 * 4 + x2 * 1) _ (x3 * 1) w (by omega) (by omega) hc.2.2
  · exact part 64 1048576 (c0 * 1) _ (c1 * 512 + x1 * 16384 + x2 * 4096 + x3 * 1) w (by omega) (by omega) h.1
  · exact part 64 16384 (c0 * 64 + x0 * 1) _ (c1 * 512 + x2 * 4096 + x3 * 1) w (by omega) (by omega) h.2.1
  · exact part 4 4096 (c0 * 4096 + x0 * 64 + x1 * 1) _ (c1 * 512 + x3 * 1) w (by omega) (by omega) h.2.2.1
  · exact part 512 1 (c0 * 131072 + c1 * 1 + x0 * 2048 + x1 * 32 + x2 * 8) _ (0) w (by omega) Nat.one_pos h.2.2.2

theorem fields17 {x0 x1 x2 x3 x4 x5 w : Nat} (c c0 c1 : Nat)
    (hc : c = c0 * 67108864 + c1 * 16 ∧ c0 < 64 ∧ c1 < 4)
    (hw : c + x0 * 2 ^ 20 + x1 * 2 ^ 14 + x2 * 2 ^ 8 + x3 * 2 ^ 6 + x4 * 2 ^ 3 + x5 * 2 ^ 0 = w) (h : x0 < 64 ∧ x1 < 64 ∧ x2 < 64 ∧ x3 < 4 ∧ x4 < 2 ∧ x5 < 8) :
    w < 2 ^ 32 ∧ bits w 31 26 = c0 ∧ bits w 5 4 = c1 ∧ bits w 25 20 = x0 ∧ bits w 19 14 = x1 ∧ bits w 13 8 = x2 ∧ bits w 7 6 = x3 ∧ bits w 3 3 = x4 ∧ bits w 2 0 = x5 := by
  refine ⟨by omega, ?_, ?_, ?_, ?_, ?_, ?_, ?_, ?_⟩
  · exact part 64 67108864 (0) _ (c1 * 16 + x0 * 1048576 + x1 * 16384 + x2 * 256 + x3 * 64 + x4 * 8 + x5 * 1) w (by omega) (by omega) hc.2.1
  · exact part 4 16 (c0 * 1048576 + x0 * 16384 + x1 * 256 + x2 * 4 + x3 * 1) _ (x4 * 8 + x5 * 1) w (by omega) (by omega) hc.2.2
  · exact part 64 1048576 (c0 * 1) _ (c1 * 16 + x1 * 16384 + x2 * 256 + x3 * 64 + x4 * 8 + x5 * 1) w (by omega) (by omega) h.1
  · exact part 64 16384 (c0 * 64 + x0 * 1) _ (c1 * 16 + x2 * 256 + x3 * 64 + x4 * 8 + x5 * 1) w (by omega) (by omega) h.2.1
  · exact part 64 256 (c0 * 4096 + x0 * 64 + x1 * 1) _ (c1 * 16 + x3 * 64 + x4 * 8 + x5 * 1) w (by omega) (by omega) h.2.2.1
  · exact part 4 64 (c0 * 262144 + x0 * 4096 + x1 * 64 + x2 * 1) _ (c1 * 16 + x4 * 8 + x5 * 1) w (by omega) (by omega) h.2.2.2.1
  · exact part 2 8 (c0 * 4194304 + c1 * 1 + x0 * 65536 + x1 * 1024 + x2 * 16 + x3 * 4) _ (x5 * 1) w (by omega) (by omega) h.2.2.2.2.1
  · exact part 8 1 (c0 * 8388608 + c1 * 2 + x0 * 131072 + x1 * 2048 + x2 * 32 + x3 * 8 + x4 * 1) _ (0) w (by omega) Nat.one_pos h.2.2.2.2.2

theorem fields18 {x0 w : Nat} (c c2 c0 c1 : Nat)
    (hc : c = c2 * 64 + c0 * 67108864 + c1 * 8 ∧ c2 < 1048576 ∧ c0 < 64 ∧ c1 < 8)
    (hw : c + x0 * 2 ^ 0 = w) (h : x0 < 8) :
    w < 2 ^ 32 ∧ bits w 31 26 = c0 ∧ bits w 5 3 = c1 ∧ bits w 25 6 = c2 ∧ bits w 2 0 = x0 := by
  refine ⟨by omega, ?_, ?_, ?_, ?_⟩
  · exact part 64 67108864 (0) _ (c2 * 64 + c1 * 8 + x0 * 1) w (by omega) (by omega) hc.2.2.1
  · exact part 8 8 (c2 * 1 + c0 * 1048576) _ (x0 * 1) w (by omega) (by omega) hc.2.2.2
  · exact part 1048576 64 (c0 * 1) _ (c1 * 8 + x0 * 1) w (by omega) (by omega) hc.2.1
  · exact part 8 1 (c2 * 8 + c0 * 8388608 + c1 * 1) _ (0) w (by omega) Nat.one_pos h

theorem fields19 {x0 x1 x2 x3 x4 w : Nat} (c c0 c1 c2 : Nat)
    (hc : c = c0 * 67108864 + c1 * 1 + c2 * 128 ∧ c0 < 64 ∧ c1 < 16 ∧ c2 < 2)
    (hw : c + x0 * 2 ^ 20 + x1 * 2 ^ 14 + x2 * 2 ^ 8 + x3 * 2 ^ 5 + x4 * 2 ^ 4 = w) (h : x0 < 64 ∧ x1 < 64 ∧ x2 < 64 ∧ x3 < 4 ∧ x4 < 2) :
    w < 2 ^ 32 ∧ bits w 31 26 = c0 ∧ bits w 3 0 = c1 ∧ bits w 7 7 = c2 ∧ bits w 25 20 = x0 ∧ bits w 19 14 = x1 ∧ bits w 13 8 = x2 ∧ bits w 6 5 = x3 ∧ bits w 4 4 = x4 := by
  refine ⟨by omega, ?_, ?_, ?_, ?_, ?_, ?_, ?_, ?_⟩
  · exact part 64 67108864 (0) _ (c1 * 1 + c2 * 128 + x0 * 1048576 + x1 * 16384 + x2 * 256 + x3 * 32 + x4 * 16) w (by omega) (by omega) hc.2.1
  · exact part 16 1 (c0 * 4194304 + c2 * 8 + x0 * 65536 + x1 * 1024 + x2 * 16 + x3 * 2 + x4 * 1) _ (0) w (by omega) Nat.one_pos hc.2.2.1
  · exact part 2 128 (c0 * 262144 + x0 * 4096 + x1 * 64 + x2 * 1) _ (c1 * 1 + x3 * 32 + x4 * 16) w (by omega) (by omega) hc.2.2.2
  · exact part 64 1048576 (c0 * 1) _ (c1 * 1 + c2 * 128 + x1 * 16384 + x2 * 256 + x3 * 32 + x4 * 16) w (by omega) (by omega) h.1
  · exact part 64 16384 (c0 * 64 + x0 * 1) _ (c1 * 1 + c2 * 128 + x2 * 256 + x3 * 32 + x4 * 16) w (by omega) (by omega) h.2.1
  · exact part 64 256 (c0 * 4096 + x0 * 64 + x1 * 1) _ (c1 * 1 + c2 * 128 + x3 * 32 + x4 * 16) w (by omega) (by omega) h.2.2.1
  · exact part 4 32 (c0 * 524288 + c2 * 1 + x0 * 8192 + x1 * 128 + x2 * 2) _ (c1 * 1 + x4 * 16) w (by omega) (by omega) h.2.2.2.1
  · exact part 2 16 (c0 * 2097152 + c2 * 4 + x0 * 32768 + x1 * 512 + x2 * 8 + x3 * 1) _ (c1 * 1) w (by omega) (by omega) h.2.2.2.2

theorem fields20 {x0 x1 x2 x3 w : Nat} (c c0 c1 : Nat)
    (hc : c = c0 * 67108864 + c1 * 4 ∧ c0 < 64 ∧ c1 < 64)
    (hw : c + x0 * 2 ^ 20 + x1 * 2 ^ 14 + x2 * 2 ^ 8 + x3 * 2 ^ 0 = w) (h : x0 < 64 ∧ x1 < 64 ∧ x2 < 64 ∧ x3 < 4) :
    w < 2 ^ 32 ∧ bits w 31 26 = c0 ∧ bits w 7 2 = c1 ∧ bits w 25 20 = x0 ∧ bits w 19 14 = x1 ∧ bits w 13 8 = x2 ∧ bits w 1 0 = x3 := by
  refine ⟨by omega, ?_, ?_, ?_, ?_, ?_, ?_⟩
  · exact part 64 67108864 (0) _ (c1 * 4 + x0 * 1048576 + x1 * 16384 + x2 * 256 + x3 * 1) w (by omega) (by omega) hc.2.1
  · exact part 64 4 (c0 * 262144 + x0 * 4096 + x1 * 64 + x2 * 1) _ (x3 * 1) w (by omega) (by omega) hc.2.2
  · exact part 64 1048576 (c0 * 1) _ (c1 * 4 + x1 * 16384 + x2 * 256 + x3 * 1) w (by omega) (by omega) h.1
  · exact part 64 16384 (c0 * 64 + x0 * 1) _ (c1 * 4 + x2 * 256 + x3 * 1) w (by omega) (by omega) h.2.1
  · exact part 64 256 (c0 * 4096 + x0 * 64 + x1 * 1) _ (c1 * 4 + x3 * 1) w (by omega) (by omega) h.2.2.1
  · exact part 4 1 (c0 * 16777216 + c1 * 1 + x0 * 262144 + x1 * 4096 + x2 * 64) _ (0) w (by omega) Nat.one_pos h.2.2.2

theorem fields21 {x0 x1 x2 w : Nat} (c c1 c0 c2 : Nat)
    (hc : c = c1 * 1 + c0 * 67108864 + c2 * 33554432 ∧ c1 < 256 ∧ c0 < 64 ∧ c2 < 2)
    (hw : c + x0 * 2 ^ 20 + x1 * 2 ^ 14 + x2 * 2 ^ 8 = w) (h : x0 < 32 ∧ x1 < 64 ∧ x2 < 64) :
    w < 2 ^ 32 ∧ bits w 31 26 = c0 ∧ bits w 7 0 = c1 ∧ bits w 25 25 = c2 ∧ bits w 24 20 = x0 ∧ bits w 19 14 = x1 ∧ bits w 13 8 = x2 := by
  refine ⟨by omega, ?_, ?_, ?_, ?_, ?_, ?_⟩
  · exact part 64 67108864 (0) _ (c1 * 1 + c2 * 33554432 + x0 * 1048576 + x1 * 16384 + x2 * 256) w (by omega) (by omega) hc.2.2.1
  · exact part 256 1 (c0 * 262144 + c2 * 131072 + x0 * 4096 + x1 * 64 + x2 * 1) _ (0) w (by omega) Nat.one_pos hc.2.1
  · exact part 2 33554432 (c0 * 1) _ (c1 * 1 + x0 * 1048576 + x1 * 16384 + x2 * 256) w (by omega) (by omega) hc.2.2.2
  · exact part 32 1048576 (c0 * 2 + c2 * 1) _ (c1 * 1 + x1 * 16384 + x2 * 256) w (by omega) (by omega) h.1
  · exact part 64 16384 (c0 * 64 + c2 * 32 + x0 * 1) _ (c1 * 1 + x2 * 256) w (by omega) (by omega) h.2.1
  · exact part 64 256 (c0 * 4096 + c2 * 2048 + x0 * 64 + x1 * 1) _ (c1 * 1) w (by omega) (by omega) h.2.2

theorem fields22 {x0 x1 x2 x3 x4 w : Nat} (c c0 c1 : Nat)
    (hc : c = c0 * 67108864 + c1 * 1 ∧ c0 < 64 ∧ c1 < 64)
    (hw : c + x0 * 2 ^ 21 + x1 * 2 ^ 16 + x2 * 2 ^ 11 + x3 * 2 ^ 8 + x4 * 2 ^ 6 = w) (h : x0 < 32 ∧ x1 < 32 ∧ x2 < 32 ∧ x3 < 8 ∧ x4 < 4) :
    w < 2 ^ 32 ∧ bits w 31 26 = c0 ∧ bits w 5 0 = c1 ∧ bits w 25 21 = x0 ∧ bits w 20 16 = x1 ∧ bits w 15 11 = x2 ∧ bits w 10 8 = x3 ∧ bits w 7 6 = x4 := by
  refine ⟨by omega, ?_, ?_, ?_, ?_, ?_, ?_, ?_⟩
  · exact part 64 67108864 (0) _ (c1 * 1 + x0 * 2097152 + x1 * 65536 + x2 * 2048 + x3 * 256 + x4 * 64) w (by omega) (by omega) hc.2.1
  · exact part 64 1 (c0 * 1048576 + x0 * 32768 + x1 * 1024 + x2 * 32 + x3 * 4 + x4 * 1) _ (0) w (by omega) Nat.one_pos hc.2.2
  · exact part 32 2097152 (c0 * 1) _ (c1 * 1 + x1 * 65536 + x2 * 2048 + x3 * 256 + x4 * 64) w (by omega) (by omega) h.1
  · exact part 32 65536 (c0 * 32 + x0 * 1) _ (c1 * 1 + x2 * 2048 + x3 * 256 + x4 * 64) w (by omega) (by omega) h.2.1
  · exact part 32 2048 (c0 * 1024 + x0 * 32 + x1 * 1) _ (c1 * 1 + x3 * 256 + x4 * 64) w (by omega) (by omega) h.2.2.1
  · exact part 8 256 (c0 * 32768 + x0 * 1024 + x1 * 32 + x2 * 1) _ (c1 * 1 + x4 * 64) w (by omega) (by omega) h.2.2.2.1
  · exact part 4 64 (c0 * 262144 + x0 * 8192 + x1 * 256 + x2 * 8 + x3 * 1) _ (c1 * 1) w (by omega) (by omega) h.2.2.2.2

theorem fields23 {x0 x1 x2 x3 w : Nat} (c c0 c1 c2 : Nat)
    (hc : c = c0 * 67108864 + c1 * 1 + c2 * 2048 ∧ c0 < 64 ∧ c1 < 64 ∧ c2 < 32)
    (hw : c + x0 * 2 ^ 21 + x1 * 2 ^ 16 + x2 * 2 ^ 8 + x3 * 2 ^ 6 = w) (h : x0 < 32 ∧ x1 < 32 ∧ x2 < 8 ∧ x3 < 4) :
    w < 2 ^ 32 ∧ bits w 31 26 = c0 ∧ bits w 5 0 = c1 ∧ bits w 15 11 = c2 ∧ bits w 25 21 = x0 ∧ bits w 20 16 = x1 ∧ bits w 10 8 = x2 ∧ bits w 7 6 = x3 := by
  refine ⟨by omega, ?_, ?_, ?_, ?_, ?_, ?_, ?_⟩
  · exact part 64 67108864 (0) _ (c1 * 1 + c2 * 2048 + x0 * 2097152 + x1 * 65536 + x2 * 256 + x3 * 64) w (by omega) (by omega) hc.2.1
  · exact part 64 1 (c0 * 1048576 + c2 * 32 + x0 * 32768 + x1 * 1024 + x2 * 4 + x3 * 1) _ (0) w (by omega) Nat.one_pos hc.2.2.1
  · exact part 32 2048 (c0 * 1024 + x0 * 32 + x1 * 1) _ (c1 * 1 + x2 * 256 + x3 * 64) w (by omega) (by omega) hc.2.2.2
  · exact part 32 2097152 (c0 * 1) _ (c1 * 1 + c2 * 2048 + x1 * 65536 + x2 * 256 + x3 * 64) w (by omega) (by omega) h.1
  · exact part 32 65536 (c0 * 32 + x0 * 1) _ (c1 * 1 + c2 * 2048 + x2 * 256 + x3 * 64) w (by omega) (by omega) h.2.1
  · exact part 8 256 (c0 * 32768 + c2 * 1 + x0 * 1024 + x1 * 32) _ (c1 * 1 + x3 * 64) w (by omega) (by omega) h.2.2.1
  · exact part 4 64 (c0 * 262144 + c2 * 8 + x0 * 8192 + x1 * 256 + x2 * 1) _ (c1 * 1) w (by omega) (by omega) h.2.2.2

theorem fields24 {x0 x1 x2 x3 w : Nat} (c c1 c0 : Nat)
    (hc : c = c1 * 1 + c0 * 67108864 ∧ c1 < 256 ∧ c0 < 64)
    (hw : c + x0 * 2 ^ 21 + x1 * 2 ^ 16 + x2 * 2 ^ 11 + x3 * 2 ^ 8 = w) (h : x0 < 32 ∧ x1 < 32 ∧ x2 < 32 ∧ x3 < 8) :
    w < 2 ^ 32 ∧ bits w 31 26 = c0 ∧ bits w 7 0 = c1 ∧ bits w 25 21 = x0 ∧ bits w 20 16 = x1 ∧ bits w 15 11 = x2 ∧ bits w 10 8 = x3 := by
  refine ⟨by omega, ?_, ?_, ?_, ?_, ?_, ?_⟩
  · exact part 64 67108864 (0) _ (c1 * 1 + x0 * 2097152 + x1 * 65536 + x2 * 2048 + x3 * 256) w (by omega) (by omega) hc.2.2
  · exact part 256 1 (c0 * 262144 + x0 * 8192 + x1 * 256 + x2 * 8 + x3 * 1) _ (0) w (by omega) Nat.one_pos hc.2.1
  · exact part 32 2097152 (c0 * 1) _ (c1 * 1 + x1 * 65536 + x2 * 2048 + x3 * 256) w (by omega) (by omega) h.1
  · exact part 32 65536 (c0 * 32 + x0 * 1) _ (c1 * 1 + x2 * 2048 + x3 * 256) w (by omega) (by omega) h.2.1
  · exact part 32 2048 (c0 * 1024 + x0 * 32 + x1 * 1) _ (c1 * 1 + x3 * 256) w (by omega) (by omega) h.2.2.1
  · exact part 8 256 (c0 * 32768 + x0 * 1024 + x1 * 32 + x2 * 1) _ (c1 * 1) w (by omega) (by omega) h.2.2.2

theorem fields25 {x0 x1 x2 w : Nat} (c c1 c0 c2 : Nat)
    (hc : c = c1 * 1 + c0 * 67108864 + c2 * 2048 ∧ c1 < 256 ∧ c0 < 64 ∧ c2 < 32)
    (hw : c + x0 * 2 ^ 21 + x1 * 2 ^ 16 + x2 * 2 ^ 8 = w) (h : x0 < 32 ∧ x1 < 32 ∧ x2 < 8) :
    w < 2 ^ 32 ∧ bits w 31 26 = c0 ∧ bits w 7 0 = c1 ∧ bits w 15 11 = c2 ∧ bits w 25 21 = x0 ∧ bits w 20 16 = x1 ∧ bits w 10 8 = x2 := by
  refine ⟨by omega, ?_, ?_, ?_, ?_, ?_, ?_⟩
  · exact part 64 67108864 (0) _ (c1 * 1 + c2 * 2048 + x0 * 2097152 + x1 * 65536 + x2 * 256) w (by omega) (by omega) hc.2.2.1
  · exact part 256 1 (c0 * 262144 + c2 * 8 + x0 * 8192 + x1 * 256 + x2 * 1) _ (0) w (by omega) Nat.one_pos hc.2.1
  · exact part 32 2048 (c0 * 1024 + x0 * 32 + x1 * 1) _ (c1 * 1 + x2 * 256) w (by omega) (by omega) hc.2.2.2
  · exact part 32 2097152 (c0 * 1) _ (c1 * 1 + c2 * 2048 + x1 * 65536 + x2 * 256) w (by omega) (by omega) h.1
  · exact part 32 65536 (c0 * 32 + x0 * 1) _ (c1 * 1 + c2 * 2048 + x2 * 256) w (by omega) (by omega) h.2.1
  · exact part 8 256 (c0 * 32768 + c2 * 1 + x0 * 1024 + x1 * 32) _ (c1 * 1) w (by omega) (by omega) h.2.2

theorem fields26 {x0 x1 x2 x3 x4 w : Nat} (c c0 c1 : Nat)
    (hc : c = c0 * 67108864 + c1 * 1 ∧ c0 < 64 ∧ c1 < 8)
    (hw : c + x0 * 2 ^ 21 + x1 * 2 ^ 16 + x2 * 2 ^ 11 + x3 * 2 ^ 6 + x4 * 2 ^ 3 = w) (h : x0 < 32 ∧ x1 < 32 ∧ x2 < 32 ∧ x3 < 32 ∧ x4 < 8) :
    w < 2 ^ 32 ∧ bits w 31 26 = c0 ∧ bits w 2 0 = c1 ∧ bits w 25 21 = x0 ∧ bits w 20 16 = x1 ∧ bits w 15 11 = x2 ∧ bits w 10 6 = x3 ∧ bits w 5 3 = x4 := by
  refine ⟨by omega, ?_, ?_, ?_, ?_, ?_, ?_, ?_⟩
  · exact part 64 67108864 (0) _ (c1 * 1 + x0 * 2097152 + x1 * 65536 + x2 * 2048 + x3 * 64 + x4 * 8) w (by omega) (by omega) hc.2.1
  · exact part 8 1 (c0 * 8388608 + x0 * 262144 + x1 * 8192 + x2 * 256 + x3 * 8 + x4 * 1) _ (0) w (by omega) Nat.one_pos hc.2.2
  · exact part 32 2097152 (c0 * 1) _ (c1 * 1 + x1 * 65536 + x2 * 2048 + x3 * 64 + x4 * 8) w (by omega) (by omega) h.1
  · exact part 32 65536 (c0 * 32 + x0 * 1) _ (c1 * 1 + x2 * 2048 + x3 * 64 + x4 * 8) w (by omega) (by omega) h.2.1
  · exact part 32 2048 (c0 * 1024 + x0 * 32 + x1 * 1) _ (c1 * 1 + x3 * 64 + x4 * 8) w (by omega) (by omega) h.2.2.1
  · exact part 32 64 (c0 * 32768 + x0 * 1024 + x1 * 32 + x2 * 1) _ (c1 * 1 + x4 * 8) w (by omega) (by omega) h.2.2.2.1
  · exact part 8 8 (c0 * 1048576 + x0 * 32768 + x1 * 1024 + x2 * 32 + x3 * 1) _ (c1 * 1) w (by omega) (by omega) h.2.2.2.2

theorem fields27 {x0 x1 x2 x3 x4 x5 w : Nat} (c c0 c1 c2 c3 : Nat)
    (hc : c = c0 * 67108864 + c1 * 1 + c2 * 16777216 + c3 * 32 ∧ c0 < 64 ∧ c1 < 4 ∧ c2 < 4 ∧ c3 < 2)
    (hw : c + x0 * 2 ^ 21 + x1 * 2 ^ 16 + x2 * 2 ^ 11 + x3 * 2 ^ 8 + x4 * 2 ^ 6 + x5 * 2 ^ 2 = w) (h : x0 < 8 ∧ x1 < 32 ∧ x2 < 32 ∧ x3 < 8 ∧ x4 < 4 ∧ x5 < 8) :
    w < 2 ^ 32 ∧ bits w 31 26 = c0 ∧ bits w 1 0 = c1 ∧ bits w 25 24 = c2 ∧ bits w 5 5 = c3 ∧ bits w 23 21 = x0 ∧ bits w 20 16 = x1 ∧ bits w 15 11 = x2 ∧ bits w 10 8 = x3 ∧ bits w 7 6 = x4 ∧ bits w 4 2 = x5 := by
  refine ⟨by omega, ?_, ?_, ?_, ?_, ?_, ?_, ?_, ?_, ?_, ?_⟩
  · exact part 64 67108864 (0) _ (c1 * 1 + c2 * 16777216 + c3 * 32 + x0 * 2097152 + x1 * 65536 + x2 * 2048 + x3 * 256 + x4 * 64 + x5 * 4) w (by omega) (by omega) hc.2.1
  · exact part 4 1 (c0 * 16777216 + c2 * 4194304 + c3 * 8 + x0 * 524288 + x1 * 16384 + x2 * 512 + x3 * 64 + x4 * 16 + x5 * 1) _ (0) w (by omega) Nat.one_pos hc.2.2.1
  · exact part 4 16777216 (c0 * 1) _ (c1 * 1 + c3 * 32 + x0 * 2097152 + x1 * 65536 + x2 * 2048 + x3 * 256 + x4 * 64 + x5 * 4) w (by omega) (by omega) hc.2.2.2.1
  · exact part 2 32 (c0 * 1048576 + c2 * 262144 + x0 * 32768 + x1 * 1024 + x2 * 32 + x3 * 4 + x4 * 1) _ (c1 * 1 + x5 * 4) w (by omega) (by omega) hc.2.2.2.2
  · exact part 8 2097152 (c0 * 4 + c2 * 1) _ (c1 * 1 + c3 * 32 + x1 * 65536 + x2 * 2048 + x3 * 256 + x4 * 64 + x5 * 4) w (by omega) (by omega) h.1
  · exact part 32 65536 (c0 * 32 + c2 * 8 + x0 * 1) _ (c1 * 1 + c3 * 32 + x2 * 2048 + x3 * 256 + x4 * 64 + x5 * 4) w (by omega) (by omega) h.2.1
  · exact part 32 2048 (c0 * 1024 + c2 * 256 + x0 * 32 + x1 * 1) _ (c1 * 1 + c3 * 32 + x3 * 256 + x4 * 64 + x5 * 4) w (by omega) (by omega) h.2.2.1
  · exact part 8 256 (c0 * 32768 + c2 * 8192 + x0 * 1024 + x1 * 32 + x2 * 1) _ (c1 * 1 + c3 * 32 + x4 * 64 + x5 * 4) w (by omega) (by omega) h.2.2.2.1
  · exact part 4 64 (c0 * 262144 + c2 * 65536 + x0 * 8192 + x1 * 256 + x2 * 8 + x3 * 1) _ (c1 * 1 + c3 * 32 + x5 * 4) w (by omega) (by omega) h.2.2.2.2.1
  · exact part 8 4 (c0 * 2097152 + c2 * 524288 + c3 * 1 + x0 * 65536 + x1 * 2048 + x2 * 64 + x3 * 8 + x4 * 2) _ (c1 * 1) w (by omega) (by omega) h.2.2.2.2.2

theorem fields28 {x0 x1 x2 x3 x4 w : Nat} (c c0 c3 c1 c2 : Nat)
    (hc : c = c0 * 67108864 + c3 * 32 + c1 * 1 + c2 * 16777216 ∧ c0 < 64 ∧ c3 < 8 ∧ c1 < 4 ∧ c2 < 4)
    (hw : c + x0 * 2 ^ 21 + x1 * 2 ^ 16 + x2 * 2 ^ 11 + x3 * 2 ^ 8 + x4 * 2 ^ 2 = w) (h : x0 < 8 ∧ x1 < 32 ∧ x2 < 32 ∧ x3 < 8 ∧ x4 < 8) :
    w < 2 ^ 32 ∧ bits w 31 26 = c0 ∧ bits w 1 0 = c1 ∧ bits w 25 24 = c2 ∧ bits w 7 5 = c3 ∧ bits w 23 21 = x0 ∧ bits w 20 16 = x1 ∧ bits w 15 11 = x2 ∧ bits w 10 8 = x3 ∧ bits w 4 2 = x4 := by
  refine ⟨by omega, ?_, ?_, ?_, ?_, ?_, ?_, ?_, ?_, ?_⟩
  · exact part 64 67108864 (0) _ (c3 * 32 + c1 * 1 + c2 * 16777216 + x0 * 2097152 + x1 * 65536 + x2 * 2048 + x3 * 256 + x4 * 4) w (by omega) (by omega) hc.2.1
  · exact part 4 1 (c0 * 16777216 + c3 * 8 + c2 * 4194304 + x0 * 524288 + x1 * 16384 + x2 * 512 + x3 * 64 + x4 * 1) _ (0) w (by omega) Nat.one_pos hc.2.2.2.1
  · exact part 4 16777216 (c0 * 1) _ (c3 * 32 + c1 * 1 + x0 * 2097152 + x1 * 65536 + x2 * 2048 + x3 * 256 + x4 * 4) w (by omega) (by omega) hc.2.2.2.2
  · exact part 8 32 (c0 * 262144 + c2 * 65536 + x0 * 8192 + x1 * 256 + x2 * 8 + x3 * 1) _ (c1 * 1 + x4 * 4) w (by omega) (by omega) hc.2.2.1
  · exact part 8 2097152 (c0 * 4 + c2 * 1) _ (c3 * 32 + c1 * 1 + x1 * 65536 + x2 * 2048 + x3 * 256 + x4 * 4) w (by omega) (by omega) h.1
  · exact part 32 65536 (c0 * 32 + c2 * 8 + x0 * 1) _ (c3 * 32 + c1 * 1 + x2 * 2048 + x3 * 256 + x4 * 4) w (by omega) (by omega) h.2.1
  · exact part 32 2048 (c0 * 1024 + c2 * 256 + x0 * 32 + x1 * 1) _ (c3 * 32 + c1 * 1 + x3 * 256 + x4 * 4) w (by omega) (by omega) h.2.2.1
  · exact part 8 256 (c0 * 32768 + c2 * 8192 + x0 * 1024 + x1 * 32 + x2 * 1) _ (c3 * 32 + c1 * 1 + x4 * 4) w (by omega) (by omega) h.2.2.2.1
  · exact part 8 4 (c0 * 2097152 + c3 * 1 + c2 * 524288 + x0 * 65536 + x1 * 2048 + x2 * 64 + x3 * 8) _ (c1 * 1) w (by omega) (by omega) h.2.2.2.2

theorem fields29 {x0 x1 x2 x3 x4 w : Nat} (c c0 c2 c1 : Nat)
    (hc : c = c0 * 67108864 + c2 * 4 + c1 * 1 ∧ c0 < 64 ∧ c2 < 16 ∧ c1 < 4)
    (hw : c + x0 * 2 ^ 21 + x1 * 2 ^ 16 + x2 * 2 ^ 11 + x3 * 2 ^ 8 + x4 * 2 ^ 6 = w) (h : x0 < 32 ∧ x1 < 32 ∧ x2 < 32 ∧ x3 < 8 ∧ x4 < 4) :
    w < 2 ^ 32 ∧ bits w 31 26 = c0 ∧ bits w 1 0 = c1 ∧ bits w 5 2 = c2 ∧ bits w 25 21 = x0 ∧ bits w 20 16 = x1 ∧ bits w 15 11 = x2 ∧ bits w 10 8 = x3 ∧ bits w 7 6 = x4 := by
  refine ⟨by omega, ?_, ?_, ?_, ?_, ?_, ?_, ?_, ?_⟩
  · exact part 64 67108864 (0) _ (c2 * 4 + c1 * 1 + x0 * 2097152 + x1 * 65536 + x2 * 2048 + x3 * 256 + x4 * 64) w (by omega) (by omega) hc.2.1
  · exact part 4 1 (c0 * 16777216 + c2 * 1 + x0 * 524288 + x1 * 16384 + x2 * 512 + x3 * 64 + x4 * 16) _ (0) w (by omega) Nat.one_pos hc.2.2.2
  · exact part 16 4 (c0 * 1048576 + x0 * 32768 + x1 * 1024 + x2 * 32 + x3 * 4 + x4 * 1) _ (c1 * 1) w (by omega) (by omega) hc.2.2.1
  · exact part 32 2097152 (c0 * 1) _ (c2 * 4 + c1 * 1 + x1 * 65536 + x2 * 2048 + x3 * 256 + x4 * 64) w (by omega) (by omega) h.1
  · exact part 32 65536 (c0 * 32 + x0 * 1) _ (c2 * 4 + c1 * 1 + x2 * 2048 + x3 * 256 + x4 * 64) w (by omega) (by omega) h.2.1
  · exact part 32 2048 (c0 * 1024 + x0 * 32 + x1 * 1) _ (c2 * 4 + c1 * 1 + x3 * 256 + x4 * 64) w (by omega) (by omega) h.2.2.1
  · exact part 8 256 (c0 * 32768 + x0 * 1024 + x1 * 32 + x2 * 1) _ (c2 * 4 + c1 * 1 + x4 * 64) w (by omega) (by omega) h.2.2.2.1
  · exact part 4 64 (c0 * 262144 + x0 * 8192 + x1 * 256 + x2 * 8 + x3 * 1) _ (c2 * 4 + c1 * 1) w (by omega) (by omega) h.2.2.2.2

theorem fields30 {x0 x1 x2 x3 x4 x5 w : Nat} (c c0 c1 : Nat)
    (hc : c = c0 * 67108864 + c1 * 8 ∧ c0 < 64 ∧ c1 < 8)
    (hw : c + x0 * 2 ^ 21 + x1 * 2 ^ 16 + x2 * 2 ^ 11 + x3 * 2 ^ 8 + x4 * 2 ^ 6 + x5 * 2 ^ 0 = w) (h : x0 < 32 ∧ x1 < 32 ∧ x2 < 32 ∧ x3 < 8 ∧ x4 < 4 ∧ x5 < 8) :
    w < 2 ^ 32 ∧ bits w 31 26 = c0 ∧ bits w 5 3 = c1 ∧ bits w 25 21 = x0 ∧ bits w 20 16 = x1 ∧ bits w 15 11 = x2 ∧ bits w 10 8 = x3 ∧ bits w 7 6 = x4 ∧ bits w 2 0 = x5 := by
  refine ⟨by omega, ?_, ?_, ?_, ?_, ?_, ?_, ?_, ?_⟩
  · exact part 64 67108864 (0) _ (c1 * 8 + x0 * 2097152 + x1 * 65536 + x2 * 2048 + x3 * 256 + x4 * 64 + x5 * 1) w (by omega) (by omega) hc.2.1
  · exact part 8 8 (c0 * 1048576 + x0 * 32768 + x1 * 1024 + x2 * 32 + x3 * 4 + x4 * 1) _ (x5 * 1) w (by omega) (by omega) hc.2.2
  · exact part 32 2097152 (c0 * 1) _ (c1 * 8 + x1 * 65536 + x2 * 2048 + x3 * 256 + x4 * 64 + x5 * 1) w (by omega) (by omega) h.1
  · exact part 32 65536 (c0 * 32 + x0 * 1) _ (c1 * 8 + x2 * 2048 + x3 * 256 + x4 * 64 + x5 * 1) w (by omega) (by omega) h.2.1
  · exact part 32 2048 (c0 * 1024 + x0 * 32 + x1 * 1) _ (c1 * 8 + x3 * 256 + x4 * 64 + x5 * 1) w (by omega) (by omega) h.2.2.1
  · exact part 8 256 (c0 * 32768 + x0 * 1024 + x1 * 32 + x2 * 1) _ (c1 * 8 + x4 * 64 + x5 * 1) w (by omega) (by omega) h.2.2.2.1
  · exact part 4 64 (c0 * 262144 + x0 * 8192 + x1 * 256 + x2 * 8 + x3 * 1) _ (c1 * 8 + x5 * 1) w (by omega) (by omega) h.2.2.2.2.1
  · exact part 8 1 (c0 * 8388608 + c1 * 1 + x0 * 262144 + x1 * 8192 + x2 * 256 + x3 * 32 + x4 * 8) _ (0) w (by omega) Nat.one_pos h.2.2.2.2.2

theorem fields31 {x0 x1 x2 x3 x4 w : Nat} (c c0 c1 c2 : Nat)
    (hc : c = c0 * 67108864 + c1 * 8 + c2 * 1 ∧ c0 < 64 ∧ c1 < 8 ∧ c2 < 8)
    (hw : c + x0 * 2 ^ 21 + x1 * 2 ^ 16 + x2 * 2 ^ 11 + x3 * 2 ^ 8 + x4 * 2 ^ 6 = w) (h : x0 < 32 ∧ x1 < 32 ∧ x2 < 32 ∧ x3 < 8 ∧ x4 < 4) :
    w < 2 ^ 32 ∧ bits w 31 26 = c0 ∧ bits w 5 3 = c1 ∧ bits w 2 0 = c2 ∧ bits w 25 21 = x0 ∧ bits w 20 16 = x1 ∧ bits w 15 11 = x2 ∧ bits w 10 8 = x3 ∧ bits w 7 6 = x4 := by
  refine ⟨by omega, ?_, ?_, ?_, ?_, ?_, ?_, ?_, ?_⟩
  · exact part 64 67108864 (0) _ (c1 * 8 + c2 * 1 + x0 * 2097152 + x1 * 65536 + x2 * 2048 + x3 * 256 + x4 * 64) w (by omega) (by omega) hc.2.1
  · exact part 8 8 (c0 * 1048576 + x0 * 32768 + x1 * 1024 + x2 * 32 + x3 * 4 + x4 * 1) _ (c2 * 1) w (by omega) (by omega) hc.2.2.1
  · exact part 8 1 (c0 * 8388608 + c1 * 1 + x0 * 262144 + x1 * 8192 + x2 * 256 + x3 * 32 + x4 * 8) _ (0) w (by omega) Nat.one_pos hc.2.2.2
  · exact part 32 2097152 (c0 * 1) _ (c1 * 8 + c2 * 1 + x1 * 65536 + x2 * 2048 + x3 * 256 + x4 * 64) w (by omega) (by omega) h.1
  · exact part 32 65536 (c0 * 32 + x0 * 1) _ (c1 * 8 + c2 * 1 + x2 * 2048 + x3 * 256 + x4 * 64) w (by omega) (by omega) h.2.1
  · exact part 32 2048 (c0 * 1024 + x0 * 32 + x1 * 1) _ (c1 * 8 + c2 * 1 + x3 * 256 + x4 * 64) w (by omega) (by omega) h.2.2.1
  · exact part 8 256 (c0 * 32768 + x0 * 1024 + x1 * 32 + x2 * 1) _ (c1 * 8 + c2 * 1 + x4 * 64) w (by omega) (by omega) h.2.2.2.1
  · exact part 4 64 (c0 * 262144 + x0 * 8192 + x1 * 256 + x2 * 8 + x3 * 1) _ (c1 * 8 + c2 * 1) w (by omega) (by omega) h.2.2.2.2

theorem fields32 {x0 x1 x2 x3 x4 w : Nat} (c c0 c2 c1 c3 : Nat)
    (hc : c = c0 * 67108864 + c2 * 2048 + c1 * 8 + c3 * 2 ∧ c0 < 64 ∧ c2 < 32 ∧ c1 < 8 ∧ c3 < 4)
    (hw : c + x0 * 2 ^ 21 + x1 * 2 ^ 16 + x2 * 2 ^ 8 + x3 * 2 ^ 6 + x4 * 2 ^ 0 = w) (h : x0 < 32 ∧ x1 < 32 ∧ x2 < 8 ∧ x3 < 4 ∧ x4 < 2) :
    w < 2 ^ 32 ∧ bits w 31 26 = c0 ∧ bits w 5 3 = c1 ∧ bits w 15 11 = c2 ∧ bits w 2 1 = c3 ∧ bits w 25 21 = x0 ∧ bits w 20 16 = x1 ∧ bits w 10 8 = x2 ∧ bits w 7 6 = x3 ∧ bits w 0 0 = x4 := by
  refine ⟨by omega, ?_, ?_, ?_, ?_, ?_, ?_, ?_, ?_, ?_⟩
  · exact part 64 67108864 (0) _ (c2 * 2048 + c1 * 8 + c3 * 2 + x0 * 2097152 + x1 * 65536 + x2 * 256 + x3 * 64 + x4 * 1) w (by omega) (by omega) hc.2.1
  · exact part 8 8 (c0 * 1048576 + c2 * 32 + x0 * 32768 + x1 * 1024 + x2 * 4 + x3 * 1) _ (c3 * 2 + x4 * 1) w (by omega) (by omega) hc.2.2.2.1
  · exact part 32 2048 (c0 * 1024 + x0 * 32 + x1 * 1) _ (c1 * 8 + c3 * 2 + x2 * 256 + x3 * 64 + x4 * 1) w (by omega) (by omega) hc.2.2.1
  · exact part 4 2 (c0 * 8388608 + c2 * 256 + c1 * 1 + x0 * 262144 + x1 * 8192 + x2 * 32 + x3 * 8) _ (x4 * 1) w (by omega) (by omega) hc.2.2.2.2
  · exact part 32 2097152 (c0 * 1) _ (c2 * 2048 + c1 * 8 + c3 * 2 + x1 * 65536 + x2 * 256 + x3 * 64 + x4 * 1) w (by omega) (by omega) h.1
  · exact part 32 65536 (c0 * 32 + x0 * 1) _ (c2 * 2048 + c1 * 8 + c3 * 2 + x2 * 256 + x3 * 64 + x4 * 1) w (by omega) (by omega) h.2.1
  · exact part 8 256 (c0 * 32768 + c2 * 1 + x0 * 1024 + x1 * 32) _ (c1 * 8 + c3 * 2 + x3 * 64 + x4 * 1) w (by omega) (by omega) h.2.2.1
  · exact part 4 64 (c0 * 262144 + c2 * 8 + x0 * 8192 + x1 * 256 + x2 * 1) _ (c1 * 8 + c3 * 2 + x4 * 1) w (by omega) (by omega) h.2.2.2.1
  · exact part 2 1 (c0 * 33554432 + c2 * 1024 + c1 * 4 + c3 * 1 + x0 * 1048576 + x1 * 32768 + x2 * 128 + x3 * 32) _ (0) w (by omega) Nat.one_pos h.2.2.2.2

theorem fields33 {x0 x1 x2 x3 x4 w : Nat} (c c0 c1 c2 c3 : Nat)
    (hc : c = c0 * 67108864 + c1 * 8 + c2 * 256 + c3 * 2 ∧ c0 < 64 ∧ c1 < 8 ∧ c2 < 8 ∧ c3 < 4)
    (hw : c + x0 * 2 ^ 21 + x1 * 2 ^ 16 + x2 * 2 ^ 11 + x3 * 2 ^ 6 + x4 * 2 ^ 0 = w) (h : x0 < 32 ∧ x1 < 32 ∧ x2 < 32 ∧ x3 < 4 ∧ x4 < 2) :
    w < 2 ^ 32 ∧ bits w 31 26 = c0 ∧ bits w 5 3 = c1 ∧ bits w 10 8 = c2 ∧ bits w 2 1 = c3 ∧ bits w 25 21 = x0 ∧ bits w 20 16 = x1 ∧ bits w 15 11 = x2 ∧ bits w 7 6 = x3 ∧ bits w 0 0 = x4 := by
  refine ⟨by omega, ?_, ?_, ?_, ?_, ?_, ?_, ?_, ?_, ?_⟩
  · exact part 64 67108864 (0) _ (c1 * 8 + c2 * 256 + c3 * 2 + x0 * 2097152 + x1 * 65536 + x2 * 2048 + x3 * 64 + x4 * 1) w (by omega) (by omega) hc.2.1
  · exact part 8 8 (c0 * 1048576 + c2 * 4 + x0 * 32768 + x1 * 1024 + x2 * 32 + x3 * 1) _ (c3 * 2 + x4 * 1) w (by omega) (by omega) hc.2.2.1
  · exact part 8 256 (c0 * 32768 + x0 * 1024 + x1 * 32 + x2 * 1) _ (c1 * 8 + c3 * 2 + x3 * 64 + x4 * 1) w (by omega) (by omega) hc.2.2.2.1
  · exact part 4 2 (c0 * 8388608 + c1 * 1 + c2 * 32 + x0 * 262144 + x1 * 8192 + x2 * 256 + x3 * 8) _ (x4 * 1) w (by omega) (by omega) hc.2.2.2.2
  · exact part 32 2097152 (c0 * 1) _ (c1 * 8 + c2 * 256 + c3 * 2 + x1 * 65536 + x2 * 2048 + x3 * 64 + x4 * 1) w (by omega) (by omega) h.1
  · exact part 32 65536 (c0 * 32 + x0 * 1) _ (c1 * 8 + c2 * 256 + c3 * 2 + x2 * 2048 + x3 * 64 + x4 * 1) w (by omega) (by omega) h.2.1
  · exact part 32 2048 (c0 * 1024 + x0 * 32 + x1 * 1) _ (c1 * 8 + c2 * 256 + c3 * 2 + x3 * 64 + x4 * 1) w (by omega) (by omega) h.2.2.1
  · exact part 4 64 (c0 * 262144 + c2 * 1 + x0 * 8192 + x1 * 256 + x2 * 8) _ (c1 * 8 + c3 * 2 + x4 * 1) w (by omega) (by omega) h.2.2.2.1
  · exact part 2 1 (c0 * 33554432 + c1 * 4 + c2 * 128 + c3 * 1 + x0 * 1048576 + x1 * 32768 + x2 * 1024 + x3 * 32) _ (0) w (by omega) Nat.one_pos h.2.2.2.2

theorem fields34 {x0 x1 x2 w : Nat} (c c2 c0 c1 c3 : Nat)
    (hc : c = c2 * 2048 + c0 * 67108864 + c1 * 8 + c3 * 1 ∧ c2 < 1024 ∧ c0 < 64 ∧ c1 < 8 ∧ c3 < 8)
    (hw : c + x0 * 2 ^ 21 + x1 * 2 ^ 8 + x2 * 2 ^ 6 = w) (h : x0 < 32 ∧ x1 < 8 ∧ x2 < 4) :
    w < 2 ^ 32 ∧ bits w 31 26 = c0 ∧ bits w 5 3 = c1 ∧ bits w 20 11 = c2 ∧ bits w 2 0 = c3 ∧ bits w 25 21 = x0 ∧ bits w 10 8 = x1 ∧ bits w 7 6 = x2 := by
  refine ⟨by omega, ?_, ?_, ?_, ?_, ?_, ?_, ?_⟩
  · exact part 64 67108864 (0) _ (c2 * 2048 + c1 * 8 + c3 * 1 + x0 * 2097152 + x1 * 256 + x2 * 64) w (by omega) (by omega) hc.2.2.1
  · exact part 8 8 (c2 * 32 + c0 * 1048576 + x0 * 32768 + x1 * 4 + x2 * 1) _ (c3 * 1) w (by omega) (by omega) hc.2.2.2.1
  · exact part 1024 2048 (c0 * 32 + x0 * 1) _ (c1 * 8 + c3 * 1 + x1 * 256 + x2 * 64) w (by omega) (by omega) hc.2.1
  · exact part 8 1 (c2 * 256 + c0 * 8388608 + c1 * 1 + x0 * 262144 + x1 * 32 + x2 * 8) _ (0) w (by omega) Nat.one_pos hc.2.2.2.2
  · exact part 32 2097152 (c0 * 1) _ (c2 * 2048 + c1 * 8 + c3 * 1 + x1 * 256 + x2 * 64) w (by omega) (by omega) h.1
  · exact part 8 256 (c2 * 1 + c0 * 32768 + x0 * 1024) _ (c1 * 8 + c3 * 1 + x2 * 64) w (by omega) (by omega) h.2.1
  · exact part 4 64 (c2 * 8 + c0 * 262144 + x0 * 8192 + x1 * 1) _ (c1 * 8 + c3 * 1) w (by omega) (by omega) h.2.2

theorem fields35 {x0 x1 x2 x3 w : Nat} (c c0 c2 c1 c3 : Nat)
    (hc : c = c0 * 67108864 + c2 * 2048 + c1 * 1 + c3 * 64 ∧ c0 < 64 ∧ c2 < 32 ∧ c1 < 8 ∧ c3 < 4)
    (hw : c + x0 * 2 ^ 21 + x1 * 2 ^ 16 + x2 * 2 ^ 8 + x3 * 2 ^ 3 = w) (h : x0 < 32 ∧ x1 < 32 ∧ x2 < 8 ∧ x3 < 8) :
    w < 2 ^ 32 ∧ bits w 31 26 = c0 ∧ bits w 2 0 = c1 ∧ bits w 15 11 = c2 ∧ bits w 7 6 = c3 ∧ bits w 25 21 = x0 ∧ bits w 20 16 = x1 ∧ bits w 10 8 = x2 ∧ bits w 5 3 = x3 := by
  refine ⟨by omega, ?_, ?_, ?_, ?_, ?_, ?_, ?_, ?_⟩
  · exact part 64 67108864 (0) _ (c2 * 2048 + c1 * 1 + c3 * 64 + x0 * 2097152 + x1 * 65536 + x2 * 256 + x3 * 8) w (by omega) (by omega) hc.2.1
  · exact part 8 1 (c0 * 8388608 + c2 * 256 + c3 * 8 + x0 * 262144 + x1 * 8192 + x2 * 32 + x3 * 1) _ (0) w (by omega) Nat.one_pos hc.2.2.2.1
  · exact part 32 2048 (c0 * 1024 + x0 * 32 + x1 * 1) _ (c1 * 1 + c3 * 64 + x2 * 256 + x3 * 8) w (by omega) (by omega) hc.2.2.1
  · exact part 4 64 (c0 * 262144 + c2 * 8 + x0 * 8192 + x1 * 256 + x2 * 1) _ (c1 * 1 + x3 * 8) w (by omega) (by omega) hc.2.2.2.2
  · exact part 32 2097152 (c0 * 1) _ (c2 * 2048 + c1 * 1 + c3 * 64 + x1 * 65536 + x2 * 256 + x3 * 8) w (by omega) (by omega) h.1
  · exact part 32 65536 (c0 * 32 + x0 * 1) _ (c2 * 2048 + c1 * 1 + c3 * 64 + x2 * 256 + x3 * 8) w (by omega) (by omega) h.2.1
  · exact part 8 256 (c0 * 32768 + c2 * 1 + x0 * 1024 + x1 * 32) _ (c1 * 1 + c3 * 64 + x3 * 8) w (by omega) (by omega) h.2.2.1
  · exact part 8 8 (c0 * 1048576 + c2 * 32 + c3 * 1 + x0 * 32768 + x1 * 1024 + x2 * 4) _ (c1 * 1) w (by omega) (by omega) h.2.2.2

theorem fields36 {x0 x1 x2 w : Nat} (c c2 c0 c1 : Nat)
    (hc : c = c2 * 64 + c0 * 67108864 + c1 * 1 ∧ c2 < 1024 ∧ c0 < 64 ∧ c1 < 8)
    (hw : c + x0 * 2 ^ 21 + x1 * 2 ^ 16 + x2 * 2 ^ 3 = w) (h : x0 < 32 ∧ x1 < 32 ∧ x2 < 8) :
    w < 2 ^ 32 ∧ bits w 31 26 = c0 ∧ bits w 2 0 = c1 ∧ bits w 15 6 = c2 ∧ bits w 25 21 = x0 ∧ bits w 20 16 = x1 ∧ bits w 5 3 = x2 := by
  refine ⟨by omega, ?_, ?_, ?_, ?_, ?_, ?_⟩
  · exact part 64 67108864 (0) _ (c2 * 64 + c1 * 1 + x0 * 2097152 + x1 * 65536 + x2 * 8) w (by omega) (by omega) hc.2.2.1
  · exact part 8 1 (c2 * 8 + c0 * 8388608 + x0 * 262144 + x1 * 8192 + x2 * 1) _ (0) w (by omega) Nat.one_pos hc.2.2.2
  · exact part 1024 64 (c0 * 1024 + x0 * 32 + x1 * 1) _ (c1 * 1 + x2 * 8) w (by omega) (by omega) hc.2.1
  · exact part 32 2097152 (c0 * 1) _ (c2 * 64 + c1 * 1 + x1 * 65536 + x2 * 8) w (by omega) (by omega) h.1
  · exact part 32 65536 (c0 * 32 + x0 * 1) _ (c2 * 64 + c1 * 1 + x2 * 8) w (by omega) (by omega) h.2.1
  · exact part 8 8 (c2 * 1 + c0 * 1048576 + x0 * 32768 + x1 * 1024) _ (c1 * 1) w (by omega) (by omega) h.2.2

theorem fields37 {x0 x1 x2 w : Nat} (c c2 c0 c1 : Nat)
    (hc : c = c2 * 8 + c0 * 67108864 + c1 * 1 ∧ c2 < 256 ∧ c0 < 64 ∧ c1 < 8)
    (hw : c + x0 * 2 ^ 21 + x1 * 2 ^ 16 + x2 * 2 ^ 11 = w) (h : x0 < 32 ∧ x1 < 32 ∧ x2 < 32) :
    w < 2 ^ 32 ∧ bits w 31 26 = c0 ∧ bits w 2 0 = c1 ∧ bits w 10 3 = c2 ∧ bits w 25 21 = x0 ∧ bits w 20 16 = x1 ∧ bits w 15 11 = x2 := by
  refine ⟨by omega, ?_, ?_, ?_, ?_, ?_, ?_⟩
  · exact part 64 67108864 (0) _ (c2 * 8 + c1 * 1 + x0 * 2097152 + x1 * 65536 + x2 * 2048) w (by omega) (by omega) hc.2.2.1
  · exact part 8 1 (c2 * 1 + c0 * 8388608 + x0 * 262144 + x1 * 8192 + x2 * 256) _ (0) w (by omega) Nat.one_pos hc.2.2.2
  · exact part 256 8 (c0 * 32768 + x0 * 1024 + x1 * 32 + x2 * 1) _ (c1 * 1) w (by omega) (by omega) hc.2.1
  · exact part 32 2097152 (c0 * 1) _ (c2 * 8 + c1 * 1 + x1 * 65536 + x2 * 2048) w (by omega) (by omega) h.1
  · exact part 32 65536 (c0 * 32 + x0 * 1) _ (c2 * 8 + c1 * 1 + x2 * 2048) w (by omega) (by omega) h.2.1
  · exact part 32 2048 (c0 * 1024 + x0 * 32 + x1 * 1) _ (c2 * 8 + c1 * 1) w (by omega) (by omega) h.2.2

theorem fields38 {x0 x1 x2 x3 x4 w : Nat} (c c2 c0 c1 : Nat)
    (hc : c = c2 * 16 + c0 * 67108864 + c1 * 1 ∧ c2 < 128 ∧ c0 < 64 ∧ c1 < 8)
    (hw : c + x0 * 2 ^ 22 + x1 * 2 ^ 21 + x2 * 2 ^ 16 + x3 * 2 ^ 11 + x4 * 2 ^ 3 = w) (h : x0 < 16 ∧ x1 < 2 ∧ x2 < 32 ∧ x3 < 32 ∧ x4 < 2) :
    w < 2 ^ 32 ∧ bits w 31 26 = c0 ∧ bits w 2 0 = c1 ∧ bits w 10 4 = c2 ∧ bits w 25 22 = x0 ∧ bits w 21 21 = x1 ∧ bits w 20 16 = x2 ∧ bits w 15 11 = x3 ∧ bits w 3 3 = x4 := by
  refine ⟨by omega, ?_, ?_, ?_, ?_, ?_, ?_, ?_, ?_⟩
  · exact part 64 67108864 (0) _ (c2 * 16 + c1 * 1 + x0 * 4194304 + x1 * 2097152 + x2 * 65536 + x3 * 2048 + x4 * 8) w (by omega) (by omega) hc.2.2.1
  · exact part 8 1 (c2 * 2 + c0 * 8388608 + x0 * 524288 + x1 * 262144 + x2 * 8192 + x3 * 256 + x4 * 1) _ (0) w (by omega) Nat.one_pos hc.2.2.2
  · exact part 128 16 (c0 * 32768 + x0 * 2048 + x1 * 1024 + x2 * 32 + x3 * 1) _ (c1 * 1 + x4 * 8) w (by omega) (by omega) hc.2.1
  · exact part 16 4194304 (c0 * 1) _ (c2 * 16 + c1 * 1 + x1 * 2097152 + x2 * 65536 + x3 * 2048 + x4 * 8) w (by omega) (by omega) h.1
  · exact part 2 2097152 (c0 * 16 + x0 * 1) _ (c2 * 16 + c1 * 1 + x2 * 65536 + x3 * 2048 + x4 * 8) w (by omega) (by omega) h.2.1
  · exact part 32 65536 (c0 * 32 + x0 * 2 + x1 * 1) _ (c2 * 16 + c1 * 1 + x3 * 2048 + x4 * 8) w (by omega) (by omega) h.2.2.1
  · exact part 32 2048 (c0 * 1024 + x0 * 64 + x1 * 32 + x2 * 1) _ (c2 * 16 + c1 * 1 + x4 * 8) w (by omega) (by omega) h.2.2.2.1
  · exact part 2 8 (c2 * 1 + c0 * 4194304 + x0 * 262144 + x1 * 131072 + x2 * 4096 + x3 * 128) _ (c1 * 1) w (by omega) (by omega) h.2.2.2.2

theorem fields39 {x0 x1 x2 w : Nat} (c c5 c0 c1 c2 c3 c4 : Nat)
    (hc : c = c5 * 8 + c0 * 67108864 + c1 * 1 + c2 * 16777216 + c3 * 524288 + c4 * 16384 ∧ c5 < 256 ∧ c0 < 64 ∧ c1 < 8 ∧ c2 < 4 ∧ c3 < 4 ∧ c4 < 4)
    (hw : c + x0 * 2 ^ 21 + x1 * 2 ^ 16 + x2 * 2 ^ 11 = w) (h : x0 < 8 ∧ x1 < 8 ∧ x2 < 8) :
    w < 2 ^ 32 ∧ bits w 31 26 = c0 ∧ bits w 2 0 = c1 ∧ bits w 25 24 = c2 ∧ bits w 20 19 = c3 ∧ bits w 15 14 = c4 ∧ bits w 10 3 = c5 ∧ bits w 23 21 = x0 ∧ bits w 18 16 = x1 ∧ bits w 13 11 = x2 := by
  refine ⟨by omega, ?_, ?_, ?_, ?_, ?_, ?_, ?_, ?_, ?_⟩
  · exact part 64 67108864 (0) _ (c5 * 8 + c1 * 1 + c2 * 16777216 + c3 * 524288 + c4 * 16384 + x0 * 2097152 + x1 * 65536 + x2 * 2048) w (by omega) (by omega) hc.2.2.1
  · exact part 8 1 (c5 * 1 + c0 * 8388608 + c2 * 2097152 + c3 * 65536 + c4 * 2048 + x0 * 262144 + x1 * 8192 + x2 * 256) _ (0) w (by omega) Nat.one_pos hc.2.2.2.1
  · exact part 4 16777216 (c0 * 1) _ (c5 * 8 + c1 * 1 + c3 * 524288 + c4 * 16384 + x0 * 2097152 + x1 * 65536 + x2 * 2048) w (by omega) (by omega) hc.2.2.2.2.1
  · exact part 4 524288 (c0 * 32 + c2 * 8 + x0 * 1) _ (c5 * 8 + c1 * 1 + c4 * 16384 + x1 * 65536 + x2 * 2048) w (by omega) (by omega) hc.2.2.2.2.2.1
  · exact part 4 16384 (c0 * 1024 + c2 * 256 + c3 * 8 + x0 * 32 + x1 * 1) _ (c5 * 8 + c1 * 1 + x2 * 2048) w (by omega) (by omega) hc.2.2.2.2.2.2
  · exact part 256 8 (c0 * 32768 + c2 * 8192 + c3 * 256 + c4 * 8 + x0 * 1024 + x1 * 32 + x2 * 1) _ (c1 * 1) w (by omega) (by omega) hc.2.1
  · exact part 8 2097152 (c0 * 4 + c2 * 1) _ (c5 * 8 + c1 * 1 + c3 * 524288 + c4 * 16384 + x1 * 65536 + x2 * 2048) w (by omega) (by omega) h.1
  · exact part 8 65536 (c0 * 128 + c2 * 32 + c3 * 1 + x0 * 4) _ (c5 * 8 + c1 * 1 + c4 * 16384 + x2 * 2048) w (by omega) (by omega) h.2.1
  · exact part 8 2048 (c0 * 4096 + c2 * 1024 + c3 * 32 + c4 * 1 + x0 * 128 + x1 * 4) _ (c5 * 8 + c1 * 1) w (by omega) (by omega) h.2.2

theorem fields40 {x0 x1 w : Nat} (c c4 c0 c1 c2 c3 : Nat)
    (hc : c = c4 * 8 + c0 * 67108864 + c1 * 1 + c2 * 16777216 + c3 * 524288 ∧ c4 < 8192 ∧ c0 < 64 ∧ c1 < 8 ∧ c2 < 4 ∧ c3 < 4)
    (hw : c + x0 * 2 ^ 21 + x1 * 2 ^ 16 = w) (h : x0 < 8 ∧ x1 < 8) :
    w < 2 ^ 32 ∧ bits w 31 26 = c0 ∧ bits w 2 0 = c1 ∧ bits w 25 24 = c2 ∧ bits w 20 19 = c3 ∧ bits w 15 3 = c4 ∧ bits w 23 21 = x0 ∧ bits w 18 16 = x1 := by
  refine ⟨by omega, ?_, ?_, ?_, ?_, ?_, ?_, ?_⟩
  · exact part 64 67108864 (0) _ (c4 * 8 + c1 * 1 + c2 * 16777216 + c3 * 524288 + x0 * 2097152 + x1 * 65536) w (by omega) (by omega) hc.2.2.1
  · exact part 8 1 (c4 * 1 + c0 * 8388608 + c2 * 2097152 + c3 * 65536 + x0 * 262144 + x1 * 8192) _ (0) w (by omega) Nat.one_pos hc.2.2.2.1
  · exact part 4 16777216 (c0 * 1) _ (c4 * 8 + c1 * 1 + c3 * 524288 + x0 * 2097152 + x1 * 65536) w (by omega) (by omega) hc.2.2.2.2.1
  · exact part 4 524288 (c0 * 32 + c2 * 8 + x0 * 1) _ (c4 * 8 + c1 * 1 + x1 * 65536) w (by omega) (by omega) hc.2.2.2.2.2
  · exact part 8192 8 (c0 * 1024 + c2 * 256 + c3 * 8 + x0 * 32 + x1 * 1) _ (c1 * 1) w (by omega) (by omega) hc.2.1
  · exact part 8 2097152 (c0 * 4 + c2 * 1) _ (c4 * 8 + c1 * 1 + c3 * 524288 + x1 * 65536) w (by omega) (by omega) h.1
  · exact part 8 65536 (c0 * 128 + c2 * 32 + c3 * 1 + x0 * 4) _ (c4 * 8 + c1 * 1) w (by omega) (by omega) h.2

theorem fields41 {x0 x1 x2 x3 w : Nat} (c c3 c0 c1 c2 c4 : Nat)
    (hc : c = c3 * 256 + c0 * 67108864 + c1 * 1 + c2 * 524288 + c4 * 16 ∧ c3 < 256 ∧ c0 < 64 ∧ c1 < 8 ∧ c2 < 4 ∧ c4 < 4)
    (hw : c + x0 * 2 ^ 21 + x1 * 2 ^ 16 + x2 * 2 ^ 6 + x3 * 2 ^ 3 = w) (h : x0 < 32 ∧ x1 < 8 ∧ x2 < 4 ∧ x3 < 2) :
    w < 2 ^ 32 ∧ bits w 31 26 = c0 ∧ bits w 2 0 = c1 ∧ bits w 20 19 = c2 ∧ bits w 15 8 = c3 ∧ bits w 5 4 = c4 ∧ bits w 25 21 = x0 ∧ bits w 18 16 = x1 ∧ bits w 7 6 = x2 ∧ bits w 3 3 = x3 := by
  refine ⟨by omega, ?_, ?_, ?_, ?_, ?_, ?_, ?_, ?_, ?_⟩
  · exact part 64 67108864 (0) _ (c3 * 256 + c1 * 1 + c2 * 524288 + c4 * 16 + x0 * 2097152 + x1 * 65536 + x2 * 64 + x3 * 8) w (by omega) (by omega) hc.2.2.1
  · exact part 8 1 (c3 * 32 + c0 * 8388608 + c2 * 65536 + c4 * 2 + x0 * 262144 + x1 * 8192 + x2 * 8 + x3 * 1) _ (0) w (by omega) Nat.one_pos hc.2.2.2.1
  · exact part 4 524288 (c0 * 32 + x0 * 1) _ (c3 * 256 + c1 * 1 + c4 * 16 + x1 * 65536 + x2 * 64 + x3 * 8) w (by omega) (by omega) hc.2.2.2.2.1
  · exact part 256 256 (c0 * 1024 + c2 * 8 + x0 * 32 + x1 * 1) _ (c1 * 1 + c4 * 16 + x2 * 64 + x3 * 8) w (by omega) (by omega) hc.2.1
  · exact part 4 16 (c3 * 4 + c0 * 1048576 + c2 * 8192 + x0 * 32768 + x1 * 1024 + x2 * 1) _ (c1 * 1 + x3 * 8) w (by omega) (by omega) hc.2.2.2.2.2
  · exact part 32 2097152 (c0 * 1) _ (c3 * 256 + c1 * 1 + c2 * 524288 + c4 * 16 + x1 * 65536 + x2 * 64 + x3 * 8) w (by omega) (by omega) h.1
  · exact part 8 65536 (c0 * 128 + c2 * 1 + x0 * 4) _ (c3 * 256 + c1 * 1 + c4 * 16 + x2 * 64 + x3 * 8) w (by omega) (by omega) h.2.1
  · exact part 4 64 (c3 * 1 + c0 * 262144 + c2 * 2048 + x0 * 8192 + x1 * 256) _ (c1 * 1 + c4 * 16 + x3 * 8) w (by omega) (by omega) h.2.2.1
  · exact part 2 8 (c3 * 16 + c0 * 4194304 + c2 * 32768 + c4 * 1 + x0 * 131072 + x1 * 4096 + x2 * 4) _ (c1 * 1) w (by omega) (by omega) h.2.2.2

theorem fields42 {x0 x1 x2 x3 x4 x5 w : Nat} (c c0 c1 : Nat)
    (hc : c = c0 * 67108864 + c1 * 1 ∧ c0 < 64 ∧ c1 < 4)
    (hw : c + x0 * 2 ^ 21 + x1 * 2 ^ 15 + x2 * 2 ^ 9 + x3 * 2 ^ 6 + x4 * 2 ^ 4 + x5 * 2 ^ 2 = w) (h : x0 < 32 ∧ x1 < 64 ∧ x2 < 64 ∧ x3 < 8 ∧ x4 < 4 ∧ x5 < 4) :
    w < 2 ^ 32 ∧ bits w 31 26 = c0 ∧ bits w 1 0 = c1 ∧ bits w 25 21 = x0 ∧ bits w 20 15 = x1 ∧ bits w 14 9 = x2 ∧ bits w 8 6 = x3 ∧ bits w 5 4 = x4 ∧ bits w 3 2 = x5 := by
  refine ⟨by omega, ?_, ?_, ?_, ?_, ?_, ?_, ?_, ?_⟩
  · exact part 64 67108864 (0) _ (c1 * 1 + x0 * 2097152 + x1 * 32768 + x2 * 512 + x3 * 64 + x4 * 16 + x5 * 4) w (by omega) (by omega) hc.2.1
  · exact part 4 1 (c0 * 16777216 + x0 * 524288 + x1 * 8192 + x2 * 128 + x3 * 16 + x4 * 4 + x5 * 1) _ (0) w (by omega) Nat.one_pos hc.2.2
  · exact part 32 2097152 (c0 * 1) _ (c1 * 1 + x1 * 32768 + x2 * 512 + x3 * 64 + x4 * 16 + x5 * 4) w (by omega) (by omega) h.1
  · exact part 64 32768 (c0 * 32 + x0 * 1) _ (c1 * 1 + x2 * 512 + x3 * 64 + x4 * 16 + x5 * 4) w (by omega) (by omega) h.2.1
  · exact part 64 512 (c0 * 2048 + x0 * 64 + x1 * 1) _ (c1 * 1 + x3 * 64 + x4 * 16 + x5 * 4) w (by omega) (by omega) h.2.2.1
  · exact part 8 64 (c0 * 131072 + x0 * 4096 + x1 * 64 + x2 * 1) _ (c1 * 1 + x4 * 16 + x5 * 4) w (by omega) (by omega) h.2.2.2.1
  · exact part 4 16 (c0 * 1048576 + x0 * 32768 + x1 * 512 + x2 * 8 + x3 * 1) _ (c1 * 1 + x5 * 4) w (by omega) (by omega) h.2.2.2.2.1
  · exact part 4 4 (c0 * 4194304 + x0 * 131072 + x1 * 2048 + x2 * 32 + x3 * 4 + x4 * 1) _ (c1 * 1) w (by omega) (by omega) h.2.2.2.2.2

theorem fields43 {x0 x1 x2 x3 x4 x5 w : Nat} (c c0 c1 c2 : Nat)
    (hc : c = c0 * 67108864 + c1 * 1 + c2 * 16384 ∧ c0 < 64 ∧ c1 < 4 ∧ c2 < 2)
    (hw : c + x0 * 2 ^ 21 + x1 * 2 ^ 15 + x2 * 2 ^ 9 + x3 * 2 ^ 6 + x4 * 2 ^ 4 + x5 * 2 ^ 2 = w) (h : x0 < 32 ∧ x1 < 64 ∧ x2 < 32 ∧ x3 < 8 ∧ x4 < 4 ∧ x5 < 4) :
    w < 2 ^ 32 ∧ bits w 31 26 = c0 ∧ bits w 1 0 = c1 ∧ bits w 14 14 = c2 ∧ bits w 25 21 = x0 ∧ bits w 20 15 = x1 ∧ bits w 13 9 = x2 ∧ bits w 8 6 = x3 ∧ bits w 5 4 = x4 ∧ bits w 3 2 = x5 := by
  refine ⟨by omega, ?_, ?_, ?_, ?_, ?_, ?_, ?_, ?_, ?_⟩
  · exact part 64 67108864 (0) _ (c1 * 1 + c2 * 16384 + x0 * 2097152 + x1 * 32768 + x2 * 512 + x3 * 64 + x4 * 16 + x5 * 4) w (by omega) (by omega) hc.2.1
  · exact part 4 1 (c0 * 16777216 + c2 * 4096 + x0 * 524288 + x1 * 8192 + x2 * 128 + x3 * 16 + x4 * 4 + x5 * 1) _ (0) w (by omega) Nat.one_pos hc.2.2.1
  · exact part 2 16384 (c0 * 2048 + x0 * 64 + x1 * 1) _ (c1 * 1 + x2 * 512 + x3 * 64 + x4 * 16 + x5 * 4) w (by omega) (by omega) hc.2.2.2
  · exact part 32 2097152 (c0 * 1) _ (c1 * 1 + c2 * 16384 + x1 * 32768 + x2 * 512 + x3 * 64 + x4 * 16 + x5 * 4) w (by omega) (by omega) h.1
  · exact part 64 32768 (c0 * 32 + x0 * 1) _ (c1 * 1 + c2 * 16384 + x2 * 512 + x3 * 64 + x4 * 16 + x5 * 4) w (by omega) (by omega) h.2.1
  · exact part 32 512 (c0 * 4096 + c2 * 1 + x0 * 128 + x1 * 2) _ (c1 * 1 + x3 * 64 + x4 * 16 + x5 * 4) w (by omega) (by omega) h.2.2.1
  · exact part 8 64 (c0 * 131072 + c2 * 32 + x0 * 4096 + x1 * 64 + x2 * 1) _ (c1 * 1 + x4 * 16 + x5 * 4) w (by omega) (by omega) h.2.2.2.1
  · exact part 4 16 (c0 * 1048576 + c2 * 256 + x0 * 32768 + x1 * 512 + x2 * 8 + x3 * 1) _ (c1 * 1 + x5 * 4) w (by omega) (by omega) h.2.2.2.2.1
  · exact part 4 4 (c0 * 4194304 + c2 * 1024 + x0 * 131072 + x1 * 2048 + x2 * 32 + x3 * 4 + x4 * 1) _ (c1 * 1) w (by omega) (by omega) h.2.2.2.2.2

theorem fields44 {x0 w : Nat} (c c3 c1 c0 c2 : Nat)
    (hc : c = c3 * 256 + c1 * 1 + c0 * 67108864 + c2 * 33554432 ∧ c3 < 4096 ∧ c1 < 256 ∧ c0 < 64 ∧ c2 < 2)
    (hw : c + x0 * 2 ^ 20 = w) (h : x0 < 32) :
    w < 2 ^ 32 ∧ bits w 31 26 = c0 ∧ bits w 7 0 = c1 ∧ bits w 25 25 = c2 ∧ bits w 19 8 = c3 ∧ bits w 24 20 = x0 := by
  refine ⟨by omega, ?_, ?_, ?_, ?_, ?_⟩
  · exact part 64 67108864 (0) _ (c3 * 256 + c1 * 1 + c2 * 33554432 + x0 * 1048576) w (by omega) (by omega) hc.2.2.2.1
  · exact part 256 1 (c3 * 1 + c0 * 262144 + c2 * 131072 + x0 * 4096) _ (0) w (by omega) Nat.one_pos hc.2.2.1
  · exact part 2 33554432 (c0 * 1) _ (c3 * 256 + c1 * 1 + x0 * 1048576) w (by omega) (by omega) hc.2.2.2.2
  · exact part 4096 256 (c0 * 64 + c2 * 32 + x0 * 1) _ (c1 * 1) w (by omega) (by omega) hc.2.1
  · exact part 32 1048576 (c0 * 2 + c2 * 1) _ (c3 * 256 + c1 * 1) w (by omega) (by omega) h

theorem fields45 {x0 x1 w : Nat} (c c1 c0 c2 c3 : Nat)
    (hc : c = c1 * 1 + c0 * 67108864 + c2 * 1048576 + c3 * 4096 ∧ c1 < 256 ∧ c0 < 64 ∧ c2 < 64 ∧ c3 < 4)
    (hw : c + x0 * 2 ^ 14 + x1 * 2 ^ 8 = w) (h : x0 < 64 ∧ x1 < 16) :
    w < 2 ^ 32 ∧ bits w 31 26 = c0 ∧ bits w 7 0 = c1 ∧ bits w 25 20 = c2 ∧ bits w 13 12 = c3 ∧ bits w 19 14 = x0 ∧ bits w 11 8 = x1 := by
  refine ⟨by omega, ?_, ?_, ?_, ?_, ?_, ?_⟩
  · exact part 64 67108864 (0) _ (c1 * 1 + c2 * 1048576 + c3 * 4096 + x0 * 16384 + x1 * 256) w (by omega) (by omega) hc.2.2.1
  · exact part 256 1 (c0 * 262144 + c2 * 4096 + c3 * 16 + x0 * 64 + x1 * 1) _ (0) w (by omega) Nat.one_pos hc.2.1
  · exact part 64 1048576 (c0 * 1) _ (c1 * 1 + c3 * 4096 + x0 * 16384 + x1 * 256) w (by omega) (by omega) hc.2.2.2.1
  · exact part 4 4096 (c0 * 4096 + c2 * 64 + x0 * 1) _ (c1 * 1 + x1 * 256) w (by omega) (by omega) hc.2.2.2.2
  · exact part 64 16384 (c0 * 64 + c2 * 1) _ (c1 * 1 + c3 * 4096 + x1 * 256) w (by omega) (by omega) h.1
  · exact part 16 256 (c0 * 16384 + c2 * 256 + c3 * 1 + x0 * 4) _ (c1 * 1) w (by omega) (by omega) h.2

theorem fields46 {x0 x1 x2 w : Nat} (c c1 c0 c2 : Nat)
    (hc : c = c1 * 1 + c0 * 67108864 + c2 * 4096 ∧ c1 < 256 ∧ c0 < 64 ∧ c2 < 4)
    (hw : c + x0 * 2 ^ 20 + x1 * 2 ^ 14 + x2 * 2 ^ 8 = w) (h : x0 < 64 ∧ x1 < 64 ∧ x2 < 16) :
    w < 2 ^ 32 ∧ bits w 31 26 = c0 ∧ bits w 7 0 = c1 ∧ bits w 13 12 = c2 ∧ bits w 25 20 = x0 ∧ bits w 19 14 = x1 ∧ bits w 11 8 = x2 := by
  refine ⟨by omega, ?_, ?_, ?_, ?_, ?_, ?_⟩
  · exact part 64 67108864 (0) _ (c1 * 1 + c2 * 4096 + x0 * 1048576 + x1 * 16384 + x2 * 256) w (by omega) (by omega) hc.2.2.1
  · exact part 256 1 (c0 * 262144 + c2 * 16 + x0 * 4096 + x1 * 64 + x2 * 1) _ (0) w (by omega) Nat.one_pos hc.2.1
  · exact part 4 4096 (c0 * 4096 + x0 * 64 + x1 * 1) _ (c1 * 1 + x2 * 256) w (by omega) (by omega) hc.2.2.2
  · exact part 64 1048576 (c0 * 1) _ (c1 * 1 + c2 * 4096 + x1 * 16384 + x2 * 256) w (by omega) (by omega) h.1
  · exact part 64 16384 (c0 * 64 + x0 * 1) _ (c1 * 1 + c2 * 4096 + x2 * 256) w (by omega) (by omega) h.2.1
  · exact part 16 256 (c0 * 16384 + c2 * 1 + x0 * 256 + x1 * 4) _ (c1 * 1) w (by omega) (by omega) h.2.2

theorem fields47 {x0 x1 x2 x3 x4 w : Nat} (c c1 c0 c2 : Nat)
    (hc : c = c1 * 1 + c0 * 67108864 + c2 * 256 ∧ c1 < 256 ∧ c0 < 64 ∧ c2 < 4)
    (hw : c + x0 * 2 ^ 25 + x1 * 2 ^ 20 + x2 * 2 ^ 16 + x3 * 2 ^ 14 + x4 * 2 ^ 10 = w) (h : x0 < 2 ∧ x1 < 32 ∧ x2 < 16 ∧ x3 < 4 ∧ x4 < 16) :
    w < 2 ^ 32 ∧ bits w 31 26 = c0 ∧ bits w 7 0 = c1 ∧ bits w 9 8 = c2 ∧ bits w 25 25 = x0 ∧ bits w 24 20 = x1 ∧ bits w 19 16 = x2 ∧ bits w 15 14 = x3 ∧ bits w 13 10 = x4 := by
  refine ⟨by omega, ?_, ?_, ?_, ?_, ?_, ?_, ?_, ?_⟩
  · exact part 64 67108864 (0) _ (c1 * 1 + c2 * 256 + x0 * 33554432 + x1 * 1048576 + x2 * 65536 + x3 * 16384 + x4 * 1024) w (by omega) (by omega) hc.2.2.1
  · exact part 256 1 (c0 * 262144 + c2 * 1 + x0 * 131072 + x1 * 4096 + x2 * 256 + x3 * 64 + x4 * 4) _ (0) w (by omega) Nat.one_pos hc.2.1
  · exact part 4 256 (c0 * 65536 + x0 * 32768 + x1 * 1024 + x2 * 64 + x3 * 16 + x4 * 1) _ (c1 * 1) w (by omega) (by omega) hc.2.2.2
  · exact part 2 33554432 (c0 * 1) _ (c1 * 1 + c2 * 256 + x1 * 1048576 + x2 * 65536 + x3 * 16384 + x4 * 1024) w (by omega) (by omega) h.1
  · exact part 32 1048576 (c0 * 2 + x0 * 1) _ (c1 * 1 + c2 * 256 + x2 * 65536 + x3 * 16384 + x4 * 1024) w (by omega) (by omega) h.2.1
  · exact part 16 65536 (c0 * 64 + x0 * 32 + x1 * 1) _ (c1 * 1 + c2 * 256 + x3 * 16384 + x4 * 1024) w (by omega) (by omega) h.2.2.1
  · exact part 4 16384 (c0 * 1024 + x0 * 512 + x1 * 16 + x2 * 1) _ (c1 * 1 + c2 * 256 + x4 * 1024) w (by omega) (by omega) h.2.2.2.1
  · exact part 16 1024 (c0 * 4096 + x0 * 2048 + x1 * 64 + x2 * 4 + x3 * 1) _ (c1 * 1 + c2 * 256) w (by omega) (by omega) h.2.2.2.2

theorem fields48 {x0 x1 x2 w : Nat} (c c1 c0 c3 c2 : Nat)
    (hc : c = c1 * 1 + c0 * 67108864 + c3 * 256 + c2 * 65536 ∧ c1 < 256 ∧ c0 < 64 ∧ c3 < 64 ∧ c2 < 16)
    (hw : c + x0 * 2 ^ 25 + x1 * 2 ^ 20 + x2 * 2 ^ 14 = w) (h : x0 < 2 ∧ x1 < 32 ∧ x2 < 4) :
    w < 2 ^ 32 ∧ bits w 31 26 = c0 ∧ bits w 7 0 = c1 ∧ bits w 19 16 = c2 ∧ bits w 13 8 = c3 ∧ bits w 25 25 = x0 ∧ bits w 24 20 = x1 ∧ bits w 15 14 = x2 := by
  refine ⟨by omega, ?_, ?_, ?_, ?_, ?_, ?_, ?_⟩
  · exact part 64 67108864 (0) _ (c1 * 1 + c3 * 256 + c2 * 65536 + x0 * 33554432 + x1 * 1048576 + x2 * 16384) w (by omega) (by omega) hc.2.2.1
  · exact part 256 1 (c0 * 262144 + c3 * 1 + c2 * 256 + x0 * 131072 + x1 * 4096 + x2 * 64) _ (0) w (by omega) Nat.one_pos hc.2.1
  · exact part 16 65536 (c0 * 64 + x0 * 32 + x1 * 1) _ (c1 * 1 + c3 * 256 + x2 * 16384) w (by omega) (by omega) hc.2.2.2.2
  · exact part 64 256 (c0 * 4096 + c2 * 4 + x0 * 2048 + x1 * 64 + x2 * 1) _ (c1 * 1) w (by omega) (by omega) hc.2.2.2.1
  · exact part 2 33554432 (c0 * 1) _ (c1 * 1 + c3 * 256 + c2 * 65536 + x1 * 1048576 + x2 * 16384) w (by omega) (by omega) h.1
  · exact part 32 1048576 (c0 * 2 + x0 * 1) _ (c1 * 1 + c3 * 256 + c2 * 65536 + x2 * 16384) w (by omega) (by omega) h.2.1
  · exact part 4 16384 (c0 * 1024 + c2 * 1 + x0 * 512 + x1 * 16) _ (c1 * 1 + c3 * 256) w (by omega) (by omega) h.2.2

theorem fields49 {x0 x1 x2 x3 w : Nat} (c c1 c0 c2 : Nat)
    (hc : c = c1 * 1 + c0 * 67108864 + c2 * 65536 ∧ c1 < 256 ∧ c0 < 64 ∧ c2 < 16)
    (hw : c + x0 * 2 ^ 25 + x1 * 2 ^ 20 + x2 * 2 ^ 14 + x3 * 2 ^ 8 = w) (h : x0 < 2 ∧ x1 < 32 ∧ x2 < 4 ∧ x3 < 64) :
    w < 2 ^ 32 ∧ bits w 31 26 = c0 ∧ bits w 7 0 = c1 ∧ bits w 19 16 = c2 ∧ bits w 25 25 = x0 ∧ bits w 24 20 = x1 ∧ bits w 15 14 = x2 ∧ bits w 13 8 = x3 := by
  refine ⟨by omega, ?_, ?_, ?_, ?_, ?_, ?_, ?_⟩
  · exact part 64 67108864 (0) _ (c1 * 1 + c2 * 65536 + x0 * 33554432 + x1 * 1048576 + x2 * 16384 + x3 * 256) w (by omega) (by omega) hc.2.2.1
  · exact part 256 1 (c0 * 262144 + c2 * 256 + x0 * 131072 + x1 * 4096 + x2 * 64 + x3 * 1) _ (0) w (by omega) Nat.one_pos hc.2.1
  · exact part 16 65536 (c0 * 64 + x0 * 32 + x1 * 1) _ (c1 * 1 + x2 * 16384 + x3 * 256) w (by omega) (by omega) hc.2.2.2
  · exact part 2 33554432 (c0 * 1) _ (c1 * 1 + c2 * 65536 + x1 * 1048576 + x2 * 16384 + x3 * 256) w (by omega) (by omega) h.1
  · exact part 32 1048576 (c0 * 2 + x0 * 1) _ (c1 * 1 + c2 * 65536 + x2 * 16384 + x3 * 256) w (by omega) (by omega) h.2.1
  · exact part 4 16384 (c0 * 1024 + c2 * 1 + x0 * 512 + x1 * 16) _ (c1 * 1 + x3 * 256) w (by omega) (by omega) h.2.2.1
  · exact part 64 256 (c0 * 4096 + c2 * 4 + x0 * 2048 + x1 * 64 + x2 * 1) _ (c1 * 1) w (by omega) (by omega) h.2.2.2

theorem fields50 {x0 x1 x2 w : Nat} (c c1 c0 c2 : Nat)
    (hc : c = c1 * 1 + c0 * 67108864 + c2 * 256 ∧ c1 < 256 ∧ c0 < 64 ∧ c2 < 64)
    (hw : c + x0 * 2 ^ 25 + x1 * 2 ^ 20 + x2 * 2 ^ 14 = w) (h : x0 < 2 ∧ x1 < 32 ∧ x2 < 64) :
    w < 2 ^ 32 ∧ bits w 31 26 = c0 ∧ bits w 7 0 = c1 ∧ bits w 13 8 = c2 ∧ bits w 25 25 = x0 ∧ bits w 24 20 = x1 ∧ bits w 19 14 = x2 := by
  refine ⟨by omega, ?_, ?_, ?_, ?_, ?_, ?_⟩
  · exact part 64 67108864 (0) _ (c1 * 1 + c2 * 256 + x0 * 33554432 + x1 * 1048576 + x2 * 16384) w (by omega) (by omega) hc.2.2.1
  · exact part 256 1 (c0 * 262144 + c2 * 1 + x0 * 131072 + x1 * 4096 + x2 * 64) _ (0) w (by omega) Nat.one_pos hc.2.1
  · exact part 64 256 (c0 * 4096 + x0 * 2048 + x1 * 64 + x2 * 1) _ (c1 * 1) w (by omega) (by omega) hc.2.2.2
  · exact part 2 33554432 (c0 * 1) _ (c1 * 1 + c2 * 256 + x1 * 1048576 + x2 * 16384) w (by omega) (by omega) h.1
  · exact part 32 1048576 (c0 * 2 + x0 * 1) _ (c1 * 1 + c2 * 256 + x2 * 16384) w (by omega) (by omega) h.2.1
  · exact part 64 16384 (c0 * 64 + x0 * 32 + x1 * 1) _ (c1 * 1 + c2 * 256) w (by omega) (by omega) h.2.2

theorem fields51 {x0 x1 x2 x3 w : Nat} (c c1 c0 : Nat)
    (hc : c = c1 * 1 + c0 * 67108864 ∧ c1 < 256 ∧ c0 < 64)
    (hw : c + x0 * 2 ^ 25 + x1 * 2 ^ 20 + x2 * 2 ^ 14 + x3 * 2 ^ 8 = w) (h : x0 < 2 ∧ x1 < 32 ∧ x2 < 64 ∧ x3 < 64) :
    w < 2 ^ 32 ∧ bits w 31 26 = c0 ∧ bits w 7 0 = c1 ∧ bits w 25 25 = x0 ∧ bits w 24 20 = x1 ∧ bits w 19 14 = x2 ∧ bits w 13 8 = x3 := by
  refine ⟨by omega, ?_, ?_, ?_, ?_, ?_, ?_⟩
  · exact part 64 67108864 (0) _ (c1 * 1 + x0 * 33554432 + x1 * 1048576 + x2 * 16384 + x3 * 256) w (by omega) (by omega) hc.2.2
  · exact part 256 1 (c0 * 262144 + x0 * 131072 + x1 * 4096 + x2 * 64 + x3 * 1) _ (0) w (by omega) Nat.one_pos hc.2.1
  · exact part 2 33554432 (c0 * 1) _ (c1 * 1 + x1 * 1048576 + x2 * 16384 + x3 * 256) w (by omega) (by omega) h.1
  · exact part 32 1048576 (c0 * 2 + x0 * 1) _ (c1 * 1 + x2 * 16384 + x3 * 256) w (by omega) (by omega) h.2.1
  · exact part 64 16384 (c0 * 64 + x0 * 32 + x1 * 1) _ (c1 * 1 + x3 * 256) w (by omega) (by omega) h.2.2.1
  · exact part 64 256 (c0 * 4096 + x0 * 2048 + x1 * 64 + x2 * 1) _ (c1 * 1) w (by omega) (by omega) h.2.2.2

theorem fields52 {x0 x1 x2 x3 w : Nat} (c c1 c0 c2 : Nat)
    (hc : c = c1 * 1 + c0 * 67108864 + c2 * 256 ∧ c1 < 256 ∧ c0 < 64 ∧ c2 < 8)
    (hw : c + x0 * 2 ^ 25 + x1 * 2 ^ 20 + x2 * 2 ^ 14 + x3 * 2 ^ 11 = w) (h : x0 < 2 ∧ x1 < 32 ∧ x2 < 64 ∧ x3 < 8) :
    w < 2 ^ 32 ∧ bits w 31 26 = c0 ∧ bits w 7 0 = c1 ∧ bits w 10 8 = c2 ∧ bits w 25 25 = x0 ∧ bits w 24 20 = x1 ∧ bits w 19 14 = x2 ∧ bits w 13 11 = x3 := by
  refine ⟨by omega, ?_, ?_, ?_, ?_, ?_, ?_, ?_⟩
  · exact part 64 67108864 (0) _ (c1 * 1 + c2 * 256 + x0 * 33554432 + x1 * 1048576 + x2 * 16384 + x3 * 2048) w (by omega) (by omega) hc.2.2.1
  · exact part 256 1 (c0 * 262144 + c2 * 1 + x0 * 131072 + x1 * 4096 + x2 * 64 + x3 * 8) _ (0) w (by omega) Nat.one_pos hc.2.1
  · exact part 8 256 (c0 * 32768 + x0 * 16384 + x1 * 512 + x2 * 8 + x3 * 1) _ (c1 * 1) w (by omega) (by omega) hc.2.2.2
  · exact part 2 33554432 (c0 * 1) _ (c1 * 1 + c2 * 256 + x1 * 1048576 + x2 * 16384 + x3 * 2048) w (by omega) (by omega) h.1
  · exact part 32 1048576 (c0 * 2 + x0 * 1) _ (c1 * 1 + c2 * 256 + x2 * 16384 + x3 * 2048) w (by omega) (by omega) h.2.1
  · exact part 64 16384 (c0 * 64 + x0 * 32 + x1 * 1) _ (c1 * 1 + c2 * 256 + x3 * 2048) w (by omega) (by omega) h.2.2.1
  · exact part 8 2048 (c0 * 4096 + x0 * 2048 + x1 * 64 + x2 * 1) _ (c1 * 1 + c2 * 256) w (by omega) (by omega) h.2.2.2

theorem fields53 {x0 w : Nat} (c c2 c1 c0 c3 : Nat)
    (hc : c = c2 * 16384 + c1 * 1 + c0 * 67108864 + c3 * 256 ∧ c2 < 4096 ∧ c1 < 256 ∧ c0 < 64 ∧ c3 < 8)
    (hw : c + x0 * 2 ^ 11 = w) (h : x0 < 8) :
    w < 2 ^ 32 ∧ bits w 31 26 = c0 ∧ bits w 7 0 = c1 ∧ bits w 25 14 = c2 ∧ bits w 10 8 = c3 ∧ bits w 13 11 = x0 := by
  refine ⟨by omega, ?_, ?_, ?_, ?_, ?_⟩
  · exact part 64 67108864 (0) _ (c2 * 16384 + c1 * 1 + c3 * 256 + x0 * 2048) w (by omega) (by omega) hc.2.2.2.1
  · exact part 256 1 (c2 * 64 + c0 * 262144 + c3 * 1 + x0 * 8) _ (0) w (by omega) Nat.one_pos hc.2.2.1
  · exact part 4096 16384 (c0 * 1) _ (c1 * 1 + c3 * 256 + x0 * 2048) w (by omega) (by omega) hc.2.1
  · exact part 8 256 (c2 * 8 + c0 * 32768 + x0 * 1) _ (c1 * 1) w (by omega) (by omega) hc.2.2.2.2
  · exact part 8 2048 (c2 * 1 + c0 * 4096) _ (c1 * 1 + c3 * 256) w (by omega) (by omega) h

theorem fields54 {x0 x1 w : Nat} (c c1 c0 c2 c3 : Nat)
    (hc : c = c1 * 1 + c0 * 67108864 + c2 * 16384 + c3 * 256 ∧ c1 < 256 ∧ c0 < 64 ∧ c2 < 64 ∧ c3 < 8)
    (hw : c + x0 * 2 ^ 20 + x1 * 2 ^ 11 = w) (h : x0 < 64 ∧ x1 < 8) :
    w < 2 ^ 32 ∧ bits w 31 26 = c0 ∧ bits w 7 0 = c1 ∧ bits w 19 14 = c2 ∧ bits w 10 8 = c3 ∧ bits w 25 20 = x0 ∧ bits w 13 11 = x1 := by
  refine ⟨by omega, ?_, ?_, ?_, ?_, ?_, ?_⟩
  · exact part 64 67108864 (0) _ (c1 * 1 + c2 * 16384 + c3 * 256 + x0 * 1048576 + x1 * 2048) w (by omega) (by omega) hc.2.2.1
  · exact part 256 1 (c0 * 262144 + c2 * 64 + c3 * 1 + x0 * 4096 + x1 * 8) _ (0) w (by omega) Nat.one_pos hc.2.1
  · exact part 64 16384 (c0 * 64 + x0 * 1) _ (c1 * 1 + c3 * 256 + x1 * 2048) w (by omega) (by omega) hc.2.2.2.1
  · exact part 8 256 (c0 * 32768 + c2 * 8 + x0 * 512 + x1 * 1) _ (c1 * 1) w (by omega) (by omega) hc.2.2.2.2
  · exact part 64 1048576 (c0 * 1) _ (c1 * 1 + c2 * 16384 + c3 * 256 + x1 * 2048) w (by omega) (by omega) h.1
  · exact part 8 2048 (c0 * 4096 + c2 * 1 + x0 * 64) _ (c1 * 1 + c3 * 256) w (by omega) (by omega) h.2

theorem fields55 {x0 x1 w : Nat} (c c1 c0 c3 c4 c2 : Nat)
    (hc : c = c1 * 1 + c0 * 67108864 + c3 * 16384 + c4 * 256 + c2 * 33554432 ∧ c1 < 256 ∧ c0 < 64 ∧ c3 < 64 ∧ c4 < 8 ∧ c2 < 2)
    (hw : c + x0 * 2 ^ 20 + x1 * 2 ^ 11 = w) (h : x0 < 32 ∧ x1 < 8) :
    w < 2 ^ 32 ∧ bits w 31 26 = c0 ∧ bits w 7 0 = c1 ∧ bits w 25 25 = c2 ∧ bits w 19 14 = c3 ∧ bits w 10 8 = c4 ∧ bits w 24 20 = x0 ∧ bits w 13 11 = x1 := by
  refine ⟨by omega, ?_, ?_, ?_, ?_, ?_, ?_, ?_⟩
  · exact part 64 67108864 (0) _ (c1 * 1 + c3 * 16384 + c4 * 256 + c2 * 33554432 + x0 * 1048576 + x1 * 2048) w (by omega) (by omega) hc.2.2.1
  · exact part 256 1 (c0 * 262144 + c3 * 64 + c4 * 1 + c2 * 131072 + x0 * 4096 + x1 * 8) _ (0) w (by omega) Nat.one_pos hc.2.1
  · exact part 2 33554432 (c0 * 1) _ (c1 * 1 + c3 * 16384 + c4 * 256 + x0 * 1048576 + x1 * 2048) w (by omega) (by omega) hc.2.2.2.2.2
  · exact part 64 16384 (c0 * 64 + c2 * 32 + x0 * 1) _ (c1 * 1 + c4 * 256 + x1 * 2048) w (by omega) (by omega) hc.2.2.2.1
  · exact part 8 256 (c0 * 32768 + c3 * 8 + c2 * 16384 + x0 * 512 + x1 * 1) _ (c1 * 1) w (by omega) (by omega) hc.2.2.2.2.1
  · exact part 32 1048576 (c0 * 2 + c2 * 1) _ (c1 * 1 + c3 * 16384 + c4 * 256 + x1 * 2048) w (by omega) (by omega) h.1
  · exact part 8 2048 (c0 * 4096 + c3 * 1 + c2 * 2048 + x0 * 64) _ (c1 * 1 + c4 * 256) w (by omega) (by omega) h.2

theorem fields56 {x0 x1 w : Nat} (c c1 c2 c0 c3 : Nat)
    (hc : c = c1 * 1 + c2 * 524288 + c0 * 67108864 + c3 * 256 ∧ c1 < 256 ∧ c2 < 128 ∧ c0 < 64 ∧ c3 < 8)
    (hw : c + x0 * 2 ^ 14 + x1 * 2 ^ 11 = w) (h : x0 < 32 ∧ x1 < 8) :
    w < 2 ^ 32 ∧ bits w 31 26 = c0 ∧ bits w 7 0 = c1 ∧ bits w 25 19 = c2 ∧ bits w 10 8 = c3 ∧ bits w 18 14 = x0 ∧ bits w 13 11 = x1 := by
  refine ⟨by omega, ?_, ?_, ?_, ?_, ?_, ?_⟩
  · exact part 64 67108864 (0) _ (c1 * 1 + c2 * 524288 + c3 * 256 + x0 * 16384 + x1 * 2048) w (by omega) (by omega) hc.2.2.2.1
  · exact part 256 1 (c2 * 2048 + c0 * 262144 + c3 * 1 + x0 * 64 + x1 * 8) _ (0) w (by omega) Nat.one_pos hc.2.1
  · exact part 128 524288 (c0 * 1) _ (c1 * 1 + c3 * 256 + x0 * 16384 + x1 * 2048) w (by omega) (by omega) hc.2.2.1
  · exact part 8 256 (c2 * 256 + c0 * 32768 + x0 * 8 + x1 * 1) _ (c1 * 1) w (by omega) (by omega) hc.2.2.2.2
  · exact part 32 16384 (c2 * 1 + c0 * 128) _ (c1 * 1 + c3 * 256 + x1 * 2048) w (by omega) (by omega) h.1
  · exact part 8 2048 (c2 * 32 + c0 * 4096 + x0 * 1) _ (c1 * 1 + c3 * 256) w (by omega) (by omega) h.2

theorem fields57 {x0 x1 x2 x3 w : Nat} (c c1 c0 c2 : Nat)
    (hc : c = c1 * 1 + c0 * 67108864 + c2 * 1024 ∧ c1 < 256 ∧ c0 < 64 ∧ c2 < 16)
    (hw : c + x0 * 2 ^ 25 + x1 * 2 ^ 20 + x2 * 2 ^ 14 + x3 * 2 ^ 8 = w) (h : x0 < 2 ∧ x1 < 32 ∧ x2 < 64 ∧ x3 < 4) :
    w < 2 ^ 32 ∧ bits w 31 26 = c0 ∧ bits w 7 0 = c1 ∧ bits w 13 10 = c2 ∧ bits w 25 25 = x0 ∧ bits w 24 20 = x1 ∧ bits w 19 14 = x2 ∧ bits w 9 8 = x3 := by
  refine ⟨by omega, ?_, ?_, ?_, ?_, ?_, ?_, ?_⟩
  · exact part 64 67108864 (0) _ (c1 * 1 + c2 * 1024 + x0 * 33554432 + x1 * 1048576 + x2 * 16384 + x3 * 256) w (by omega) (by omega) hc.2.2.1
  · exact part 256 1 (c0 * 262144 + c2 * 4 + x0 * 131072 + x1 * 4096 + x2 * 64 + x3 * 1) _ (0) w (by omega) Nat.one_pos hc.2.1
  · exact part 16 1024 (c0 * 4096 + x0 * 2048 + x1 * 64 + x2 * 1) _ (c1 * 1 + x3 * 256) w (by omega) (by omega) hc.2.2.2
  · exact part 2 33554432 (c0 * 1) _ (c1 * 1 + c2 * 1024 + x1 * 1048576 + x2 * 16384 + x3 * 256) w (by omega) (by omega) h.1
  · exact part 32 1048576 (c0 * 2 + x0 * 1) _ (c1 * 1 + c2 * 1024 + x2 * 16384 + x3 * 256) w (by omega) (by omega) h.2.1
  · exact part 64 16384 (c0 * 64 + x0 * 32 + x1 * 1) _ (c1 * 1 + c2 * 1024 + x3 * 256) w (by omega) (by omega) h.2.2.1
  · exact part 4 256 (c0 * 65536 + c2 * 1 + x0 * 32768 + x1 * 1024 + x2 * 16) _ (c1 * 1) w (by omega) (by omega) h.2.2.2

theorem fields58 {x0 x1 w : Nat} (c c1 c0 c3 c2 : Nat)
    (hc : c = c1 * 1 + c0 * 67108864 + c3 * 256 + c2 * 33554432 ∧ c1 < 256 ∧ c0 < 64 ∧ c3 < 64 ∧ c2 < 2)
    (hw : c + x0 * 2 ^ 20 + x1 * 2 ^ 14 = w) (h : x0 < 32 ∧ x1 < 64) :
    w < 2 ^ 32 ∧ bits w 31 26 = c0 ∧ bits w 7 0 = c1 ∧ bits w 25 25 = c2 ∧ bits w 13 8 = c3 ∧ bits w 24 20 = x0 ∧ bits w 19 14 = x1 := by
  refine ⟨by omega, ?_, ?_, ?_, ?_, ?_, ?_⟩
  · exact part 64 67108864 (0) _ (c1 * 1 + c3 * 256 + c2 * 33554432 + x0 * 1048576 + x1 * 16384) w (by omega) (by omega) hc.2.2.1
  · exact part 256 1 (c0 * 262144 + c3 * 1 + c2 * 131072 + x0 * 4096 + x1 * 64) _ (0) w (by omega) Nat.one_pos hc.2.1
  · exact part 2 33554432 (c0 * 1) _ (c1 * 1 + c3 * 256 + x0 * 1048576 + x1 * 16384) w (by omega) (by omega) hc.2.2.2.2
  · exact part 64 256 (c0 * 4096 + c2 * 2048 + x0 * 64 + x1 * 1) _ (c1 * 1) w (by omega) (by omega) hc.2.2.2.1
  · exact part 32 1048576 (c0 * 2 + c2 * 1) _ (c1 * 1 + c3 * 256 + x1 * 16384) w (by omega) (by omega) h.1
  · exact part 64 16384 (c0 * 64 + c2 * 32 + x0 * 1) _ (c1 * 1 + c3 * 256) w (by omega) (by omega) h.2

theorem fields59 {x0 x1 w : Nat} (c c1 c0 c3 c2 : Nat)
    (hc : c = c1 * 1 + c0 * 67108864 + c3 * 256 + c2 * 524288 ∧ c1 < 256 ∧ c0 < 64 ∧ c3 < 64 ∧ c2 < 2)
    (hw : c + x0 * 2 ^ 20 + x1 * 2 ^ 14 = w) (h : x0 < 64 ∧ x1 < 32) :
    w < 2 ^ 32 ∧ bits w 31 26 = c0 ∧ bits w 7 0 = c1 ∧ bits w 19 19 = c2 ∧ bits w 13 8 = c3 ∧ bits w 25 20 = x0 ∧ bits w 18 14 = x1 := by
  refine ⟨by omega, ?_, ?_, ?_, ?_, ?_, ?_⟩
  · exact part 64 67108864 (0) _ (c1 * 1 + c3 * 256 + c2 * 524288 + x0 * 1048576 + x1 * 16384) w (by omega) (by omega) hc.2.2.1
  · exact part 256 1 (c0 * 262144 + c3 * 1 + c2 * 2048 + x0 * 4096 + x1 * 64) _ (0) w (by omega) Nat.one_pos hc.2.1
  · exact part 2 524288 (c0 * 64 + x0 * 1) _ (c1 * 1 + c3 * 256 + x1 * 16384) w (by omega) (by omega) hc.2.2.2.2
  · exact part 64 256 (c0 * 4096 + c2 * 32 + x0 * 64 + x1 * 1) _ (c1 * 1) w (by omega) (by omega) hc.2.2.2.1
  · exact part 64 1048576 (c0 * 1) _ (c1 * 1 + c3 * 256 + c2 * 524288 + x1 * 16384) w (by omega) (by omega) h.1
  · exact part 32 16384 (c0 * 128 + c2 * 1 + x0 * 2) _ (c1 * 1 + c3 * 256) w (by omega) (by omega) h.2

theorem fields60 {x0 x1 x2 x3 x4 w : Nat} (c c1 c0 : Nat)
    (hc : c = c1 * 1 + c0 * 67108864 ∧ c1 < 256 ∧ c0 < 64)
    (hw : c + x0 * 2 ^ 22 + x1 * 2 ^ 18 + x2 * 2 ^ 14 + x3 * 2 ^ 12 + x4 * 2 ^ 8 = w) (h : x0 < 16 ∧ x1 < 16 ∧ x2 < 16 ∧ x3 < 4 ∧ x4 < 16) :
    w < 2 ^ 32 ∧ bits w 31 26 = c0 ∧ bits w 7 0 = c1 ∧ bits w 25 22 = x0 ∧ bits w 21 18 = x1 ∧ bits w 17 14 = x2 ∧ bits w 13 12 = x3 ∧ bits w 11 8 = x4 := by
  refine ⟨by omega, ?_, ?_, ?_, ?_, ?_, ?_, ?_⟩
  · exact part 64 67108864 (0) _ (c1 * 1 + x0 * 4194304 + x1 * 262144 + x2 * 16384 + x3 * 4096 + x4 * 256) w (by omega) (by omega) hc.2.2
  · exact part 256 1 (c0 * 262144 + x0 * 16384 + x1 * 1024 + x2 * 64 + x3 * 16 + x4 * 1) _ (0) w (by omega) Nat.one_pos hc.2.1
  · exact part 16 4194304 (c0 * 1) _ (c1 * 1 + x1 * 262144 + x2 * 16384 + x3 * 4096 + x4 * 256) w (by omega) (by omega) h.1
  · exact part 16 262144 (c0 * 16 + x0 * 1) _ (c1 * 1 + x2 * 16384 + x3 * 4096 + x4 * 256) w (by omega) (by omega) h.2.1
  · exact part 16 16384 (c0 * 256 + x0 * 16 + x1 * 1) _ (c1 * 1 + x3 * 4096 + x4 * 256) w (by omega) (by omega) h.2.2.1
  · exact part 4 4096 (c0 * 4096 + x0 * 256 + x1 * 16 + x2 * 1) _ (c1 * 1 + x4 * 256) w (by omega) (by omega) h.2.2.2.1
  · exact part 16 256 (c0 * 16384 + x0 * 1024 + x1 * 64 + x2 * 4 + x3 * 1) _ (c1 * 1) w (by omega) (by omega) h.2.2.2.2

theorem nop : Statement (.nop) := by
  intro h w hw
  replace hw : 1 = w := Option.some.inj hw
  obtain ⟨hb, h0, h1, h2⟩ := fields0 1 0 1 0 (by decide) hw
  refine ⟨hb, ?_⟩
  unfold decode
  rw [h0]
  show decSys w = _
  unfold decSys
  rw [h1]
  show (if bits w 25 8 = 0 then Except.ok (Instr.nop) else _) = _
  rw [if_pos h2]

theorem trap (x0 x1 x2 : Nat) : Statement (.trap x0 x1 x2) := by
  intro h w hw
  replace h : x0 < 64 ∧ x1 < 64 ∧ x2 < 64 := of_decide_eq_true h
  replace hw : 2 + x0 * 2 ^ 20 + x1 * 2 ^ 14 + x2 * 2 ^ 8 = w := Option.some.inj hw
  obtain ⟨hb, h0, h1, h2, h3, h4⟩ := fields1 2 2 0 (by decide) hw h
  refine ⟨hb, ?_⟩
  unfold decode
  rw [h0]
  show decSys w = _
  unfold decSys
  rw [h1]
  show Except.ok (Instr.trap (bits w 25 20) (bits w 19 14) (bits w 13 8)) = _
  rw [h2, h3, h4]

theorem eret : Statement (.eret) := by
  intro h w hw
  replace hw : 3 = w := Option.some.inj hw
  obtain ⟨hb, h0, h1, h2⟩ := fields0 3 0 3 0 (by decide) hw
  refine ⟨hb, ?_⟩
  unfold decode
  rw [h0]
  show decSys w = _
  unfold decSys
  rw [h1]
  show (if bits w 25 8 = 0 then Except.ok (Instr.eret) else _) = _
  rw [if_pos h2]

theorem icinv (x0 x1 x2 : Nat) : Statement (.icinv x0 x1 x2) := by
  intro h w hw
  replace h : x0 < 64 ∧ x1 < 64 ∧ x2 < 64 := of_decide_eq_true h
  replace hw : 4 + x0 * 2 ^ 20 + x1 * 2 ^ 14 + x2 * 2 ^ 8 = w := Option.some.inj hw
  obtain ⟨hb, h0, h1, h2, h3, h4⟩ := fields1 4 4 0 (by decide) hw h
  refine ⟨hb, ?_⟩
  unfold decode
  rw [h0]
  show decSys w = _
  unfold decSys
  rw [h1]
  show Except.ok (Instr.icinv (bits w 25 20) (bits w 19 14) (bits w 13 8)) = _
  rw [h2, h3, h4]

theorem brk : Statement (.brk) := by
  intro h w hw
  replace hw : 5 = w := Option.some.inj hw
  obtain ⟨hb, h0, h1, h2⟩ := fields0 5 0 5 0 (by decide) hw
  refine ⟨hb, ?_⟩
  unfold decode
  rw [h0]
  show decSys w = _
  unfold decSys
  rw [h1]
  show (if bits w 25 8 = 0 then Except.ok (Instr.brk) else _) = _
  rw [if_pos h2]

theorem csrr (x0 x1 : Nat) : Statement (.csrr x0 x1) := by
  intro h w hw
  replace h : x0 < 64 ∧ x1 < 64 := of_decide_eq_true h
  replace hw : 6 + x0 * 2 ^ 20 + x1 * 2 ^ 8 = w := Option.some.inj hw
  obtain ⟨hb, h0, h1, h2, h3, h4⟩ := fields2 6 6 0 0 (by decide) hw h
  refine ⟨hb, ?_⟩
  unfold decode
  rw [h0]
  show decSys w = _
  unfold decSys
  rw [h1]
  show (if bits w 19 14 = 0 then Except.ok (Instr.csrr (bits w 25 20) (bits w 13 8)) else _) = _
  rw [if_pos h2]
  rw [h3, h4]

theorem csrw (x0 x1 x2 : Nat) : Statement (.csrw x0 x1 x2) := by
  intro h w hw
  replace h : x0 < 64 ∧ x1 < 64 ∧ x2 < 64 := of_decide_eq_true h
  replace hw : 7 + x0 * 2 ^ 20 + x1 * 2 ^ 14 + x2 * 2 ^ 8 = w := Option.some.inj hw
  obtain ⟨hb, h0, h1, h2, h3, h4⟩ := fields1 7 7 0 (by decide) hw h
  refine ⟨hb, ?_⟩
  unfold decode
  rw [h0]
  show decSys w = _
  unfold decSys
  rw [h1]
  show Except.ok (Instr.csrw (bits w 25 20) (bits w 19 14) (bits w 13 8)) = _
  rw [h2, h3, h4]

theorem csrs (x0 x1 x2 : Nat) : Statement (.csrs x0 x1 x2) := by
  intro h w hw
  replace h : x0 < 64 ∧ x1 < 64 ∧ x2 < 64 := of_decide_eq_true h
  replace hw : 8 + x0 * 2 ^ 20 + x1 * 2 ^ 14 + x2 * 2 ^ 8 = w := Option.some.inj hw
  obtain ⟨hb, h0, h1, h2, h3, h4⟩ := fields1 8 8 0 (by decide) hw h
  refine ⟨hb, ?_⟩
  unfold decode
  rw [h0]
  show decSys w = _
  unfold decSys
  rw [h1]
  show Except.ok (Instr.csrs (bits w 25 20) (bits w 19 14) (bits w 13 8)) = _
  rw [h2, h3, h4]

theorem csrc (x0 x1 x2 : Nat) : Statement (.csrc x0 x1 x2) := by
  intro h w hw
  replace h : x0 < 64 ∧ x1 < 64 ∧ x2 < 64 := of_decide_eq_true h
  replace hw : 9 + x0 * 2 ^ 20 + x1 * 2 ^ 14 + x2 * 2 ^ 8 = w := Option.some.inj hw
  obtain ⟨hb, h0, h1, h2, h3, h4⟩ := fields1 9 9 0 (by decide) hw h
  refine ⟨hb, ?_⟩
  unfold decode
  rw [h0]
  show decSys w = _
  unfold decSys
  rw [h1]
  show Except.ok (Instr.csrc (bits w 25 20) (bits w 19 14) (bits w 13 8)) = _
  rw [h2, h3, h4]

theorem ctxsave (x0 : Nat) : Statement (.ctxsave x0) := by
  intro h w hw
  replace h : x0 < 64 := of_decide_eq_true h
  replace hw : 10 + x0 * 2 ^ 8 = w := Option.some.inj hw
  obtain ⟨hb, h0, h1, h2, h3⟩ := fields3 10 0 10 0 (by decide) hw h
  refine ⟨hb, ?_⟩
  unfold decode
  rw [h0]
  show decSys w = _
  unfold decSys
  rw [h1]
  show (if bits w 25 14 = 0 then Except.ok (Instr.ctxsave (bits w 13 8)) else _) = _
  rw [if_pos h2]
  rw [h3]

theorem ctxrest : Statement (.ctxrest) := by
  intro h w hw
  replace hw : 11 = w := Option.some.inj hw
  obtain ⟨hb, h0, h1, h2⟩ := fields0 11 0 11 0 (by decide) hw
  refine ⟨hb, ?_⟩
  unfold decode
  rw [h0]
  show decSys w = _
  unfold decSys
  rw [h1]
  show (if bits w 25 8 = 0 then Except.ok (Instr.ctxrest) else _) = _
  rw [if_pos h2]

theorem svcreply (x0 x1 x2 : Nat) : Statement (.svcreply x0 x1 x2) := by
  intro h w hw
  replace h : x0 < 64 ∧ x1 < 64 ∧ x2 < 64 := of_decide_eq_true h
  replace hw : 12 + x0 * 2 ^ 20 + x1 * 2 ^ 14 + x2 * 2 ^ 8 = w := Option.some.inj hw
  obtain ⟨hb, h0, h1, h2, h3, h4⟩ := fields1 12 12 0 (by decide) hw h
  refine ⟨hb, ?_⟩
  unfold decode
  rw [h0]
  show decSys w = _
  unfold decSys
  rw [h1]
  show Except.ok (Instr.svcreply (bits w 25 20) (bits w 19 14) (bits w 13 8)) = _
  rw [h2, h3, h4]

theorem gstopPartition (x0 : Nat) : Statement (.gstopPartition x0) := by
  intro h w hw
  replace h : x0 < 64 := of_decide_eq_true h
  replace hw : 13 + x0 * 2 ^ 14 = w := Option.some.inj hw
  obtain ⟨hb, h0, h1, h2, h3, h4⟩ := fields4 13 13 0 0 0 (by decide) hw h
  refine ⟨hb, ?_⟩
  unfold decode
  rw [h0]
  show decSys w = _
  unfold decSys
  rw [h1]
  show (if bits w 25 20 = 0 ∧ bits w 13 8 = 0 then Except.ok (Instr.gstopPartition (bits w 19 14)) else _) = _
  rw [if_pos ⟨h2, h3⟩]
  rw [h4]

theorem gstopPackage (x0 : Nat) : Statement (.gstopPackage x0) := by
  intro h w hw
  replace h : x0 < 64 := of_decide_eq_true h
  replace hw : 269 + x0 * 2 ^ 14 = w := Option.some.inj hw
  obtain ⟨hb, h0, h1, h2, h3, h4⟩ := fields4 269 13 0 0 1 (by decide) hw h
  refine ⟨hb, ?_⟩
  unfold decode
  rw [h0]
  show decSys w = _
  unfold decSys
  rw [h1]
  simp [h2, h3, h4]

theorem gstopResume (x0 : Nat) : Statement (.gstopResume x0) := by
  intro h w hw
  replace h : x0 < 64 := of_decide_eq_true h
  replace hw : 525 + x0 * 2 ^ 14 = w := Option.some.inj hw
  obtain ⟨hb, h0, h1, h2, h3, h4⟩ := fields4 525 13 0 0 2 (by decide) hw h
  refine ⟨hb, ?_⟩
  unfold decode
  rw [h0]
  show decSys w = _
  unfold decSys
  rw [h1]
  simp [h2, h3, h4]

theorem add (x0 x1 x2 : Nat) : Statement (.add x0 x1 x2) := by
  intro h w hw
  replace h : x0 < 64 ∧ x1 < 64 ∧ x2 < 64 := of_decide_eq_true h
  replace hw : 67108864 + x0 * 2 ^ 20 + x1 * 2 ^ 14 + x2 * 2 ^ 8 = w := Option.some.inj hw
  obtain ⟨hb, h0, h1, h2, h3, h4⟩ := fields1 67108864 0 1 (by decide) hw h
  refine ⟨hb, ?_⟩
  unfold decode
  rw [h0]
  show decAlu w = _
  unfold decAlu
  rw [h1]
  show Except.ok (Instr.add (bits w 25 20) (bits w 19 14) (bits w 13 8)) = _
  rw [h2, h3, h4]

theorem sub (x0 x1 x2 : Nat) : Statement (.sub x0 x1 x2) := by
  intro h w hw
  replace h : x0 < 64 ∧ x1 < 64 ∧ x2 < 64 := of_decide_eq_true h
  replace hw : 67108865 + x0 * 2 ^ 20 + x1 * 2 ^ 14 + x2 * 2 ^ 8 = w := Option.some.inj hw
  obtain ⟨hb, h0, h1, h2, h3, h4⟩ := fields1 67108865 1 1 (by decide) hw h
  refine ⟨hb, ?_⟩
  unfold decode
  rw [h0]
  show decAlu w = _
  unfold decAlu
  rw [h1]
  show Except.ok (Instr.sub (bits w 25 20) (bits w 19 14) (bits w 13 8)) = _
  rw [h2, h3, h4]

theorem mul (x0 x1 x2 : Nat) : Statement (.mul x0 x1 x2) := by
  intro h w hw
  replace h : x0 < 64 ∧ x1 < 64 ∧ x2 < 64 := of_decide_eq_true h
  replace hw : 67108866 + x0 * 2 ^ 20 + x1 * 2 ^ 14 + x2 * 2 ^ 8 = w := Option.some.inj hw
  obtain ⟨hb, h0, h1, h2, h3, h4⟩ := fields1 67108866 2 1 (by decide) hw h
  refine ⟨hb, ?_⟩
  unfold decode
  rw [h0]
  show decAlu w = _
  unfold decAlu
  rw [h1]
  show Except.ok (Instr.mul (bits w 25 20) (bits w 19 14) (bits w 13 8)) = _
  rw [h2, h3, h4]

theorem mulh (x0 x1 x2 : Nat) : Statement (.mulh x0 x1 x2) := by
  intro h w hw
  replace h : x0 < 64 ∧ x1 < 64 ∧ x2 < 64 := of_decide_eq_true h
  replace hw : 67108867 + x0 * 2 ^ 20 + x1 * 2 ^ 14 + x2 * 2 ^ 8 = w := Option.some.inj hw
  obtain ⟨hb, h0, h1, h2, h3, h4⟩ := fields1 67108867 3 1 (by decide) hw h
  refine ⟨hb, ?_⟩
  unfold decode
  rw [h0]
  show decAlu w = _
  unfold decAlu
  rw [h1]
  show Except.ok (Instr.mulh (bits w 25 20) (bits w 19 14) (bits w 13 8)) = _
  rw [h2, h3, h4]

theorem mulhn (x0 x1 x2 : Nat) : Statement (.mulhn x0 x1 x2) := by
  intro h w hw
  replace h : x0 < 64 ∧ x1 < 64 ∧ x2 < 64 := of_decide_eq_true h
  replace hw : 67108868 + x0 * 2 ^ 20 + x1 * 2 ^ 14 + x2 * 2 ^ 8 = w := Option.some.inj hw
  obtain ⟨hb, h0, h1, h2, h3, h4⟩ := fields1 67108868 4 1 (by decide) hw h
  refine ⟨hb, ?_⟩
  unfold decode
  rw [h0]
  show decAlu w = _
  unfold decAlu
  rw [h1]
  show Except.ok (Instr.mulhn (bits w 25 20) (bits w 19 14) (bits w 13 8)) = _
  rw [h2, h3, h4]

theorem div (x0 x1 x2 : Nat) : Statement (.div x0 x1 x2) := by
  intro h w hw
  replace h : x0 < 64 ∧ x1 < 64 ∧ x2 < 64 := of_decide_eq_true h
  replace hw : 67108869 + x0 * 2 ^ 20 + x1 * 2 ^ 14 + x2 * 2 ^ 8 = w := Option.some.inj hw
  obtain ⟨hb, h0, h1, h2, h3, h4⟩ := fields1 67108869 5 1 (by decide) hw h
  refine ⟨hb, ?_⟩
  unfold decode
  rw [h0]
  show decAlu w = _
  unfold decAlu
  rw [h1]
  show Except.ok (Instr.div (bits w 25 20) (bits w 19 14) (bits w 13 8)) = _
  rw [h2, h3, h4]

theorem divn (x0 x1 x2 : Nat) : Statement (.divn x0 x1 x2) := by
  intro h w hw
  replace h : x0 < 64 ∧ x1 < 64 ∧ x2 < 64 := of_decide_eq_true h
  replace hw : 67108870 + x0 * 2 ^ 20 + x1 * 2 ^ 14 + x2 * 2 ^ 8 = w := Option.some.inj hw
  obtain ⟨hb, h0, h1, h2, h3, h4⟩ := fields1 67108870 6 1 (by decide) hw h
  refine ⟨hb, ?_⟩
  unfold decode
  rw [h0]
  show decAlu w = _
  unfold decAlu
  rw [h1]
  show Except.ok (Instr.divn (bits w 25 20) (bits w 19 14) (bits w 13 8)) = _
  rw [h2, h3, h4]

theorem rem (x0 x1 x2 : Nat) : Statement (.rem x0 x1 x2) := by
  intro h w hw
  replace h : x0 < 64 ∧ x1 < 64 ∧ x2 < 64 := of_decide_eq_true h
  replace hw : 67108871 + x0 * 2 ^ 20 + x1 * 2 ^ 14 + x2 * 2 ^ 8 = w := Option.some.inj hw
  obtain ⟨hb, h0, h1, h2, h3, h4⟩ := fields1 67108871 7 1 (by decide) hw h
  refine ⟨hb, ?_⟩
  unfold decode
  rw [h0]
  show decAlu w = _
  unfold decAlu
  rw [h1]
  show Except.ok (Instr.rem (bits w 25 20) (bits w 19 14) (bits w 13 8)) = _
  rw [h2, h3, h4]

theorem remn (x0 x1 x2 : Nat) : Statement (.remn x0 x1 x2) := by
  intro h w hw
  replace h : x0 < 64 ∧ x1 < 64 ∧ x2 < 64 := of_decide_eq_true h
  replace hw : 67108872 + x0 * 2 ^ 20 + x1 * 2 ^ 14 + x2 * 2 ^ 8 = w := Option.some.inj hw
  obtain ⟨hb, h0, h1, h2, h3, h4⟩ := fields1 67108872 8 1 (by decide) hw h
  refine ⟨hb, ?_⟩
  unfold decode
  rw [h0]
  show decAlu w = _
  unfold decAlu
  rw [h1]
  show Except.ok (Instr.remn (bits w 25 20) (bits w 19 14) (bits w 13 8)) = _
  rw [h2, h3, h4]

theorem and (x0 x1 x2 : Nat) : Statement (.and x0 x1 x2) := by
  intro h w hw
  replace h : x0 < 64 ∧ x1 < 64 ∧ x2 < 64 := of_decide_eq_true h
  replace hw : 67108873 + x0 * 2 ^ 20 + x1 * 2 ^ 14 + x2 * 2 ^ 8 = w := Option.some.inj hw
  obtain ⟨hb, h0, h1, h2, h3, h4⟩ := fields1 67108873 9 1 (by decide) hw h
  refine ⟨hb, ?_⟩
  unfold decode
  rw [h0]
  show decAlu w = _
  unfold decAlu
  rw [h1]
  show Except.ok (Instr.and (bits w 25 20) (bits w 19 14) (bits w 13 8)) = _
  rw [h2, h3, h4]

theorem or (x0 x1 x2 : Nat) : Statement (.or x0 x1 x2) := by
  intro h w hw
  replace h : x0 < 64 ∧ x1 < 64 ∧ x2 < 64 := of_decide_eq_true h
  replace hw : 67108874 + x0 * 2 ^ 20 + x1 * 2 ^ 14 + x2 * 2 ^ 8 = w := Option.some.inj hw
  obtain ⟨hb, h0, h1, h2, h3, h4⟩ := fields1 67108874 10 1 (by decide) hw h
  refine ⟨hb, ?_⟩
  unfold decode
  rw [h0]
  show decAlu w = _
  unfold decAlu
  rw [h1]
  show Except.ok (Instr.or (bits w 25 20) (bits w 19 14) (bits w 13 8)) = _
  rw [h2, h3, h4]

theorem xor (x0 x1 x2 : Nat) : Statement (.xor x0 x1 x2) := by
  intro h w hw
  replace h : x0 < 64 ∧ x1 < 64 ∧ x2 < 64 := of_decide_eq_true h
  replace hw : 67108875 + x0 * 2 ^ 20 + x1 * 2 ^ 14 + x2 * 2 ^ 8 = w := Option.some.inj hw
  obtain ⟨hb, h0, h1, h2, h3, h4⟩ := fields1 67108875 11 1 (by decide) hw h
  refine ⟨hb, ?_⟩
  unfold decode
  rw [h0]
  show decAlu w = _
  unfold decAlu
  rw [h1]
  show Except.ok (Instr.xor (bits w 25 20) (bits w 19 14) (bits w 13 8)) = _
  rw [h2, h3, h4]

theorem andn (x0 x1 x2 : Nat) : Statement (.andn x0 x1 x2) := by
  intro h w hw
  replace h : x0 < 64 ∧ x1 < 64 ∧ x2 < 64 := of_decide_eq_true h
  replace hw : 67108876 + x0 * 2 ^ 20 + x1 * 2 ^ 14 + x2 * 2 ^ 8 = w := Option.some.inj hw
  obtain ⟨hb, h0, h1, h2, h3, h4⟩ := fields1 67108876 12 1 (by decide) hw h
  refine ⟨hb, ?_⟩
  unfold decode
  rw [h0]
  show decAlu w = _
  unfold decAlu
  rw [h1]
  show Except.ok (Instr.andn (bits w 25 20) (bits w 19 14) (bits w 13 8)) = _
  rw [h2, h3, h4]

theorem shl (x0 x1 x2 : Nat) : Statement (.shl x0 x1 x2) := by
  intro h w hw
  replace h : x0 < 64 ∧ x1 < 64 ∧ x2 < 64 := of_decide_eq_true h
  replace hw : 67108877 + x0 * 2 ^ 20 + x1 * 2 ^ 14 + x2 * 2 ^ 8 = w := Option.some.inj hw
  obtain ⟨hb, h0, h1, h2, h3, h4⟩ := fields1 67108877 13 1 (by decide) hw h
  refine ⟨hb, ?_⟩
  unfold decode
  rw [h0]
  show decAlu w = _
  unfold decAlu
  rw [h1]
  show Except.ok (Instr.shl (bits w 25 20) (bits w 19 14) (bits w 13 8)) = _
  rw [h2, h3, h4]

theorem shr (x0 x1 x2 : Nat) : Statement (.shr x0 x1 x2) := by
  intro h w hw
  replace h : x0 < 64 ∧ x1 < 64 ∧ x2 < 64 := of_decide_eq_true h
  replace hw : 67108878 + x0 * 2 ^ 20 + x1 * 2 ^ 14 + x2 * 2 ^ 8 = w := Option.some.inj hw
  obtain ⟨hb, h0, h1, h2, h3, h4⟩ := fields1 67108878 14 1 (by decide) hw h
  refine ⟨hb, ?_⟩
  unfold decode
  rw [h0]
  show decAlu w = _
  unfold decAlu
  rw [h1]
  show Except.ok (Instr.shr (bits w 25 20) (bits w 19 14) (bits w 13 8)) = _
  rw [h2, h3, h4]

theorem sar (x0 x1 x2 : Nat) : Statement (.sar x0 x1 x2) := by
  intro h w hw
  replace h : x0 < 64 ∧ x1 < 64 ∧ x2 < 64 := of_decide_eq_true h
  replace hw : 67108879 + x0 * 2 ^ 20 + x1 * 2 ^ 14 + x2 * 2 ^ 8 = w := Option.some.inj hw
  obtain ⟨hb, h0, h1, h2, h3, h4⟩ := fields1 67108879 15 1 (by decide) hw h
  refine ⟨hb, ?_⟩
  unfold decode
  rw [h0]
  show decAlu w = _
  unfold decAlu
  rw [h1]
  show Except.ok (Instr.sar (bits w 25 20) (bits w 19 14) (bits w 13 8)) = _
  rw [h2, h3, h4]

theorem rotl (x0 x1 x2 : Nat) : Statement (.rotl x0 x1 x2) := by
  intro h w hw
  replace h : x0 < 64 ∧ x1 < 64 ∧ x2 < 64 := of_decide_eq_true h
  replace hw : 67108880 + x0 * 2 ^ 20 + x1 * 2 ^ 14 + x2 * 2 ^ 8 = w := Option.some.inj hw
  obtain ⟨hb, h0, h1, h2, h3, h4⟩ := fields1 67108880 16 1 (by decide) hw h
  refine ⟨hb, ?_⟩
  unfold decode
  rw [h0]
  show decAlu w = _
  unfold decAlu
  rw [h1]
  show Except.ok (Instr.rotl (bits w 25 20) (bits w 19 14) (bits w 13 8)) = _
  rw [h2, h3, h4]

theorem min (x0 x1 x2 : Nat) : Statement (.min x0 x1 x2) := by
  intro h w hw
  replace h : x0 < 64 ∧ x1 < 64 ∧ x2 < 64 := of_decide_eq_true h
  replace hw : 67108881 + x0 * 2 ^ 20 + x1 * 2 ^ 14 + x2 * 2 ^ 8 = w := Option.some.inj hw
  obtain ⟨hb, h0, h1, h2, h3, h4⟩ := fields1 67108881 17 1 (by decide) hw h
  refine ⟨hb, ?_⟩
  unfold decode
  rw [h0]
  show decAlu w = _
  unfold decAlu
  rw [h1]
  show Except.ok (Instr.min (bits w 25 20) (bits w 19 14) (bits w 13 8)) = _
  rw [h2, h3, h4]

theorem max (x0 x1 x2 : Nat) : Statement (.max x0 x1 x2) := by
  intro h w hw
  replace h : x0 < 64 ∧ x1 < 64 ∧ x2 < 64 := of_decide_eq_true h
  replace hw : 67108882 + x0 * 2 ^ 20 + x1 * 2 ^ 14 + x2 * 2 ^ 8 = w := Option.some.inj hw
  obtain ⟨hb, h0, h1, h2, h3, h4⟩ := fields1 67108882 18 1 (by decide) hw h
  refine ⟨hb, ?_⟩
  unfold decode
  rw [h0]
  show decAlu w = _
  unfold decAlu
  rw [h1]
  show Except.ok (Instr.max (bits w 25 20) (bits w 19 14) (bits w 13 8)) = _
  rw [h2, h3, h4]

theorem minn (x0 x1 x2 : Nat) : Statement (.minn x0 x1 x2) := by
  intro h w hw
  replace h : x0 < 64 ∧ x1 < 64 ∧ x2 < 64 := of_decide_eq_true h
  replace hw : 67108883 + x0 * 2 ^ 20 + x1 * 2 ^ 14 + x2 * 2 ^ 8 = w := Option.some.inj hw
  obtain ⟨hb, h0, h1, h2, h3, h4⟩ := fields1 67108883 19 1 (by decide) hw h
  refine ⟨hb, ?_⟩
  unfold decode
  rw [h0]
  show decAlu w = _
  unfold decAlu
  rw [h1]
  show Except.ok (Instr.minn (bits w 25 20) (bits w 19 14) (bits w 13 8)) = _
  rw [h2, h3, h4]

theorem maxn (x0 x1 x2 : Nat) : Statement (.maxn x0 x1 x2) := by
  intro h w hw
  replace h : x0 < 64 ∧ x1 < 64 ∧ x2 < 64 := of_decide_eq_true h
  replace hw : 67108884 + x0 * 2 ^ 20 + x1 * 2 ^ 14 + x2 * 2 ^ 8 = w := Option.some.inj hw
  obtain ⟨hb, h0, h1, h2, h3, h4⟩ := fields1 67108884 20 1 (by decide) hw h
  refine ⟨hb, ?_⟩
  unfold decode
  rw [h0]
  show decAlu w = _
  unfold decAlu
  rw [h1]
  show Except.ok (Instr.maxn (bits w 25 20) (bits w 19 14) (bits w 13 8)) = _
  rw [h2, h3, h4]

theorem seq (x0 x1 x2 : Nat) : Statement (.seq x0 x1 x2) := by
  intro h w hw
  replace h : x0 < 64 ∧ x1 < 64 ∧ x2 < 64 := of_decide_eq_true h
  replace hw : 67108885 + x0 * 2 ^ 20 + x1 * 2 ^ 14 + x2 * 2 ^ 8 = w := Option.some.inj hw
  obtain ⟨hb, h0, h1, h2, h3, h4⟩ := fields1 67108885 21 1 (by decide) hw h
  refine ⟨hb, ?_⟩
  unfold decode
  rw [h0]
  show decAlu w = _
  unfold decAlu
  rw [h1]
  show Except.ok (Instr.seq (bits w 25 20) (bits w 19 14) (bits w 13 8)) = _
  rw [h2, h3, h4]

theorem sne (x0 x1 x2 : Nat) : Statement (.sne x0 x1 x2) := by
  intro h w hw
  replace h : x0 < 64 ∧ x1 < 64 ∧ x2 < 64 := of_decide_eq_true h
  replace hw : 67108886 + x0 * 2 ^ 20 + x1 * 2 ^ 14 + x2 * 2 ^ 8 = w := Option.some.inj hw
  obtain ⟨hb, h0, h1, h2, h3, h4⟩ := fields1 67108886 22 1 (by decide) hw h
  refine ⟨hb, ?_⟩
  unfold decode
  rw [h0]
  show decAlu w = _
  unfold decAlu
  rw [h1]
  show Except.ok (Instr.sne (bits w 25 20) (bits w 19 14) (bits w 13 8)) = _
  rw [h2, h3, h4]

theorem slt (x0 x1 x2 : Nat) : Statement (.slt x0 x1 x2) := by
  intro h w hw
  replace h : x0 < 64 ∧ x1 < 64 ∧ x2 < 64 := of_decide_eq_true h
  replace hw : 67108887 + x0 * 2 ^ 20 + x1 * 2 ^ 14 + x2 * 2 ^ 8 = w := Option.some.inj hw
  obtain ⟨hb, h0, h1, h2, h3, h4⟩ := fields1 67108887 23 1 (by decide) hw h
  refine ⟨hb, ?_⟩
  unfold decode
  rw [h0]
  show decAlu w = _
  unfold decAlu
  rw [h1]
  show Except.ok (Instr.slt (bits w 25 20) (bits w 19 14) (bits w 13 8)) = _
  rw [h2, h3, h4]

theorem sltn (x0 x1 x2 : Nat) : Statement (.sltn x0 x1 x2) := by
  intro h w hw
  replace h : x0 < 64 ∧ x1 < 64 ∧ x2 < 64 := of_decide_eq_true h
  replace hw : 67108888 + x0 * 2 ^ 20 + x1 * 2 ^ 14 + x2 * 2 ^ 8 = w := Option.some.inj hw
  obtain ⟨hb, h0, h1, h2, h3, h4⟩ := fields1 67108888 24 1 (by decide) hw h
  refine ⟨hb, ?_⟩
  unfold decode
  rw [h0]
  show decAlu w = _
  unfold decAlu
  rw [h1]
  show Except.ok (Instr.sltn (bits w 25 20) (bits w 19 14) (bits w 13 8)) = _
  rw [h2, h3, h4]

theorem sle (x0 x1 x2 : Nat) : Statement (.sle x0 x1 x2) := by
  intro h w hw
  replace h : x0 < 64 ∧ x1 < 64 ∧ x2 < 64 := of_decide_eq_true h
  replace hw : 67108889 + x0 * 2 ^ 20 + x1 * 2 ^ 14 + x2 * 2 ^ 8 = w := Option.some.inj hw
  obtain ⟨hb, h0, h1, h2, h3, h4⟩ := fields1 67108889 25 1 (by decide) hw h
  refine ⟨hb, ?_⟩
  unfold decode
  rw [h0]
  show decAlu w = _
  unfold decAlu
  rw [h1]
  show Except.ok (Instr.sle (bits w 25 20) (bits w 19 14) (bits w 13 8)) = _
  rw [h2, h3, h4]

theorem slen (x0 x1 x2 : Nat) : Statement (.slen x0 x1 x2) := by
  intro h w hw
  replace h : x0 < 64 ∧ x1 < 64 ∧ x2 < 64 := of_decide_eq_true h
  replace hw : 67108890 + x0 * 2 ^ 20 + x1 * 2 ^ 14 + x2 * 2 ^ 8 = w := Option.some.inj hw
  obtain ⟨hb, h0, h1, h2, h3, h4⟩ := fields1 67108890 26 1 (by decide) hw h
  refine ⟨hb, ?_⟩
  unfold decode
  rw [h0]
  show decAlu w = _
  unfold decAlu
  rw [h1]
  show Except.ok (Instr.slen (bits w 25 20) (bits w 19 14) (bits w 13 8)) = _
  rw [h2, h3, h4]

theorem sel (x0 x1 x2 : Nat) : Statement (.sel x0 x1 x2) := by
  intro h w hw
  replace h : x0 < 64 ∧ x1 < 64 ∧ x2 < 64 := of_decide_eq_true h
  replace hw : 67108891 + x0 * 2 ^ 20 + x1 * 2 ^ 14 + x2 * 2 ^ 8 = w := Option.some.inj hw
  obtain ⟨hb, h0, h1, h2, h3, h4⟩ := fields1 67108891 27 1 (by decide) hw h
  refine ⟨hb, ?_⟩
  unfold decode
  rw [h0]
  show decAlu w = _
  unfold decAlu
  rw [h1]
  show Except.ok (Instr.sel (bits w 25 20) (bits w 19 14) (bits w 13 8)) = _
  rw [h2, h3, h4]

theorem clz (x0 x1 : Nat) : Statement (.clz x0 x1) := by
  intro h w hw
  replace h : x0 < 64 ∧ x1 < 64 := of_decide_eq_true h
  replace hw : 67108892 + x0 * 2 ^ 20 + x1 * 2 ^ 14 = w := Option.some.inj hw
  obtain ⟨hb, h0, h1, h2, h3, h4⟩ := fields5 67108892 28 1 0 (by decide) hw h
  refine ⟨hb, ?_⟩
  unfold decode
  rw [h0]
  show decAlu w = _
  unfold decAlu
  rw [h1]
  show (if bits w 13 8 = 0 then Except.ok (Instr.clz (bits w 25 20) (bits w 19 14)) else _) = _
  rw [if_pos h2]
  rw [h3, h4]

theorem ctz (x0 x1 : Nat) : Statement (.ctz x0 x1) := by
  intro h w hw
  replace h : x0 < 64 ∧ x1 < 64 := of_decide_eq_true h
  replace hw : 67108893 + x0 * 2 ^ 20 + x1 * 2 ^ 14 = w := Option.some.inj hw
  obtain ⟨hb, h0, h1, h2, h3, h4⟩ := fields5 67108893 29 1 0 (by decide) hw h
  refine ⟨hb, ?_⟩
  unfold decode
  rw [h0]
  show decAlu w = _
  unfold decAlu
  rw [h1]
  show (if bits w 13 8 = 0 then Except.ok (Instr.ctz (bits w 25 20) (bits w 19 14)) else _) = _
  rw [if_pos h2]
  rw [h3, h4]

theorem popc (x0 x1 : Nat) : Statement (.popc x0 x1) := by
  intro h w hw
  replace h : x0 < 64 ∧ x1 < 64 := of_decide_eq_true h
  replace hw : 67108894 + x0 * 2 ^ 20 + x1 * 2 ^ 14 = w := Option.some.inj hw
  obtain ⟨hb, h0, h1, h2, h3, h4⟩ := fields5 67108894 30 1 0 (by decide) hw h
  refine ⟨hb, ?_⟩
  unfold decode
  rw [h0]
  show decAlu w = _
  unfold decAlu
  rw [h1]
  show (if bits w 13 8 = 0 then Except.ok (Instr.popc (bits w 25 20) (bits w 19 14)) else _) = _
  rw [if_pos h2]
  rw [h3, h4]

theorem sext (x0 x1 x2 : Nat) : Statement (.sext x0 x1 x2) := by
  intro h w hw
  replace h : x0 < 64 ∧ x1 < 64 ∧ x2 < 64 := of_decide_eq_true h
  replace hw : 67108895 + x0 * 2 ^ 20 + x1 * 2 ^ 14 + x2 * 2 ^ 8 = w := Option.some.inj hw
  obtain ⟨hb, h0, h1, h2, h3, h4⟩ := fields1 67108895 31 1 (by decide) hw h
  refine ⟨hb, ?_⟩
  unfold decode
  rw [h0]
  show decAlu w = _
  unfold decAlu
  rw [h1]
  show Except.ok (Instr.sext (bits w 25 20) (bits w 19 14) (bits w 13 8)) = _
  rw [h2, h3, h4]

theorem ext (x0 x1 x2 : Nat) : Statement (.ext x0 x1 x2) := by
  intro h w hw
  replace h : x0 < 64 ∧ x1 < 64 ∧ x2 < 64 := of_decide_eq_true h
  replace hw : 67108896 + x0 * 2 ^ 20 + x1 * 2 ^ 14 + x2 * 2 ^ 8 = w := Option.some.inj hw
  obtain ⟨hb, h0, h1, h2, h3, h4⟩ := fields1 67108896 32 1 (by decide) hw h
  refine ⟨hb, ?_⟩
  unfold decode
  rw [h0]
  show decAlu w = _
  unfold decAlu
  rw [h1]
  show Except.ok (Instr.ext (bits w 25 20) (bits w 19 14) (bits w 13 8)) = _
  rw [h2, h3, h4]

theorem ins (x0 x1 x2 : Nat) : Statement (.ins x0 x1 x2) := by
  intro h w hw
  replace h : x0 < 64 ∧ x1 < 64 ∧ x2 < 64 := of_decide_eq_true h
  replace hw : 67108897 + x0 * 2 ^ 20 + x1 * 2 ^ 14 + x2 * 2 ^ 8 = w := Option.some.inj hw
  obtain ⟨hb, h0, h1, h2, h3, h4⟩ := fields1 67108897 33 1 (by decide) hw h
  refine ⟨hb, ?_⟩
  unfold decode
  rw [h0]
  show decAlu w = _
  unfold decAlu
  rw [h1]
  show Except.ok (Instr.ins (bits w 25 20) (bits w 19 14) (bits w 13 8)) = _
  rw [h2, h3, h4]

theorem addi (x0 x1 x2 : Nat) : Statement (.addi x0 x1 x2) := by
  intro h w hw
  replace h : x0 < 64 ∧ x1 < 64 ∧ x2 < 16384 := of_decide_eq_true h
  replace hw : 134217728 + x0 * 2 ^ 20 + x1 * 2 ^ 14 + x2 * 2 ^ 0 = w := Option.some.inj hw
  obtain ⟨hb, h0, h1, h2, h3⟩ := fields6 134217728 2 (by decide) hw h
  refine ⟨hb, ?_⟩
  unfold decode
  rw [h0]
  show Except.ok (Instr.addi (bits w 25 20) (bits w 19 14) (bits w 13 0)) = _
  rw [h1, h2, h3]

theorem andi (x0 x1 x2 : Nat) : Statement (.andi x0 x1 x2) := by
  intro h w hw
  replace h : x0 < 64 ∧ x1 < 64 ∧ x2 < 16384 := of_decide_eq_true h
  replace hw : 201326592 + x0 * 2 ^ 20 + x1 * 2 ^ 14 + x2 * 2 ^ 0 = w := Option.some.inj hw
  obtain ⟨hb, h0, h1, h2, h3⟩ := fields6 201326592 3 (by decide) hw h
  refine ⟨hb, ?_⟩
  unfold decode
  rw [h0]
  show Except.ok (Instr.andi (bits w 25 20) (bits w 19 14) (bits w 13 0)) = _
  rw [h1, h2, h3]

theorem ori (x0 x1 x2 : Nat) : Statement (.ori x0 x1 x2) := by
  intro h w hw
  replace h : x0 < 64 ∧ x1 < 64 ∧ x2 < 16384 := of_decide_eq_true h
  replace hw : 268435456 + x0 * 2 ^ 20 + x1 * 2 ^ 14 + x2 * 2 ^ 0 = w := Option.some.inj hw
  obtain ⟨hb, h0, h1, h2, h3⟩ := fields6 268435456 4 (by decide) hw h
  refine ⟨hb, ?_⟩
  unfold decode
  rw [h0]
  show Except.ok (Instr.ori (bits w 25 20) (bits w 19 14) (bits w 13 0)) = _
  rw [h1, h2, h3]

theorem xori (x0 x1 x2 : Nat) : Statement (.xori x0 x1 x2) := by
  intro h w hw
  replace h : x0 < 64 ∧ x1 < 64 ∧ x2 < 16384 := of_decide_eq_true h
  replace hw : 335544320 + x0 * 2 ^ 20 + x1 * 2 ^ 14 + x2 * 2 ^ 0 = w := Option.some.inj hw
  obtain ⟨hb, h0, h1, h2, h3⟩ := fields6 335544320 5 (by decide) hw h
  refine ⟨hb, ?_⟩
  unfold decode
  rw [h0]
  show Except.ok (Instr.xori (bits w 25 20) (bits w 19 14) (bits w 13 0)) = _
  rw [h1, h2, h3]

theorem shli (x0 x1 x2 : Nat) : Statement (.shli x0 x1 x2) := by
  intro h w hw
  replace h : x0 < 64 ∧ x1 < 64 ∧ x2 < 64 := of_decide_eq_true h
  replace hw : 402653184 + x0 * 2 ^ 20 + x1 * 2 ^ 14 + x2 * 2 ^ 0 = w := Option.some.inj hw
  obtain ⟨hb, h0, h1, h2, h3, h4, h5⟩ := fields7 402653184 6 0 0 (by decide) hw h
  refine ⟨hb, ?_⟩
  unfold decode
  rw [h0]
  show decShiftImm w = _
  unfold decShiftImm
  rw [h1]
  show (if bits w 11 6 = 0 then Except.ok (Instr.shli (bits w 25 20) (bits w 19 14) (bits w 5 0)) else _) = _
  rw [if_pos h2]
  rw [h3, h4, h5]

theorem shri (x0 x1 x2 : Nat) : Statement (.shri x0 x1 x2) := by
  intro h w hw
  replace h : x0 < 64 ∧ x1 < 64 ∧ x2 < 64 := of_decide_eq_true h
  replace hw : 402657280 + x0 * 2 ^ 20 + x1 * 2 ^ 14 + x2 * 2 ^ 0 = w := Option.some.inj hw
  obtain ⟨hb, h0, h1, h2, h3, h4, h5⟩ := fields7 402657280 6 0 1 (by decide) hw h
  refine ⟨hb, ?_⟩
  unfold decode
  rw [h0]
  show decShiftImm w = _
  unfold decShiftImm
  rw [h1]
  show (if bits w 11 6 = 0 then Except.ok (Instr.shri (bits w 25 20) (bits w 19 14) (bits w 5 0)) else _) = _
  rw [if_pos h2]
  rw [h3, h4, h5]

theorem sari (x0 x1 x2 : Nat) : Statement (.sari x0 x1 x2) := by
  intro h w hw
  replace h : x0 < 64 ∧ x1 < 64 ∧ x2 < 64 := of_decide_eq_true h
  replace hw : 402661376 + x0 * 2 ^ 20 + x1 * 2 ^ 14 + x2 * 2 ^ 0 = w := Option.some.inj hw
  obtain ⟨hb, h0, h1, h2, h3, h4, h5⟩ := fields7 402661376 6 0 2 (by decide) hw h
  refine ⟨hb, ?_⟩
  unfold decode
  rw [h0]
  show decShiftImm w = _
  unfold decShiftImm
  rw [h1]
  show (if bits w 11 6 = 0 then Except.ok (Instr.sari (bits w 25 20) (bits w 19 14) (bits w 5 0)) else _) = _
  rw [if_pos h2]
  rw [h3, h4, h5]

theorem rotli (x0 x1 x2 : Nat) : Statement (.rotli x0 x1 x2) := by
  intro h w hw
  replace h : x0 < 64 ∧ x1 < 64 ∧ x2 < 64 := of_decide_eq_true h
  replace hw : 402665472 + x0 * 2 ^ 20 + x1 * 2 ^ 14 + x2 * 2 ^ 0 = w := Option.some.inj hw
  obtain ⟨hb, h0, h1, h2, h3, h4, h5⟩ := fields7 402665472 6 0 3 (by decide) hw h
  refine ⟨hb, ?_⟩
  unfold decode
  rw [h0]
  show decShiftImm w = _
  unfold decShiftImm
  rw [h1]
  show (if bits w 11 6 = 0 then Except.ok (Instr.rotli (bits w 25 20) (bits w 19 14) (bits w 5 0)) else _) = _
  rw [if_pos h2]
  rw [h3, h4, h5]

theorem slti (x0 x1 x2 : Nat) : Statement (.slti x0 x1 x2) := by
  intro h w hw
  replace h : x0 < 64 ∧ x1 < 64 ∧ x2 < 16384 := of_decide_eq_true h
  replace hw : 469762048 + x0 * 2 ^ 20 + x1 * 2 ^ 14 + x2 * 2 ^ 0 = w := Option.some.inj hw
  obtain ⟨hb, h0, h1, h2, h3⟩ := fields6 469762048 7 (by decide) hw h
  refine ⟨hb, ?_⟩
  unfold decode
  rw [h0]
  show Except.ok (Instr.slti (bits w 25 20) (bits w 19 14) (bits w 13 0)) = _
  rw [h1, h2, h3]

theorem sltin (x0 x1 x2 : Nat) : Statement (.sltin x0 x1 x2) := by
  intro h w hw
  replace h : x0 < 64 ∧ x1 < 64 ∧ x2 < 16384 := of_decide_eq_true h
  replace hw : 536870912 + x0 * 2 ^ 20 + x1 * 2 ^ 14 + x2 * 2 ^ 0 = w := Option.some.inj hw
  obtain ⟨hb, h0, h1, h2, h3⟩ := fields6 536870912 8 (by decide) hw h
  refine ⟨hb, ?_⟩
  unfold decode
  rw [h0]
  show Except.ok (Instr.sltin (bits w 25 20) (bits w 19 14) (bits w 13 0)) = _
  rw [h1, h2, h3]

theorem lui (x0 x1 : Nat) : Statement (.lui x0 x1) := by
  intro h w hw
  replace h : x0 < 64 ∧ x1 < 1048576 := of_decide_eq_true h
  replace hw : 603979776 + x0 * 2 ^ 20 + x1 * 2 ^ 0 = w := Option.some.inj hw
  obtain ⟨hb, h0, h1, h2⟩ := fields8 603979776 9 (by decide) hw h
  refine ⟨hb, ?_⟩
  unfold decode
  rw [h0]
  show Except.ok (Instr.lui (bits w 25 20) (bits w 19 0)) = _
  rw [h1, h2]

theorem addpc (x0 x1 : Nat) : Statement (.addpc x0 x1) := by
  intro h w hw
  replace h : x0 < 64 ∧ x1 < 1048576 := of_decide_eq_true h
  replace hw : 671088640 + x0 * 2 ^ 20 + x1 * 2 ^ 0 = w := Option.some.inj hw
  obtain ⟨hb, h0, h1, h2⟩ := fields8 671088640 10 (by decide) hw h
  refine ⟨hb, ?_⟩
  unfold decode
  rw [h0]
  show Except.ok (Instr.addpc (bits w 25 20) (bits w 19 0)) = _
  rw [h1, h2]

theorem bz (x0 x1 : Nat) : Statement (.bz x0 x1) := by
  intro h w hw
  replace h : x0 < 64 ∧ x1 < 131072 := of_decide_eq_true h
  replace hw : 738197504 + x0 * 2 ^ 17 + x1 * 2 ^ 0 = w := Option.some.inj hw
  obtain ⟨hb, h0, h1, h2, h3⟩ := fields9 738197504 11 0 (by decide) hw h
  refine ⟨hb, ?_⟩
  unfold decode
  rw [h0]
  show decBranch w = _
  unfold decBranch
  rw [h1]
  show Except.ok (Instr.bz (bits w 22 17) (bits w 16 0)) = _
  rw [h2, h3]

theorem bnz (x0 x1 : Nat) : Statement (.bnz x0 x1) := by
  intro h w hw
  replace h : x0 < 64 ∧ x1 < 131072 := of_decide_eq_true h
  replace hw : 746586112 + x0 * 2 ^ 17 + x1 * 2 ^ 0 = w := Option.some.inj hw
  obtain ⟨hb, h0, h1, h2, h3⟩ := fields9 746586112 11 1 (by decide) hw h
  refine ⟨hb, ?_⟩
  unfold decode
  rw [h0]
  show decBranch w = _
  unfold decBranch
  rw [h1]
  show Except.ok (Instr.bnz (bits w 22 17) (bits w 16 0)) = _
  rw [h2, h3]

theorem bltz (x0 x1 : Nat) : Statement (.bltz x0 x1) := by
  intro h w hw
  replace h : x0 < 64 ∧ x1 < 131072 := of_decide_eq_true h
  replace hw : 754974720 + x0 * 2 ^ 17 + x1 * 2 ^ 0 = w := Option.some.inj hw
  obtain ⟨hb, h0, h1, h2, h3⟩ := fields9 754974720 11 2 (by decide) hw h
  refine ⟨hb, ?_⟩
  unfold decode
  rw [h0]
  show decBranch w = _
  unfold decBranch
  rw [h1]
  show Except.ok (Instr.bltz (bits w 22 17) (bits w 16 0)) = _
  rw [h2, h3]

theorem bgez (x0 x1 : Nat) : Statement (.bgez x0 x1) := by
  intro h w hw
  replace h : x0 < 64 ∧ x1 < 131072 := of_decide_eq_true h
  replace hw : 763363328 + x0 * 2 ^ 17 + x1 * 2 ^ 0 = w := Option.some.inj hw
  obtain ⟨hb, h0, h1, h2, h3⟩ := fields9 763363328 11 3 (by decide) hw h
  refine ⟨hb, ?_⟩
  unfold decode
  rw [h0]
  show decBranch w = _
  unfold decBranch
  rw [h1]
  show Except.ok (Instr.bgez (bits w 22 17) (bits w 16 0)) = _
  rw [h2, h3]

theorem bgtz (x0 x1 : Nat) : Statement (.bgtz x0 x1) := by
  intro h w hw
  replace h : x0 < 64 ∧ x1 < 131072 := of_decide_eq_true h
  replace hw : 771751936 + x0 * 2 ^ 17 + x1 * 2 ^ 0 = w := Option.some.inj hw
  obtain ⟨hb, h0, h1, h2, h3⟩ := fields9 771751936 11 4 (by decide) hw h
  refine ⟨hb, ?_⟩
  unfold decode
  rw [h0]
  show decBranch w = _
  unfold decBranch
  rw [h1]
  show Except.ok (Instr.bgtz (bits w 22 17) (bits w 16 0)) = _
  rw [h2, h3]

theorem blez (x0 x1 : Nat) : Statement (.blez x0 x1) := by
  intro h w hw
  replace h : x0 < 64 ∧ x1 < 131072 := of_decide_eq_true h
  replace hw : 780140544 + x0 * 2 ^ 17 + x1 * 2 ^ 0 = w := Option.some.inj hw
  obtain ⟨hb, h0, h1, h2, h3⟩ := fields9 780140544 11 5 (by decide) hw h
  refine ⟨hb, ?_⟩
  unfold decode
  rw [h0]
  show decBranch w = _
  unfold decBranch
  rw [h1]
  show Except.ok (Instr.blez (bits w 22 17) (bits w 16 0)) = _
  rw [h2, h3]

theorem j (x0 : Nat) : Statement (.j x0) := by
  intro h w hw
  replace h : x0 < 67108864 := of_decide_eq_true h
  replace hw : 805306368 + x0 * 2 ^ 0 = w := Option.some.inj hw
  obtain ⟨hb, h0, h1⟩ := fields10 805306368 12 (by decide) hw h
  refine ⟨hb, ?_⟩
  unfold decode
  rw [h0]
  show Except.ok (Instr.j (bits w 25 0)) = _
  rw [h1]

theorem jl (x0 : Nat) : Statement (.jl x0) := by
  intro h w hw
  replace h : x0 < 67108864 := of_decide_eq_true h
  replace hw : 872415232 + x0 * 2 ^ 0 = w := Option.some.inj hw
  obtain ⟨hb, h0, h1⟩ := fields10 872415232 13 (by decide) hw h
  refine ⟨hb, ?_⟩
  unfold decode
  rw [h0]
  show Except.ok (Instr.jl (bits w 25 0)) = _
  rw [h1]

theorem jx (x0 x1 : Nat) : Statement (.jx x0 x1) := by
  intro h w hw
  replace h : x0 < 64 ∧ x1 < 64 := of_decide_eq_true h
  replace hw : 939524096 + x0 * 2 ^ 14 + x1 * 2 ^ 8 = w := Option.some.inj hw
  obtain ⟨hb, h0, h1, h2, h3, h4⟩ := fields11 939524096 0 14 0 (by decide) hw h
  refine ⟨hb, ?_⟩
  unfold decode
  rw [h0]
  show decTransfer w = _
  unfold decTransfer
  rw [h1]
  show (if bits w 25 20 = 0 then Except.ok (Instr.jx (bits w 19 14) (bits w 13 8)) else _) = _
  rw [if_pos h2]
  rw [h3, h4]

theorem callx (x0 x1 : Nat) : Statement (.callx x0 x1) := by
  intro h w hw
  replace h : x0 < 64 ∧ x1 < 64 := of_decide_eq_true h
  replace hw : 939524097 + x0 * 2 ^ 14 + x1 * 2 ^ 8 = w := Option.some.inj hw
  obtain ⟨hb, h0, h1, h2, h3, h4⟩ := fields11 939524097 1 14 0 (by decide) hw h
  refine ⟨hb, ?_⟩
  unfold decode
  rw [h0]
  show decTransfer w = _
  unfold decTransfer
  rw [h1]
  show (if bits w 25 20 = 0 then Except.ok (Instr.callx (bits w 19 14) (bits w 13 8)) else _) = _
  rw [if_pos h2]
  rw [h3, h4]

theorem ret : Statement (.ret) := by
  intro h w hw
  replace hw : 939524098 = w := Option.some.inj hw
  obtain ⟨hb, h0, h1, h2⟩ := fields0 939524098 0 2 14 (by decide) hw
  refine ⟨hb, ?_⟩
  unfold decode
  rw [h0]
  show decTransfer w = _
  unfold decTransfer
  rw [h1]
  show (if bits w 25 8 = 0 then Except.ok (Instr.ret) else _) = _
  rw [if_pos h2]

theorem jt (x0 x1 x2 : Nat) : Statement (.jt x0 x1 x2) := by
  intro h w hw
  replace h : x0 < 64 ∧ x1 < 64 ∧ x2 < 64 := of_decide_eq_true h
  replace hw : 939524099 + x0 * 2 ^ 20 + x1 * 2 ^ 14 + x2 * 2 ^ 8 = w := Option.some.inj hw
  obtain ⟨hb, h0, h1, h2, h3, h4⟩ := fields1 939524099 3 14 (by decide) hw h
  refine ⟨hb, ?_⟩
  unfold decode
  rw [h0]
  show decTransfer w = _
  unfold decTransfer
  rw [h1]
  show Except.ok (Instr.jt (bits w 25 20) (bits w 19 14) (bits w 13 8)) = _
  rw [h2, h3, h4]

theorem pad (x0 : Nat) : Statement (.pad x0) := by
  intro h w hw
  replace h : x0 < 1048576 := of_decide_eq_true h
  replace hw : 1006632960 + x0 * 2 ^ 0 = w := Option.some.inj hw
  obtain ⟨hb, h0, h1, h2⟩ := fields12 1006632960 15 0 (by decide) hw h
  refine ⟨hb, ?_⟩
  unfold decode
  rw [h0]
  show (if bits w 25 20 = 0 then Except.ok (Instr.pad (bits w 19 0)) else _) = _
  rw [if_pos h1]
  rw [h2]

theorem rpt (x0 x1 x2 x3 x4 : Nat) : Statement (.rpt x0 x1 x2 x3 x4) := by
  intro h w hw
  replace h : x0 < 16 ∧ x1 < 64 ∧ x2 < 8 ∧ x3 < 8 ∧ x4 < 8 := of_decide_eq_true h
  replace hw : 1073741824 + x0 * 2 ^ 22 + x1 * 2 ^ 16 + x2 * 2 ^ 13 + x3 * 2 ^ 10 + x4 * 2 ^ 7 = w := Option.some.inj hw
  obtain ⟨hb, h0, h1, h2, h3, h4, h5, h6⟩ := fields13 1073741824 0 16 (by decide) hw h
  refine ⟨hb, ?_⟩
  unfold decode
  rw [h0]
  show (if bits w 6 0 = 0 then Except.ok (Instr.rpt (bits w 25 22) (bits w 21 16) (bits w 15 13) (bits w 12 10) (bits w 9 7)) else _) = _
  rw [if_pos h1]
  rw [h2, h3, h4, h5, h6]

theorem tid (x0 : Nat) : Statement (.tid x0) := by
  intro h w hw
  replace h : x0 < 64 := of_decide_eq_true h
  replace hw : 1140850688 + x0 * 2 ^ 20 = w := Option.some.inj hw
  obtain ⟨hb, h0, h1, h2, h3⟩ := fields14 1140850688 0 0 17 (by decide) hw h
  refine ⟨hb, ?_⟩
  unfold decode
  rw [h0]
  show decTask w = _
  unfold decTask
  rw [h1]
  show (if bits w 19 8 = 0 then Except.ok (Instr.tid (bits w 25 20)) else _) = _
  rw [if_pos h2]
  rw [h3]

theorem tgrp (x0 : Nat) : Statement (.tgrp x0) := by
  intro h w hw
  replace h : x0 < 64 := of_decide_eq_true h
  replace hw : 1140850689 + x0 * 2 ^ 20 = w := Option.some.inj hw
  obtain ⟨hb, h0, h1, h2, h3⟩ := fields14 1140850689 0 1 17 (by decide) hw h
  refine ⟨hb, ?_⟩
  unfold decode
  rw [h0]
  show decTask w = _
  unfold decTask
  rw [h1]
  show (if bits w 19 8 = 0 then Except.ok (Instr.tgrp (bits w 25 20)) else _) = _
  rw [if_pos h2]
  rw [h3]

theorem texit (x0 : Nat) : Statement (.texit x0) := by
  intro h w hw
  replace h : x0 < 64 := of_decide_eq_true h
  replace hw : 1140850690 + x0 * 2 ^ 14 = w := Option.some.inj hw
  obtain ⟨hb, h0, h1, h2, h3, h4⟩ := fields4 1140850690 2 17 0 0 (by decide) hw h
  refine ⟨hb, ?_⟩
  unfold decode
  rw [h0]
  show decTask w = _
  unfold decTask
  rw [h1]
  show (if bits w 25 20 = 0 ∧ bits w 13 8 = 0 then Except.ok (Instr.texit (bits w 19 14)) else _) = _
  rw [if_pos ⟨h2, h3⟩]
  rw [h4]

theorem launch (x0 x1 x2 x3 : Nat) : Statement (.launch x0 x1 x2 x3) := by
  intro h w hw
  replace h : x0 < 64 ∧ x1 < 64 ∧ x2 < 2 ∧ x3 < 32 := of_decide_eq_true h
  replace hw : 1140850691 + x0 * 2 ^ 20 + x1 * 2 ^ 14 + x2 * 2 ^ 13 + x3 * 2 ^ 8 = w := Option.some.inj hw
  obtain ⟨hb, h0, h1, h2, h3, h4, h5⟩ := fields15 1140850691 3 17 (by decide) hw h
  refine ⟨hb, ?_⟩
  unfold decode
  rw [h0]
  show decTask w = _
  unfold decTask
  rw [h1]
  show Except.ok (Instr.launch (bits w 25 20) (bits w 19 14) (bits w 13 13) (bits w 12 8)) = _
  rw [h2, h3, h4, h5]

theorem lb (x0 x1 x2 x3 : Nat) : Statement (.lb x0 x1 x2 x3) := by
  intro h w hw
  replace h : x0 < 64 ∧ x1 < 64 ∧ x2 < 4 ∧ x3 < 512 := of_decide_eq_true h
  replace hw : 1207959552 + x0 * 2 ^ 20 + x1 * 2 ^ 14 + x2 * 2 ^ 12 + x3 * 2 ^ 0 = w := Option.some.inj hw
  obtain ⟨hb, h0, h1, h2, h3, h4, h5⟩ := fields16 1207959552 18 0 (by decide) hw h
  refine ⟨hb, ?_⟩
  unfold decode
  rw [h0]
  show decLoad w = _
  unfold decLoad
  rw [h1]
  show Except.ok (Instr.lb (bits w 25 20) (bits w 19 14) (bits w 13 12) (bits w 8 0)) = _
  rw [h2, h3, h4, h5]

theorem lbn (x0 x1 x2 x3 : Nat) : Statement (.lbn x0 x1 x2 x3) := by
  intro h w hw
  replace h : x0 < 64 ∧ x1 < 64 ∧ x2 < 4 ∧ x3 < 512 := of_decide_eq_true h
  replace hw : 1207960064 + x0 * 2 ^ 20 + x1 * 2 ^ 14 + x2 * 2 ^ 12 + x3 * 2 ^ 0 = w := Option.some.inj hw
  obtain ⟨hb, h0, h1, h2, h3, h4, h5⟩ := fields16 1207960064 18 1 (by decide) hw h
  refine ⟨hb, ?_⟩
  unfold decode
  rw [h0]
  show decLoad w = _
  unfold decLoad
  rw [h1]
  show Except.ok (Instr.lbn (bits w 25 20) (bits w 19 14) (bits w 13 12) (bits w 8 0)) = _
  rw [h2, h3, h4, h5]

theorem lh (x0 x1 x2 x3 : Nat) : Statement (.lh x0 x1 x2 x3) := by
  intro h w hw
  replace h : x0 < 64 ∧ x1 < 64 ∧ x2 < 4 ∧ x3 < 512 := of_decide_eq_true h
  replace hw : 1207960576 + x0 * 2 ^ 20 + x1 * 2 ^ 14 + x2 * 2 ^ 12 + x3 * 2 ^ 0 = w := Option.some.inj hw
  obtain ⟨hb, h0, h1, h2, h3, h4, h5⟩ := fields16 1207960576 18 2 (by decide) hw h
  refine ⟨hb, ?_⟩
  unfold decode
  rw [h0]
  show decLoad w = _
  unfold decLoad
  rw [h1]
  show Except.ok (Instr.lh (bits w 25 20) (bits w 19 14) (bits w 13 12) (bits w 8 0)) = _
  rw [h2, h3, h4, h5]

theorem lhn (x0 x1 x2 x3 : Nat) : Statement (.lhn x0 x1 x2 x3) := by
  intro h w hw
  replace h : x0 < 64 ∧ x1 < 64 ∧ x2 < 4 ∧ x3 < 512 := of_decide_eq_true h
  replace hw : 1207961088 + x0 * 2 ^ 20 + x1 * 2 ^ 14 + x2 * 2 ^ 12 + x3 * 2 ^ 0 = w := Option.some.inj hw
  obtain ⟨hb, h0, h1, h2, h3, h4, h5⟩ := fields16 1207961088 18 3 (by decide) hw h
  refine ⟨hb, ?_⟩
  unfold decode
  rw [h0]
  show decLoad w = _
  unfold decLoad
  rw [h1]
  show Except.ok (Instr.lhn (bits w 25 20) (bits w 19 14) (bits w 13 12) (bits w 8 0)) = _
  rw [h2, h3, h4, h5]

theorem lw (x0 x1 x2 x3 : Nat) : Statement (.lw x0 x1 x2 x3) := by
  intro h w hw
  replace h : x0 < 64 ∧ x1 < 64 ∧ x2 < 4 ∧ x3 < 512 := of_decide_eq_true h
  replace hw : 1207961600 + x0 * 2 ^ 20 + x1 * 2 ^ 14 + x2 * 2 ^ 12 + x3 * 2 ^ 0 = w := Option.some.inj hw
  obtain ⟨hb, h0, h1, h2, h3, h4, h5⟩ := fields16 1207961600 18 4 (by decide) hw h
  refine ⟨hb, ?_⟩
  unfold decode
  rw [h0]
  show decLoad w = _
  unfold decLoad
  rw [h1]
  show Except.ok (Instr.lw (bits w 25 20) (bits w 19 14) (bits w 13 12) (bits w 8 0)) = _
  rw [h2, h3, h4, h5]

theorem lwn (x0 x1 x2 x3 : Nat) : Statement (.lwn x0 x1 x2 x3) := by
  intro h w hw
  replace h : x0 < 64 ∧ x1 < 64 ∧ x2 < 4 ∧ x3 < 512 := of_decide_eq_true h
  replace hw : 1207962112 + x0 * 2 ^ 20 + x1 * 2 ^ 14 + x2 * 2 ^ 12 + x3 * 2 ^ 0 = w := Option.some.inj hw
  obtain ⟨hb, h0, h1, h2, h3, h4, h5⟩ := fields16 1207962112 18 5 (by decide) hw h
  refine ⟨hb, ?_⟩
  unfold decode
  rw [h0]
  show decLoad w = _
  unfold decLoad
  rw [h1]
  show Except.ok (Instr.lwn (bits w 25 20) (bits w 19 14) (bits w 13 12) (bits w 8 0)) = _
  rw [h2, h3, h4, h5]

theorem ld (x0 x1 x2 x3 : Nat) : Statement (.ld x0 x1 x2 x3) := by
  intro h w hw
  replace h : x0 < 64 ∧ x1 < 64 ∧ x2 < 4 ∧ x3 < 512 := of_decide_eq_true h
  replace hw : 1207962624 + x0 * 2 ^ 20 + x1 * 2 ^ 14 + x2 * 2 ^ 12 + x3 * 2 ^ 0 = w := Option.some.inj hw
  obtain ⟨hb, h0, h1, h2, h3, h4, h5⟩ := fields16 1207962624 18 6 (by decide) hw h
  refine ⟨hb, ?_⟩
  unfold decode
  rw [h0]
  show decLoad w = _
  unfold decLoad
  rw [h1]
  show Except.ok (Instr.ld (bits w 25 20) (bits w 19 14) (bits w 13 12) (bits w 8 0)) = _
  rw [h2, h3, h4, h5]

theorem ldp (x0 x1 x2 x3 : Nat) : Statement (.ldp x0 x1 x2 x3) := by
  intro h w hw
  replace h : x0 < 64 ∧ x1 < 64 ∧ x2 < 4 ∧ x3 < 512 := of_decide_eq_true h
  replace hw : 1207963136 + x0 * 2 ^ 20 + x1 * 2 ^ 14 + x2 * 2 ^ 12 + x3 * 2 ^ 0 = w := Option.some.inj hw
  obtain ⟨hb, h0, h1, h2, h3, h4, h5⟩ := fields16 1207963136 18 7 (by decide) hw h
  refine ⟨hb, ?_⟩
  unfold decode
  rw [h0]
  show decLoad w = _
  unfold decLoad
  rw [h1]
  show Except.ok (Instr.ldp (bits w 25 20) (bits w 19 14) (bits w 13 12) (bits w 8 0)) = _
  rw [h2, h3, h4, h5]

theorem stb (x0 x1 x2 x3 : Nat) : Statement (.stb x0 x1 x2 x3) := by
  intro h w hw
  replace h : x0 < 64 ∧ x1 < 64 ∧ x2 < 4 ∧ x3 < 512 := of_decide_eq_true h
  replace hw : 1275068416 + x0 * 2 ^ 20 + x1 * 2 ^ 14 + x2 * 2 ^ 12 + x3 * 2 ^ 0 = w := Option.some.inj hw
  obtain ⟨hb, h0, h1, h2, h3, h4, h5⟩ := fields16 1275068416 19 0 (by decide) hw h
  refine ⟨hb, ?_⟩
  unfold decode
  rw [h0]
  show decStore w = _
  unfold decStore
  rw [h1]
  show Except.ok (Instr.stb (bits w 25 20) (bits w 19 14) (bits w 13 12) (bits w 8 0)) = _
  rw [h2, h3, h4, h5]

theorem sth (x0 x1 x2 x3 : Nat) : Statement (.sth x0 x1 x2 x3) := by
  intro h w hw
  replace h : x0 < 64 ∧ x1 < 64 ∧ x2 < 4 ∧ x3 < 512 := of_decide_eq_true h
  replace hw : 1275069440 + x0 * 2 ^ 20 + x1 * 2 ^ 14 + x2 * 2 ^ 12 + x3 * 2 ^ 0 = w := Option.some.inj hw
  obtain ⟨hb, h0, h1, h2, h3, h4, h5⟩ := fields16 1275069440 19 2 (by decide) hw h
  refine ⟨hb, ?_⟩
  unfold decode
  rw [h0]
  show decStore w = _
  unfold decStore
  rw [h1]
  show Except.ok (Instr.sth (bits w 25 20) (bits w 19 14) (bits w 13 12) (bits w 8 0)) = _
  rw [h2, h3, h4, h5]

theorem stw (x0 x1 x2 x3 : Nat) : Statement (.stw x0 x1 x2 x3) := by
  intro h w hw
  replace h : x0 < 64 ∧ x1 < 64 ∧ x2 < 4 ∧ x3 < 512 := of_decide_eq_true h
  replace hw : 1275070464 + x0 * 2 ^ 20 + x1 * 2 ^ 14 + x2 * 2 ^ 12 + x3 * 2 ^ 0 = w := Option.some.inj hw
  obtain ⟨hb, h0, h1, h2, h3, h4, h5⟩ := fields16 1275070464 19 4 (by decide) hw h
  refine ⟨hb, ?_⟩
  unfold decode
  rw [h0]
  show decStore w = _
  unfold decStore
  rw [h1]
  show Except.ok (Instr.stw (bits w 25 20) (bits w 19 14) (bits w 13 12) (bits w 8 0)) = _
  rw [h2, h3, h4, h5]

theorem std (x0 x1 x2 x3 : Nat) : Statement (.std x0 x1 x2 x3) := by
  intro h w hw
  replace h : x0 < 64 ∧ x1 < 64 ∧ x2 < 4 ∧ x3 < 512 := of_decide_eq_true h
  replace hw : 1275071488 + x0 * 2 ^ 20 + x1 * 2 ^ 14 + x2 * 2 ^ 12 + x3 * 2 ^ 0 = w := Option.some.inj hw
  obtain ⟨hb, h0, h1, h2, h3, h4, h5⟩ := fields16 1275071488 19 6 (by decide) hw h
  refine ⟨hb, ?_⟩
  unfold decode
  rw [h0]
  show decStore w = _
  unfold decStore
  rw [h1]
  show Except.ok (Instr.std (bits w 25 20) (bits w 19 14) (bits w 13 12) (bits w 8 0)) = _
  rw [h2, h3, h4, h5]

theorem stp (x0 x1 x2 x3 : Nat) : Statement (.stp x0 x1 x2 x3) := by
  intro h w hw
  replace h : x0 < 64 ∧ x1 < 64 ∧ x2 < 4 ∧ x3 < 512 := of_decide_eq_true h
  replace hw : 1275072000 + x0 * 2 ^ 20 + x1 * 2 ^ 14 + x2 * 2 ^ 12 + x3 * 2 ^ 0 = w := Option.some.inj hw
  obtain ⟨hb, h0, h1, h2, h3, h4, h5⟩ := fields16 1275072000 19 7 (by decide) hw h
  refine ⟨hb, ?_⟩
  unfold decode
  rw [h0]
  show decStore w = _
  unfold decStore
  rw [h1]
  show Except.ok (Instr.stp (bits w 25 20) (bits w 19 14) (bits w 13 12) (bits w 8 0)) = _
  rw [h2, h3, h4, h5]

theorem ldx (x0 x1 x2 x3 x4 x5 : Nat) : Statement (.ldx x0 x1 x2 x3 x4 x5) := by
  intro h w hw
  replace h : x0 < 64 ∧ x1 < 64 ∧ x2 < 64 ∧ x3 < 4 ∧ x4 < 2 ∧ x5 < 8 := of_decide_eq_true h
  replace hw : 1342177280 + x0 * 2 ^ 20 + x1 * 2 ^ 14 + x2 * 2 ^ 8 + x3 * 2 ^ 6 + x4 * 2 ^ 3 + x5 * 2 ^ 0 = w := Option.some.inj hw
  obtain ⟨hb, h0, h1, h2, h3, h4, h5, h6, h7⟩ := fields17 1342177280 20 0 (by decide) hw h
  refine ⟨hb, ?_⟩
  unfold decode
  rw [h0]
  show (if bits w 5 4 = 0 then Except.ok (Instr.ldx (bits w 25 20) (bits w 19 14) (bits w 13 8) (bits w 7 6) (bits w 3 3) (bits w 2 0)) else _) = _
  rw [if_pos h1]
  rw [h2, h3, h4, h5, h6, h7]

theorem stx (x0 x1 x2 x3 x4 x5 : Nat) : Statement (.stx x0 x1 x2 x3 x4 x5) := by
  intro h w hw
  replace h : x0 < 64 ∧ x1 < 64 ∧ x2 < 64 ∧ x3 < 4 ∧ x4 < 2 ∧ x5 < 8 := of_decide_eq_true h
  replace hw : 1409286144 + x0 * 2 ^ 20 + x1 * 2 ^ 14 + x2 * 2 ^ 8 + x3 * 2 ^ 6 + x4 * 2 ^ 3 + x5 * 2 ^ 0 = w := Option.some.inj hw
  obtain ⟨hb, h0, h1, h2, h3, h4, h5, h6, h7⟩ := fields17 1409286144 21 0 (by decide) hw h
  refine ⟨hb, ?_⟩
  unfold decode
  rw [h0]
  show (if bits w 5 4 = 0 then Except.ok (Instr.stx (bits w 25 20) (bits w 19 14) (bits w 13 8) (bits w 7 6) (bits w 3 3) (bits w 2 0)) else _) = _
  rw [if_pos h1]
  rw [h2, h3, h4, h5, h6, h7]

theorem fence (x0 : Nat) : Statement (.fence x0) := by
  intro h w hw
  replace h : x0 < 8 := of_decide_eq_true h
  replace hw : 1476395008 + x0 * 2 ^ 0 = w := Option.some.inj hw
  obtain ⟨hb, h0, h1, h2, h3⟩ := fields18 1476395008 0 22 0 (by decide) hw h
  refine ⟨hb, ?_⟩
  unfold decode
  rw [h0]
  show decFence w = _
  unfold decFence
  rw [h1]
  show (if bits w 25 6 = 0 then Except.ok (Instr.fence (bits w 2 0)) else _) = _
  rw [if_pos h2]
  rw [h3]

theorem fenceAcq (x0 : Nat) : Statement (.fenceAcq x0) := by
  intro h w hw
  replace h : x0 < 8 := of_decide_eq_true h
  replace hw : 1476395016 + x0 * 2 ^ 0 = w := Option.some.inj hw
  obtain ⟨hb, h0, h1, h2, h3⟩ := fields18 1476395016 0 22 1 (by decide) hw h
  refine ⟨hb, ?_⟩
  unfold decode
  rw [h0]
  show decFence w = _
  unfold decFence
  rw [h1]
  show (if bits w 25 6 = 0 then Except.ok (Instr.fenceAcq (bits w 2 0)) else _) = _
  rw [if_pos h2]
  rw [h3]

theorem fenceRel (x0 : Nat) : Statement (.fenceRel x0) := by
  intro h w hw
  replace h : x0 < 8 := of_decide_eq_true h
  replace hw : 1476395024 + x0 * 2 ^ 0 = w := Option.some.inj hw
  obtain ⟨hb, h0, h1, h2, h3⟩ := fields18 1476395024 0 22 2 (by decide) hw h
  refine ⟨hb, ?_⟩
  unfold decode
  rw [h0]
  show decFence w = _
  unfold decFence
  rw [h1]
  show (if bits w 25 6 = 0 then Except.ok (Instr.fenceRel (bits w 2 0)) else _) = _
  rw [if_pos h2]
  rw [h3]

theorem fenceSs (x0 : Nat) : Statement (.fenceSs x0) := by
  intro h w hw
  replace h : x0 < 8 := of_decide_eq_true h
  replace hw : 1476395032 + x0 * 2 ^ 0 = w := Option.some.inj hw
  obtain ⟨hb, h0, h1, h2, h3⟩ := fields18 1476395032 0 22 3 (by decide) hw h
  refine ⟨hb, ?_⟩
  unfold decode
  rw [h0]
  show decFence w = _
  unfold decFence
  rw [h1]
  show (if bits w 25 6 = 0 then Except.ok (Instr.fenceSs (bits w 2 0)) else _) = _
  rw [if_pos h2]
  rw [h3]

theorem aadd (x0 x1 x2 x3 x4 : Nat) : Statement (.aadd x0 x1 x2 x3 x4) := by
  intro h w hw
  replace h : x0 < 64 ∧ x1 < 64 ∧ x2 < 64 ∧ x3 < 4 ∧ x4 < 2 := of_decide_eq_true h
  replace hw : 1543503872 + x0 * 2 ^ 20 + x1 * 2 ^ 14 + x2 * 2 ^ 8 + x3 * 2 ^ 5 + x4 * 2 ^ 4 = w := Option.some.inj hw
  obtain ⟨hb, h0, h1, h2, h3, h4, h5, h6, h7⟩ := fields19 1543503872 23 0 0 (by decide) hw h
  refine ⟨hb, ?_⟩
  unfold decode
  rw [h0]
  show decAtom w = _
  unfold decAtom
  rw [h1]
  show (if bits w 7 7 = 0 then Except.ok (Instr.aadd (bits w 25 20) (bits w 19 14) (bits w 13 8) (bits w 6 5) (bits w 4 4)) else _) = _
  rw [if_pos h2]
  rw [h3, h4, h5, h6, h7]

theorem aand (x0 x1 x2 x3 x4 : Nat) : Statement (.aand x0 x1 x2 x3 x4) := by
  intro h w hw
  replace h : x0 < 64 ∧ x1 < 64 ∧ x2 < 64 ∧ x3 < 4 ∧ x4 < 2 := of_decide_eq_true h
  replace hw : 1543503873 + x0 * 2 ^ 20 + x1 * 2 ^ 14 + x2 * 2 ^ 8 + x3 * 2 ^ 5 + x4 * 2 ^ 4 = w := Option.some.inj hw
  obtain ⟨hb, h0, h1, h2, h3, h4, h5, h6, h7⟩ := fields19 1543503873 23 1 0 (by decide) hw h
  refine ⟨hb, ?_⟩
  unfold decode
  rw [h0]
  show decAtom w = _
  unfold decAtom
  rw [h1]
  show (if bits w 7 7 = 0 then Except.ok (Instr.aand (bits w 25 20) (bits w 19 14) (bits w 13 8) (bits w 6 5) (bits w 4 4)) else _) = _
  rw [if_pos h2]
  rw [h3, h4, h5, h6, h7]

theorem aor (x0 x1 x2 x3 x4 : Nat) : Statement (.aor x0 x1 x2 x3 x4) := by
  intro h w hw
  replace h : x0 < 64 ∧ x1 < 64 ∧ x2 < 64 ∧ x3 < 4 ∧ x4 < 2 := of_decide_eq_true h
  replace hw : 1543503874 + x0 * 2 ^ 20 + x1 * 2 ^ 14 + x2 * 2 ^ 8 + x3 * 2 ^ 5 + x4 * 2 ^ 4 = w := Option.some.inj hw
  obtain ⟨hb, h0, h1, h2, h3, h4, h5, h6, h7⟩ := fields19 1543503874 23 2 0 (by decide) hw h
  refine ⟨hb, ?_⟩
  unfold decode
  rw [h0]
  show decAtom w = _
  unfold decAtom
  rw [h1]
  show (if bits w 7 7 = 0 then Except.ok (Instr.aor (bits w 25 20) (bits w 19 14) (bits w 13 8) (bits w 6 5) (bits w 4 4)) else _) = _
  rw [if_pos h2]
  rw [h3, h4, h5, h6, h7]

theorem axor (x0 x1 x2 x3 x4 : Nat) : Statement (.axor x0 x1 x2 x3 x4) := by
  intro h w hw
  replace h : x0 < 64 ∧ x1 < 64 ∧ x2 < 64 ∧ x3 < 4 ∧ x4 < 2 := of_decide_eq_true h
  replace hw : 1543503875 + x0 * 2 ^ 20 + x1 * 2 ^ 14 + x2 * 2 ^ 8 + x3 * 2 ^ 5 + x4 * 2 ^ 4 = w := Option.some.inj hw
  obtain ⟨hb, h0, h1, h2, h3, h4, h5, h6, h7⟩ := fields19 1543503875 23 3 0 (by decide) hw h
  refine ⟨hb, ?_⟩
  unfold decode
  rw [h0]
  show decAtom w = _
  unfold decAtom
  rw [h1]
  show (if bits w 7 7 = 0 then Except.ok (Instr.axor (bits w 25 20) (bits w 19 14) (bits w 13 8) (bits w 6 5) (bits w 4 4)) else _) = _
  rw [if_pos h2]
  rw [h3, h4, h5, h6, h7]

theorem amin (x0 x1 x2 x3 x4 : Nat) : Statement (.amin x0 x1 x2 x3 x4) := by
  intro h w hw
  replace h : x0 < 64 ∧ x1 < 64 ∧ x2 < 64 ∧ x3 < 4 ∧ x4 < 2 := of_decide_eq_true h
  replace hw : 1543503876 + x0 * 2 ^ 20 + x1 * 2 ^ 14 + x2 * 2 ^ 8 + x3 * 2 ^ 5 + x4 * 2 ^ 4 = w := Option.some.inj hw
  obtain ⟨hb, h0, h1, h2, h3, h4, h5, h6, h7⟩ := fields19 1543503876 23 4 0 (by decide) hw h
  refine ⟨hb, ?_⟩
  unfold decode
  rw [h0]
  show decAtom w = _
  unfold decAtom
  rw [h1]
  show (if bits w 7 7 = 0 then Except.ok (Instr.amin (bits w 25 20) (bits w 19 14) (bits w 13 8) (bits w 6 5) (bits w 4 4)) else _) = _
  rw [if_pos h2]
  rw [h3, h4, h5, h6, h7]

theorem amax (x0 x1 x2 x3 x4 : Nat) : Statement (.amax x0 x1 x2 x3 x4) := by
  intro h w hw
  replace h : x0 < 64 ∧ x1 < 64 ∧ x2 < 64 ∧ x3 < 4 ∧ x4 < 2 := of_decide_eq_true h
  replace hw : 1543503877 + x0 * 2 ^ 20 + x1 * 2 ^ 14 + x2 * 2 ^ 8 + x3 * 2 ^ 5 + x4 * 2 ^ 4 = w := Option.some.inj hw
  obtain ⟨hb, h0, h1, h2, h3, h4, h5, h6, h7⟩ := fields19 1543503877 23 5 0 (by decide) hw h
  refine ⟨hb, ?_⟩
  unfold decode
  rw [h0]
  show decAtom w = _
  unfold decAtom
  rw [h1]
  show (if bits w 7 7 = 0 then Except.ok (Instr.amax (bits w 25 20) (bits w 19 14) (bits w 13 8) (bits w 6 5) (bits w 4 4)) else _) = _
  rw [if_pos h2]
  rw [h3, h4, h5, h6, h7]

theorem aminn (x0 x1 x2 x3 x4 : Nat) : Statement (.aminn x0 x1 x2 x3 x4) := by
  intro h w hw
  replace h : x0 < 64 ∧ x1 < 64 ∧ x2 < 64 ∧ x3 < 4 ∧ x4 < 2 := of_decide_eq_true h
  replace hw : 1543503878 + x0 * 2 ^ 20 + x1 * 2 ^ 14 + x2 * 2 ^ 8 + x3 * 2 ^ 5 + x4 * 2 ^ 4 = w := Option.some.inj hw
  obtain ⟨hb, h0, h1, h2, h3, h4, h5, h6, h7⟩ := fields19 1543503878 23 6 0 (by decide) hw h
  refine ⟨hb, ?_⟩
  unfold decode
  rw [h0]
  show decAtom w = _
  unfold decAtom
  rw [h1]
  show (if bits w 7 7 = 0 then Except.ok (Instr.aminn (bits w 25 20) (bits w 19 14) (bits w 13 8) (bits w 6 5) (bits w 4 4)) else _) = _
  rw [if_pos h2]
  rw [h3, h4, h5, h6, h7]

theorem amaxn (x0 x1 x2 x3 x4 : Nat) : Statement (.amaxn x0 x1 x2 x3 x4) := by
  intro h w hw
  replace h : x0 < 64 ∧ x1 < 64 ∧ x2 < 64 ∧ x3 < 4 ∧ x4 < 2 := of_decide_eq_true h
  replace hw : 1543503879 + x0 * 2 ^ 20 + x1 * 2 ^ 14 + x2 * 2 ^ 8 + x3 * 2 ^ 5 + x4 * 2 ^ 4 = w := Option.some.inj hw
  obtain ⟨hb, h0, h1, h2, h3, h4, h5, h6, h7⟩ := fields19 1543503879 23 7 0 (by decide) hw h
  refine ⟨hb, ?_⟩
  unfold decode
  rw [h0]
  show decAtom w = _
  unfold decAtom
  rw [h1]
  show (if bits w 7 7 = 0 then Except.ok (Instr.amaxn (bits w 25 20) (bits w 19 14) (bits w 13 8) (bits w 6 5) (bits w 4 4)) else _) = _
  rw [if_pos h2]
  rw [h3, h4, h5, h6, h7]

theorem aswp (x0 x1 x2 x3 x4 : Nat) : Statement (.aswp x0 x1 x2 x3 x4) := by
  intro h w hw
  replace h : x0 < 64 ∧ x1 < 64 ∧ x2 < 64 ∧ x3 < 4 ∧ x4 < 2 := of_decide_eq_true h
  replace hw : 1543503880 + x0 * 2 ^ 20 + x1 * 2 ^ 14 + x2 * 2 ^ 8 + x3 * 2 ^ 5 + x4 * 2 ^ 4 = w := Option.some.inj hw
  obtain ⟨hb, h0, h1, h2, h3, h4, h5, h6, h7⟩ := fields19 1543503880 23 8 0 (by decide) hw h
  refine ⟨hb, ?_⟩
  unfold decode
  rw [h0]
  show decAtom w = _
  unfold decAtom
  rw [h1]
  show (if bits w 7 7 = 0 then Except.ok (Instr.aswp (bits w 25 20) (bits w 19 14) (bits w 13 8) (bits w 6 5) (bits w 4 4)) else _) = _
  rw [if_pos h2]
  rw [h3, h4, h5, h6, h7]

theorem acas (x0 x1 x2 x3 x4 : Nat) : Statement (.acas x0 x1 x2 x3 x4) := by
  intro h w hw
  replace h : x0 < 64 ∧ x1 < 64 ∧ x2 < 64 ∧ x3 < 4 ∧ x4 < 2 := of_decide_eq_true h
  replace hw : 1543503881 + x0 * 2 ^ 20 + x1 * 2 ^ 14 + x2 * 2 ^ 8 + x3 * 2 ^ 5 + x4 * 2 ^ 4 = w := Option.some.inj hw
  obtain ⟨hb, h0, h1, h2, h3, h4, h5, h6, h7⟩ := fields19 1543503881 23 9 0 (by decide) hw h
  refine ⟨hb, ?_⟩
  unfold decode
  rw [h0]
  show decAtom w = _
  unfold decAtom
  rw [h1]
  show (if bits w 7 7 = 0 then Except.ok (Instr.acas (bits w 25 20) (bits w 19 14) (bits w 13 8) (bits w 6 5) (bits w 4 4)) else _) = _
  rw [if_pos h2]
  rw [h3, h4, h5, h6, h7]

theorem afadd (x0 x1 x2 x3 x4 : Nat) : Statement (.afadd x0 x1 x2 x3 x4) := by
  intro h w hw
  replace h : x0 < 64 ∧ x1 < 64 ∧ x2 < 64 ∧ x3 < 4 ∧ x4 < 2 := of_decide_eq_true h
  replace hw : 1543503882 + x0 * 2 ^ 20 + x1 * 2 ^ 14 + x2 * 2 ^ 8 + x3 * 2 ^ 5 + x4 * 2 ^ 4 = w := Option.some.inj hw
  obtain ⟨hb, h0, h1, h2, h3, h4, h5, h6, h7⟩ := fields19 1543503882 23 10 0 (by decide) hw h
  refine ⟨hb, ?_⟩
  unfold decode
  rw [h0]
  show decAtom w = _
  unfold decAtom
  rw [h1]
  show (if bits w 7 7 = 0 then Except.ok (Instr.afadd (bits w 25 20) (bits w 19 14) (bits w 13 8) (bits w 6 5) (bits w 4 4)) else _) = _
  rw [if_pos h2]
  rw [h3, h4, h5, h6, h7]

theorem afmin (x0 x1 x2 x3 x4 : Nat) : Statement (.afmin x0 x1 x2 x3 x4) := by
  intro h w hw
  replace h : x0 < 64 ∧ x1 < 64 ∧ x2 < 64 ∧ x3 < 4 ∧ x4 < 2 := of_decide_eq_true h
  replace hw : 1543503883 + x0 * 2 ^ 20 + x1 * 2 ^ 14 + x2 * 2 ^ 8 + x3 * 2 ^ 5 + x4 * 2 ^ 4 = w := Option.some.inj hw
  obtain ⟨hb, h0, h1, h2, h3, h4, h5, h6, h7⟩ := fields19 1543503883 23 11 0 (by decide) hw h
  refine ⟨hb, ?_⟩
  unfold decode
  rw [h0]
  show decAtom w = _
  unfold decAtom
  rw [h1]
  show (if bits w 7 7 = 0 then Except.ok (Instr.afmin (bits w 25 20) (bits w 19 14) (bits w 13 8) (bits w 6 5) (bits w 4 4)) else _) = _
  rw [if_pos h2]
  rw [h3, h4, h5, h6, h7]

theorem afmax (x0 x1 x2 x3 x4 : Nat) : Statement (.afmax x0 x1 x2 x3 x4) := by
  intro h w hw
  replace h : x0 < 64 ∧ x1 < 64 ∧ x2 < 64 ∧ x3 < 4 ∧ x4 < 2 := of_decide_eq_true h
  replace hw : 1543503884 + x0 * 2 ^ 20 + x1 * 2 ^ 14 + x2 * 2 ^ 8 + x3 * 2 ^ 5 + x4 * 2 ^ 4 = w := Option.some.inj hw
  obtain ⟨hb, h0, h1, h2, h3, h4, h5, h6, h7⟩ := fields19 1543503884 23 12 0 (by decide) hw h
  refine ⟨hb, ?_⟩
  unfold decode
  rw [h0]
  show decAtom w = _
  unfold decAtom
  rw [h1]
  show (if bits w 7 7 = 0 then Except.ok (Instr.afmax (bits w 25 20) (bits w 19 14) (bits w 13 8) (bits w 6 5) (bits w 4 4)) else _) = _
  rw [if_pos h2]
  rw [h3, h4, h5, h6, h7]

theorem acas2 (x0 x1 x2 x3 : Nat) : Statement (.acas2 x0 x1 x2 x3) := by
  intro h w hw
  replace h : x0 < 64 ∧ x1 < 64 ∧ x2 < 64 ∧ x3 < 4 := of_decide_eq_true h
  replace hw : 1610612736 + x0 * 2 ^ 20 + x1 * 2 ^ 14 + x2 * 2 ^ 8 + x3 * 2 ^ 0 = w := Option.some.inj hw
  obtain ⟨hb, h0, h1, h2, h3, h4, h5⟩ := fields20 1610612736 24 0 (by decide) hw h
  refine ⟨hb, ?_⟩
  unfold decode
  rw [h0]
  show (if bits w 7 2 = 0 then Except.ok (Instr.acas2 (bits w 25 20) (bits w 19 14) (bits w 13 8) (bits w 1 0)) else _) = _
  rw [if_pos h1]
  rw [h2, h3, h4, h5]

theorem btag (x0 : Nat) : Statement (.btag x0) := by
  intro h w hw
  replace h : x0 < 64 := of_decide_eq_true h
  replace hw : 1677721600 + x0 * 2 ^ 8 = w := Option.some.inj hw
  obtain ⟨hb, h0, h1, h2, h3⟩ := fields3 1677721600 0 0 25 (by decide) hw h
  refine ⟨hb, ?_⟩
  unfold decode
  rw [h0]
  show decRemote w = _
  unfold decRemote
  rw [h1]
  show (if bits w 25 14 = 0 then Except.ok (Instr.btag (bits w 13 8)) else _) = _
  rw [if_pos h2]
  rw [h3]

theorem bclose (x0 x1 x2 : Nat) : Statement (.bclose x0 x1 x2) := by
  intro h w hw
  replace h : x0 < 32 ∧ x1 < 64 ∧ x2 < 64 := of_decide_eq_true h
  replace hw : 1677721601 + x0 * 2 ^ 20 + x1 * 2 ^ 14 + x2 * 2 ^ 8 = w := Option.some.inj hw
  obtain ⟨hb, h0, h1, h2, h3, h4, h5⟩ := fields21 1677721601 1 25 0 (by decide) hw h
  refine ⟨hb, ?_⟩
  unfold decode
  rw [h0]
  show decRemote w = _
  unfold decRemote
  rw [h1]
  show (if bits w 25 25 = 0 then Except.ok (Instr.bclose (bits w 24 20) (bits w 19 14) (bits w 13 8)) else _) = _
  rw [if_pos h2]
  rw [h3, h4, h5]

theorem rappend (x0 x1 x2 : Nat) : Statement (.rappend x0 x1 x2) := by
  intro h w hw
  replace h : x0 < 32 ∧ x1 < 64 ∧ x2 < 64 := of_decide_eq_true h
  replace hw : 1677721602 + x0 * 2 ^ 20 + x1 * 2 ^ 14 + x2 * 2 ^ 8 = w := Option.some.inj hw
  obtain ⟨hb, h0, h1, h2, h3, h4, h5⟩ := fields21 1677721602 2 25 0 (by decide) hw h
  refine ⟨hb, ?_⟩
  unfold decode
  rw [h0]
  show decRemote w = _
  unfold decRemote
  rw [h1]
  show (if bits w 25 25 = 0 then Except.ok (Instr.rappend (bits w 24 20) (bits w 19 14) (bits w 13 8)) else _) = _
  rw [if_pos h2]
  rw [h3, h4, h5]

theorem vadd (x0 x1 x2 x3 x4 : Nat) : Statement (.vadd x0 x1 x2 x3 x4) := by
  intro h w hw
  replace h : x0 < 32 ∧ x1 < 32 ∧ x2 < 32 ∧ x3 < 8 ∧ x4 < 4 := of_decide_eq_true h
  replace hw : 2147483648 + x0 * 2 ^ 21 + x1 * 2 ^ 16 + x2 * 2 ^ 11 + x3 * 2 ^ 8 + x4 * 2 ^ 6 = w := Option.some.inj hw
  obtain ⟨hb, h0, h1, h2, h3, h4, h5, h6⟩ := fields22 2147483648 32 0 (by decide) hw h
  refine ⟨hb, ?_⟩
  unfold decode
  rw [h0]
  show decVInt w = _
  unfold decVInt
  rw [h1]
  show Except.ok (Instr.vadd (bits w 25 21) (bits w 20 16) (bits w 15 11) (bits w 10 8) (bits w 7 6)) = _
  rw [h2, h3, h4, h5, h6]

theorem vsub (x0 x1 x2 x3 x4 : Nat) : Statement (.vsub x0 x1 x2 x3 x4) := by
  intro h w hw
  replace h : x0 < 32 ∧ x1 < 32 ∧ x2 < 32 ∧ x3 < 8 ∧ x4 < 4 := of_decide_eq_true h
  replace hw : 2147483649 + x0 * 2 ^ 21 + x1 * 2 ^ 16 + x2 * 2 ^ 11 + x3 * 2 ^ 8 + x4 * 2 ^ 6 = w := Option.some.inj hw
  obtain ⟨hb, h0, h1, h2, h3, h4, h5, h6⟩ := fields22 2147483649 32 1 (by decide) hw h
  refine ⟨hb, ?_⟩
  unfold decode
  rw [h0]
  show decVInt w = _
  unfold decVInt
  rw [h1]
  show Except.ok (Instr.vsub (bits w 25 21) (bits w 20 16) (bits w 15 11) (bits w 10 8) (bits w 7 6)) = _
  rw [h2, h3, h4, h5, h6]

theorem vmul (x0 x1 x2 x3 x4 : Nat) : Statement (.vmul x0 x1 x2 x3 x4) := by
  intro h w hw
  replace h : x0 < 32 ∧ x1 < 32 ∧ x2 < 32 ∧ x3 < 8 ∧ x4 < 4 := of_decide_eq_true h
  replace hw : 2147483650 + x0 * 2 ^ 21 + x1 * 2 ^ 16 + x2 * 2 ^ 11 + x3 * 2 ^ 8 + x4 * 2 ^ 6 = w := Option.some.inj hw
  obtain ⟨hb, h0, h1, h2, h3, h4, h5, h6⟩ := fields22 2147483650 32 2 (by decide) hw h
  refine ⟨hb, ?_⟩
  unfold decode
  rw [h0]
  show decVInt w = _
  unfold decVInt
  rw [h1]
  show Except.ok (Instr.vmul (bits w 25 21) (bits w 20 16) (bits w 15 11) (bits w 10 8) (bits w 7 6)) = _
  rw [h2, h3, h4, h5, h6]

theorem vmulh (x0 x1 x2 x3 x4 : Nat) : Statement (.vmulh x0 x1 x2 x3 x4) := by
  intro h w hw
  replace h : x0 < 32 ∧ x1 < 32 ∧ x2 < 32 ∧ x3 < 8 ∧ x4 < 4 := of_decide_eq_true h
  replace hw : 2147483651 + x0 * 2 ^ 21 + x1 * 2 ^ 16 + x2 * 2 ^ 11 + x3 * 2 ^ 8 + x4 * 2 ^ 6 = w := Option.some.inj hw
  obtain ⟨hb, h0, h1, h2, h3, h4, h5, h6⟩ := fields22 2147483651 32 3 (by decide) hw h
  refine ⟨hb, ?_⟩
  unfold decode
  rw [h0]
  show decVInt w = _
  unfold decVInt
  rw [h1]
  show Except.ok (Instr.vmulh (bits w 25 21) (bits w 20 16) (bits w 15 11) (bits w 10 8) (bits w 7 6)) = _
  rw [h2, h3, h4, h5, h6]

theorem vmin (x0 x1 x2 x3 x4 : Nat) : Statement (.vmin x0 x1 x2 x3 x4) := by
  intro h w hw
  replace h : x0 < 32 ∧ x1 < 32 ∧ x2 < 32 ∧ x3 < 8 ∧ x4 < 4 := of_decide_eq_true h
  replace hw : 2147483652 + x0 * 2 ^ 21 + x1 * 2 ^ 16 + x2 * 2 ^ 11 + x3 * 2 ^ 8 + x4 * 2 ^ 6 = w := Option.some.inj hw
  obtain ⟨hb, h0, h1, h2, h3, h4, h5, h6⟩ := fields22 2147483652 32 4 (by decide) hw h
  refine ⟨hb, ?_⟩
  unfold decode
  rw [h0]
  show decVInt w = _
  unfold decVInt
  rw [h1]
  show Except.ok (Instr.vmin (bits w 25 21) (bits w 20 16) (bits w 15 11) (bits w 10 8) (bits w 7 6)) = _
  rw [h2, h3, h4, h5, h6]

theorem vmax (x0 x1 x2 x3 x4 : Nat) : Statement (.vmax x0 x1 x2 x3 x4) := by
  intro h w hw
  replace h : x0 < 32 ∧ x1 < 32 ∧ x2 < 32 ∧ x3 < 8 ∧ x4 < 4 := of_decide_eq_true h
  replace hw : 2147483653 + x0 * 2 ^ 21 + x1 * 2 ^ 16 + x2 * 2 ^ 11 + x3 * 2 ^ 8 + x4 * 2 ^ 6 = w := Option.some.inj hw
  obtain ⟨hb, h0, h1, h2, h3, h4, h5, h6⟩ := fields22 2147483653 32 5 (by decide) hw h
  refine ⟨hb, ?_⟩
  unfold decode
  rw [h0]
  show decVInt w = _
  unfold decVInt
  rw [h1]
  show Except.ok (Instr.vmax (bits w 25 21) (bits w 20 16) (bits w 15 11) (bits w 10 8) (bits w 7 6)) = _
  rw [h2, h3, h4, h5, h6]

theorem vminn (x0 x1 x2 x3 x4 : Nat) : Statement (.vminn x0 x1 x2 x3 x4) := by
  intro h w hw
  replace h : x0 < 32 ∧ x1 < 32 ∧ x2 < 32 ∧ x3 < 8 ∧ x4 < 4 := of_decide_eq_true h
  replace hw : 2147483654 + x0 * 2 ^ 21 + x1 * 2 ^ 16 + x2 * 2 ^ 11 + x3 * 2 ^ 8 + x4 * 2 ^ 6 = w := Option.some.inj hw
  obtain ⟨hb, h0, h1, h2, h3, h4, h5, h6⟩ := fields22 2147483654 32 6 (by decide) hw h
  refine ⟨hb, ?_⟩
  unfold decode
  rw [h0]
  show decVInt w = _
  unfold decVInt
  rw [h1]
  show Except.ok (Instr.vminn (bits w 25 21) (bits w 20 16) (bits w 15 11) (bits w 10 8) (bits w 7 6)) = _
  rw [h2, h3, h4, h5, h6]

theorem vmaxn (x0 x1 x2 x3 x4 : Nat) : Statement (.vmaxn x0 x1 x2 x3 x4) := by
  intro h w hw
  replace h : x0 < 32 ∧ x1 < 32 ∧ x2 < 32 ∧ x3 < 8 ∧ x4 < 4 := of_decide_eq_true h
  replace hw : 2147483655 + x0 * 2 ^ 21 + x1 * 2 ^ 16 + x2 * 2 ^ 11 + x3 * 2 ^ 8 + x4 * 2 ^ 6 = w := Option.some.inj hw
  obtain ⟨hb, h0, h1, h2, h3, h4, h5, h6⟩ := fields22 2147483655 32 7 (by decide) hw h
  refine ⟨hb, ?_⟩
  unfold decode
  rw [h0]
  show decVInt w = _
  unfold decVInt
  rw [h1]
  show Except.ok (Instr.vmaxn (bits w 25 21) (bits w 20 16) (bits w 15 11) (bits w 10 8) (bits w 7 6)) = _
  rw [h2, h3, h4, h5, h6]

theorem vand (x0 x1 x2 x3 x4 : Nat) : Statement (.vand x0 x1 x2 x3 x4) := by
  intro h w hw
  replace h : x0 < 32 ∧ x1 < 32 ∧ x2 < 32 ∧ x3 < 8 ∧ x4 < 4 := of_decide_eq_true h
  replace hw : 2147483656 + x0 * 2 ^ 21 + x1 * 2 ^ 16 + x2 * 2 ^ 11 + x3 * 2 ^ 8 + x4 * 2 ^ 6 = w := Option.some.inj hw
  obtain ⟨hb, h0, h1, h2, h3, h4, h5, h6⟩ := fields22 2147483656 32 8 (by decide) hw h
  refine ⟨hb, ?_⟩
  unfold decode
  rw [h0]
  show decVInt w = _
  unfold decVInt
  rw [h1]
  show Except.ok (Instr.vand (bits w 25 21) (bits w 20 16) (bits w 15 11) (bits w 10 8) (bits w 7 6)) = _
  rw [h2, h3, h4, h5, h6]

theorem vor (x0 x1 x2 x3 x4 : Nat) : Statement (.vor x0 x1 x2 x3 x4) := by
  intro h w hw
  replace h : x0 < 32 ∧ x1 < 32 ∧ x2 < 32 ∧ x3 < 8 ∧ x4 < 4 := of_decide_eq_true h
  replace hw : 2147483657 + x0 * 2 ^ 21 + x1 * 2 ^ 16 + x2 * 2 ^ 11 + x3 * 2 ^ 8 + x4 * 2 ^ 6 = w := Option.some.inj hw
  obtain ⟨hb, h0, h1, h2, h3, h4, h5, h6⟩ := fields22 2147483657 32 9 (by decide) hw h
  refine ⟨hb, ?_⟩
  unfold decode
  rw [h0]
  show decVInt w = _
  unfold decVInt
  rw [h1]
  show Except.ok (Instr.vor (bits w 25 21) (bits w 20 16) (bits w 15 11) (bits w 10 8) (bits w 7 6)) = _
  rw [h2, h3, h4, h5, h6]

theorem vxor (x0 x1 x2 x3 x4 : Nat) : Statement (.vxor x0 x1 x2 x3 x4) := by
  intro h w hw
  replace h : x0 < 32 ∧ x1 < 32 ∧ x2 < 32 ∧ x3 < 8 ∧ x4 < 4 := of_decide_eq_true h
  replace hw : 2147483658 + x0 * 2 ^ 21 + x1 * 2 ^ 16 + x2 * 2 ^ 11 + x3 * 2 ^ 8 + x4 * 2 ^ 6 = w := Option.some.inj hw
  obtain ⟨hb, h0, h1, h2, h3, h4, h5, h6⟩ := fields22 2147483658 32 10 (by decide) hw h
  refine ⟨hb, ?_⟩
  unfold decode
  rw [h0]
  show decVInt w = _
  unfold decVInt
  rw [h1]
  show Except.ok (Instr.vxor (bits w 25 21) (bits w 20 16) (bits w 15 11) (bits w 10 8) (bits w 7 6)) = _
  rw [h2, h3, h4, h5, h6]

theorem vandn (x0 x1 x2 x3 x4 : Nat) : Statement (.vandn x0 x1 x2 x3 x4) := by
  intro h w hw
  replace h : x0 < 32 ∧ x1 < 32 ∧ x2 < 32 ∧ x3 < 8 ∧ x4 < 4 := of_decide_eq_true h
  replace hw : 2147483659 + x0 * 2 ^ 21 + x1 * 2 ^ 16 + x2 * 2 ^ 11 + x3 * 2 ^ 8 + x4 * 2 ^ 6 = w := Option.some.inj hw
  obtain ⟨hb, h0, h1, h2, h3, h4, h5, h6⟩ := fields22 2147483659 32 11 (by decide) hw h
  refine ⟨hb, ?_⟩
  unfold decode
  rw [h0]
  show decVInt w = _
  unfold decVInt
  rw [h1]
  show Except.ok (Instr.vandn (bits w 25 21) (bits w 20 16) (bits w 15 11) (bits w 10 8) (bits w 7 6)) = _
  rw [h2, h3, h4, h5, h6]

theorem vshl (x0 x1 x2 x3 x4 : Nat) : Statement (.vshl x0 x1 x2 x3 x4) := by
  intro h w hw
  replace h : x0 < 32 ∧ x1 < 32 ∧ x2 < 32 ∧ x3 < 8 ∧ x4 < 4 := of_decide_eq_true h
  replace hw : 2147483660 + x0 * 2 ^ 21 + x1 * 2 ^ 16 + x2 * 2 ^ 11 + x3 * 2 ^ 8 + x4 * 2 ^ 6 = w := Option.some.inj hw
  obtain ⟨hb, h0, h1, h2, h3, h4, h5, h6⟩ := fields22 2147483660 32 12 (by decide) hw h
  refine ⟨hb, ?_⟩
  unfold decode
  rw [h0]
  show decVInt w = _
  unfold decVInt
  rw [h1]
  show Except.ok (Instr.vshl (bits w 25 21) (bits w 20 16) (bits w 15 11) (bits w 10 8) (bits w 7 6)) = _
  rw [h2, h3, h4, h5, h6]

theorem vshr (x0 x1 x2 x3 x4 : Nat) : Statement (.vshr x0 x1 x2 x3 x4) := by
  intro h w hw
  replace h : x0 < 32 ∧ x1 < 32 ∧ x2 < 32 ∧ x3 < 8 ∧ x4 < 4 := of_decide_eq_true h
  replace hw : 2147483661 + x0 * 2 ^ 21 + x1 * 2 ^ 16 + x2 * 2 ^ 11 + x3 * 2 ^ 8 + x4 * 2 ^ 6 = w := Option.some.inj hw
  obtain ⟨hb, h0, h1, h2, h3, h4, h5, h6⟩ := fields22 2147483661 32 13 (by decide) hw h
  refine ⟨hb, ?_⟩
  unfold decode
  rw [h0]
  show decVInt w = _
  unfold decVInt
  rw [h1]
  show Except.ok (Instr.vshr (bits w 25 21) (bits w 20 16) (bits w 15 11) (bits w 10 8) (bits w 7 6)) = _
  rw [h2, h3, h4, h5, h6]

theorem vsar (x0 x1 x2 x3 x4 : Nat) : Statement (.vsar x0 x1 x2 x3 x4) := by
  intro h w hw
  replace h : x0 < 32 ∧ x1 < 32 ∧ x2 < 32 ∧ x3 < 8 ∧ x4 < 4 := of_decide_eq_true h
  replace hw : 2147483662 + x0 * 2 ^ 21 + x1 * 2 ^ 16 + x2 * 2 ^ 11 + x3 * 2 ^ 8 + x4 * 2 ^ 6 = w := Option.some.inj hw
  obtain ⟨hb, h0, h1, h2, h3, h4, h5, h6⟩ := fields22 2147483662 32 14 (by decide) hw h
  refine ⟨hb, ?_⟩
  unfold decode
  rw [h0]
  show decVInt w = _
  unfold decVInt
  rw [h1]
  show Except.ok (Instr.vsar (bits w 25 21) (bits w 20 16) (bits w 15 11) (bits w 10 8) (bits w 7 6)) = _
  rw [h2, h3, h4, h5, h6]

theorem vabs (x0 x1 x2 x3 : Nat) : Statement (.vabs x0 x1 x2 x3) := by
  intro h w hw
  replace h : x0 < 32 ∧ x1 < 32 ∧ x2 < 8 ∧ x3 < 4 := of_decide_eq_true h
  replace hw : 2147483663 + x0 * 2 ^ 21 + x1 * 2 ^ 16 + x2 * 2 ^ 8 + x3 * 2 ^ 6 = w := Option.some.inj hw
  obtain ⟨hb, h0, h1, h2, h3, h4, h5, h6⟩ := fields23 2147483663 32 15 0 (by decide) hw h
  refine ⟨hb, ?_⟩
  unfold decode
  rw [h0]
  show decVInt w = _
  unfold decVInt
  rw [h1]
  show (if bits w 15 11 = 0 then Except.ok (Instr.vabs (bits w 25 21) (bits w 20 16) (bits w 10 8) (bits w 7 6)) else _) = _
  rw [if_pos h2]
  rw [h3, h4, h5, h6]

theorem vneg (x0 x1 x2 x3 : Nat) : Statement (.vneg x0 x1 x2 x3) := by
  intro h w hw
  replace h : x0 < 32 ∧ x1 < 32 ∧ x2 < 8 ∧ x3 < 4 := of_decide_eq_true h
  replace hw : 2147483664 + x0 * 2 ^ 21 + x1 * 2 ^ 16 + x2 * 2 ^ 8 + x3 * 2 ^ 6 = w := Option.some.inj hw
  obtain ⟨hb, h0, h1, h2, h3, h4, h5, h6⟩ := fields23 2147483664 32 16 0 (by decide) hw h
  refine ⟨hb, ?_⟩
  unfold decode
  rw [h0]
  show decVInt w = _
  unfold decVInt
  rw [h1]
  show (if bits w 15 11 = 0 then Except.ok (Instr.vneg (bits w 25 21) (bits w 20 16) (bits w 10 8) (bits w 7 6)) else _) = _
  rw [if_pos h2]
  rw [h3, h4, h5, h6]

theorem vpopc (x0 x1 x2 x3 : Nat) : Statement (.vpopc x0 x1 x2 x3) := by
  intro h w hw
  replace h : x0 < 32 ∧ x1 < 32 ∧ x2 < 8 ∧ x3 < 4 := of_decide_eq_true h
  replace hw : 2147483665 + x0 * 2 ^ 21 + x1 * 2 ^ 16 + x2 * 2 ^ 8 + x3 * 2 ^ 6 = w := Option.some.inj hw
  obtain ⟨hb, h0, h1, h2, h3, h4, h5, h6⟩ := fields23 2147483665 32 17 0 (by decide) hw h
  refine ⟨hb, ?_⟩
  unfold decode
  rw [h0]
  show decVInt w = _
  unfold decVInt
  rw [h1]
  show (if bits w 15 11 = 0 then Except.ok (Instr.vpopc (bits w 25 21) (bits w 20 16) (bits w 10 8) (bits w 7 6)) else _) = _
  rw [if_pos h2]
  rw [h3, h4, h5, h6]

theorem vfadd (x0 x1 x2 x3 : Nat) : Statement (.vfadd x0 x1 x2 x3) := by
  intro h w hw
  replace h : x0 < 32 ∧ x1 < 32 ∧ x2 < 32 ∧ x3 < 8 := of_decide_eq_true h
  replace hw : 2214592512 + x0 * 2 ^ 21 + x1 * 2 ^ 16 + x2 * 2 ^ 11 + x3 * 2 ^ 8 = w := Option.some.inj hw
  obtain ⟨hb, h0, h1, h2, h3, h4, h5⟩ := fields24 2214592512 0 33 (by decide) hw h
  refine ⟨hb, ?_⟩
  unfold decode
  rw [h0]
  show decVFlt w = _
  unfold decVFlt
  rw [h1]
  show Except.ok (Instr.vfadd (bits w 25 21) (bits w 20 16) (bits w 15 11) (bits w 10 8)) = _
  rw [h2, h3, h4, h5]

theorem vfsub (x0 x1 x2 x3 : Nat) : Statement (.vfsub x0 x1 x2 x3) := by
  intro h w hw
  replace h : x0 < 32 ∧ x1 < 32 ∧ x2 < 32 ∧ x3 < 8 := of_decide_eq_true h
  replace hw : 2214592513 + x0 * 2 ^ 21 + x1 * 2 ^ 16 + x2 * 2 ^ 11 + x3 * 2 ^ 8 = w := Option.some.inj hw
  obtain ⟨hb, h0, h1, h2, h3, h4, h5⟩ := fields24 2214592513 1 33 (by decide) hw h
  refine ⟨hb, ?_⟩
  unfold decode
  rw [h0]
  show decVFlt w = _
  unfold decVFlt
  rw [h1]
  show Except.ok (Instr.vfsub (bits w 25 21) (bits w 20 16) (bits w 15 11) (bits w 10 8)) = _
  rw [h2, h3, h4, h5]

theorem vfmul (x0 x1 x2 x3 : Nat) : Statement (.vfmul x0 x1 x2 x3) := by
  intro h w hw
  replace h : x0 < 32 ∧ x1 < 32 ∧ x2 < 32 ∧ x3 < 8 := of_decide_eq_true h
  replace hw : 2214592514 + x0 * 2 ^ 21 + x1 * 2 ^ 16 + x2 * 2 ^ 11 + x3 * 2 ^ 8 = w := Option.some.inj hw
  obtain ⟨hb, h0, h1, h2, h3, h4, h5⟩ := fields24 2214592514 2 33 (by decide) hw h
  refine ⟨hb, ?_⟩
  unfold decode
  rw [h0]
  show decVFlt w = _
  unfold decVFlt
  rw [h1]
  show Except.ok (Instr.vfmul (bits w 25 21) (bits w 20 16) (bits w 15 11) (bits w 10 8)) = _
  rw [h2, h3, h4, h5]

theorem vfmin (x0 x1 x2 x3 : Nat) : Statement (.vfmin x0 x1 x2 x3) := by
  intro h w hw
  replace h : x0 < 32 ∧ x1 < 32 ∧ x2 < 32 ∧ x3 < 8 := of_decide_eq_true h
  replace hw : 2214592515 + x0 * 2 ^ 21 + x1 * 2 ^ 16 + x2 * 2 ^ 11 + x3 * 2 ^ 8 = w := Option.some.inj hw
  obtain ⟨hb, h0, h1, h2, h3, h4, h5⟩ := fields24 2214592515 3 33 (by decide) hw h
  refine ⟨hb, ?_⟩
  unfold decode
  rw [h0]
  show decVFlt w = _
  unfold decVFlt
  rw [h1]
  show Except.ok (Instr.vfmin (bits w 25 21) (bits w 20 16) (bits w 15 11) (bits w 10 8)) = _
  rw [h2, h3, h4, h5]

theorem vfmax (x0 x1 x2 x3 : Nat) : Statement (.vfmax x0 x1 x2 x3) := by
  intro h w hw
  replace h : x0 < 32 ∧ x1 < 32 ∧ x2 < 32 ∧ x3 < 8 := of_decide_eq_true h
  replace hw : 2214592516 + x0 * 2 ^ 21 + x1 * 2 ^ 16 + x2 * 2 ^ 11 + x3 * 2 ^ 8 = w := Option.some.inj hw
  obtain ⟨hb, h0, h1, h2, h3, h4, h5⟩ := fields24 2214592516 4 33 (by decide) hw h
  refine ⟨hb, ?_⟩
  unfold decode
  rw [h0]
  show decVFlt w = _
  unfold decVFlt
  rw [h1]
  show Except.ok (Instr.vfmax (bits w 25 21) (bits w 20 16) (bits w 15 11) (bits w 10 8)) = _
  rw [h2, h3, h4, h5]

theorem vfabs (x0 x1 x2 : Nat) : Statement (.vfabs x0 x1 x2) := by
  intro h w hw
  replace h : x0 < 32 ∧ x1 < 32 ∧ x2 < 8 := of_decide_eq_true h
  replace hw : 2214592517 + x0 * 2 ^ 21 + x1 * 2 ^ 16 + x2 * 2 ^ 8 = w := Option.some.inj hw
  obtain ⟨hb, h0, h1, h2, h3, h4, h5⟩ := fields25 2214592517 5 33 0 (by decide) hw h
  refine ⟨hb, ?_⟩
  unfold decode
  rw [h0]
  show decVFlt w = _
  unfold decVFlt
  rw [h1]
  show (if bits w 15 11 = 0 then Except.ok (Instr.vfabs (bits w 25 21) (bits w 20 16) (bits w 10 8)) else _) = _
  rw [if_pos h2]
  rw [h3, h4, h5]

theorem vfneg (x0 x1 x2 : Nat) : Statement (.vfneg x0 x1 x2) := by
  intro h w hw
  replace h : x0 < 32 ∧ x1 < 32 ∧ x2 < 8 := of_decide_eq_true h
  replace hw : 2214592518 + x0 * 2 ^ 21 + x1 * 2 ^ 16 + x2 * 2 ^ 8 = w := Option.some.inj hw
  obtain ⟨hb, h0, h1, h2, h3, h4, h5⟩ := fields25 2214592518 6 33 0 (by decide) hw h
  refine ⟨hb, ?_⟩
  unfold decode
  rw [h0]
  show decVFlt w = _
  unfold decVFlt
  rw [h1]
  show (if bits w 15 11 = 0 then Except.ok (Instr.vfneg (bits w 25 21) (bits w 20 16) (bits w 10 8)) else _) = _
  rw [if_pos h2]
  rw [h3, h4, h5]

theorem vfma (x0 x1 x2 x3 x4 : Nat) : Statement (.vfma x0 x1 x2 x3 x4) := by
  intro h w hw
  replace h : x0 < 32 ∧ x1 < 32 ∧ x2 < 32 ∧ x3 < 32 ∧ x4 < 8 := of_decide_eq_true h
  replace hw : 2281701376 + x0 * 2 ^ 21 + x1 * 2 ^ 16 + x2 * 2 ^ 11 + x3 * 2 ^ 6 + x4 * 2 ^ 3 = w := Option.some.inj hw
  obtain ⟨hb, h0, h1, h2, h3, h4, h5, h6⟩ := fields26 2281701376 34 0 (by decide) hw h
  refine ⟨hb, ?_⟩
  unfold decode
  rw [h0]
  show decVFma w = _
  unfold decVFma
  rw [h1]
  show Except.ok (Instr.vfma (bits w 25 21) (bits w 20 16) (bits w 15 11) (bits w 10 6) (bits w 5 3)) = _
  rw [h2, h3, h4, h5, h6]

theorem vfms (x0 x1 x2 x3 x4 : Nat) : Statement (.vfms x0 x1 x2 x3 x4) := by
  intro h w hw
  replace h : x0 < 32 ∧ x1 < 32 ∧ x2 < 32 ∧ x3 < 32 ∧ x4 < 8 := of_decide_eq_true h
  replace hw : 2281701377 + x0 * 2 ^ 21 + x1 * 2 ^ 16 + x2 * 2 ^ 11 + x3 * 2 ^ 6 + x4 * 2 ^ 3 = w := Option.some.inj hw
  obtain ⟨hb, h0, h1, h2, h3, h4, h5, h6⟩ := fields26 2281701377 34 1 (by decide) hw h
  refine ⟨hb, ?_⟩
  unfold decode
  rw [h0]
  show decVFma w = _
  unfold decVFma
  rw [h1]
  show Except.ok (Instr.vfms (bits w 25 21) (bits w 20 16) (bits w 15 11) (bits w 10 6) (bits w 5 3)) = _
  rw [h2, h3, h4, h5, h6]

theorem vfnma (x0 x1 x2 x3 x4 : Nat) : Statement (.vfnma x0 x1 x2 x3 x4) := by
  intro h w hw
  replace h : x0 < 32 ∧ x1 < 32 ∧ x2 < 32 ∧ x3 < 32 ∧ x4 < 8 := of_decide_eq_true h
  replace hw : 2281701378 + x0 * 2 ^ 21 + x1 * 2 ^ 16 + x2 * 2 ^ 11 + x3 * 2 ^ 6 + x4 * 2 ^ 3 = w := Option.some.inj hw
  obtain ⟨hb, h0, h1, h2, h3, h4, h5, h6⟩ := fields26 2281701378 34 2 (by decide) hw h
  refine ⟨hb, ?_⟩
  unfold decode
  rw [h0]
  show decVFma w = _
  unfold decVFma
  rw [h1]
  show Except.ok (Instr.vfnma (bits w 25 21) (bits w 20 16) (bits w 15 11) (bits w 10 6) (bits w 5 3)) = _
  rw [h2, h3, h4, h5, h6]

theorem vfnms (x0 x1 x2 x3 x4 : Nat) : Statement (.vfnms x0 x1 x2 x3 x4) := by
  intro h w hw
  replace h : x0 < 32 ∧ x1 < 32 ∧ x2 < 32 ∧ x3 < 32 ∧ x4 < 8 := of_decide_eq_true h
  replace hw : 2281701379 + x0 * 2 ^ 21 + x1 * 2 ^ 16 + x2 * 2 ^ 11 + x3 * 2 ^ 6 + x4 * 2 ^ 3 = w := Option.some.inj hw
  obtain ⟨hb, h0, h1, h2, h3, h4, h5, h6⟩ := fields26 2281701379 34 3 (by decide) hw h
  refine ⟨hb, ?_⟩
  unfold decode
  rw [h0]
  show decVFma w = _
  unfold decVFma
  rw [h1]
  show Except.ok (Instr.vfnms (bits w 25 21) (bits w 20 16) (bits w 15 11) (bits w 10 6) (bits w 5 3)) = _
  rw [h2, h3, h4, h5, h6]

theorem vmadd (x0 x1 x2 x3 x4 : Nat) : Statement (.vmadd x0 x1 x2 x3 x4) := by
  intro h w hw
  replace h : x0 < 32 ∧ x1 < 32 ∧ x2 < 32 ∧ x3 < 32 ∧ x4 < 8 := of_decide_eq_true h
  replace hw : 2281701380 + x0 * 2 ^ 21 + x1 * 2 ^ 16 + x2 * 2 ^ 11 + x3 * 2 ^ 6 + x4 * 2 ^ 3 = w := Option.some.inj hw
  obtain ⟨hb, h0, h1, h2, h3, h4, h5, h6⟩ := fields26 2281701380 34 4 (by decide) hw h
  refine ⟨hb, ?_⟩
  unfold decode
  rw [h0]
  show decVFma w = _
  unfold decVFma
  rw [h1]
  show Except.ok (Instr.vmadd (bits w 25 21) (bits w 20 16) (bits w 15 11) (bits w 10 6) (bits w 5 3)) = _
  rw [h2, h3, h4, h5, h6]

theorem vmsub (x0 x1 x2 x3 x4 : Nat) : Statement (.vmsub x0 x1 x2 x3 x4) := by
  intro h w hw
  replace h : x0 < 32 ∧ x1 < 32 ∧ x2 < 32 ∧ x3 < 32 ∧ x4 < 8 := of_decide_eq_true h
  replace hw : 2281701381 + x0 * 2 ^ 21 + x1 * 2 ^ 16 + x2 * 2 ^ 11 + x3 * 2 ^ 6 + x4 * 2 ^ 3 = w := Option.some.inj hw
  obtain ⟨hb, h0, h1, h2, h3, h4, h5, h6⟩ := fields26 2281701381 34 5 (by decide) hw h
  refine ⟨hb, ?_⟩
  unfold decode
  rw [h0]
  show decVFma w = _
  unfold decVFma
  rw [h1]
  show Except.ok (Instr.vmsub (bits w 25 21) (bits w 20 16) (bits w 15 11) (bits w 10 6) (bits w 5 3)) = _
  rw [h2, h3, h4, h5, h6]

theorem vcmpi (x0 x1 x2 x3 x4 x5 : Nat) : Statement (.vcmpi x0 x1 x2 x3 x4 x5) := by
  intro h w hw
  replace h : x0 < 8 ∧ x1 < 32 ∧ x2 < 32 ∧ x3 < 8 ∧ x4 < 4 ∧ x5 < 8 := of_decide_eq_true h
  replace hw : 2348810240 + x0 * 2 ^ 21 + x1 * 2 ^ 16 + x2 * 2 ^ 11 + x3 * 2 ^ 8 + x4 * 2 ^ 6 + x5 * 2 ^ 2 = w := Option.some.inj hw
  obtain ⟨hb, h0, h1, h2, h3, h4, h5, h6, h7, h8, h9⟩ := fields27 2348810240 35 0 0 0 (by decide) hw h
  refine ⟨hb, ?_⟩
  unfold decode
  rw [h0]
  show decVCmp w = _
  unfold decVCmp
  rw [h1]
  show (if bits w 25 24 = 0 ∧ bits w 5 5 = 0 then Except.ok (Instr.vcmpi (bits w 23 21) (bits w 20 16) (bits w 15 11) (bits w 10 8) (bits w 7 6) (bits w 4 2)) else _) = _
  rw [if_pos ⟨h2, h3⟩]
  rw [h4, h5, h6, h7, h8, h9]

theorem vcmpf (x0 x1 x2 x3 x4 : Nat) : Statement (.vcmpf x0 x1 x2 x3 x4) := by
  intro h w hw
  replace h : x0 < 8 ∧ x1 < 32 ∧ x2 < 32 ∧ x3 < 8 ∧ x4 < 8 := of_decide_eq_true h
  replace hw : 2348810241 + x0 * 2 ^ 21 + x1 * 2 ^ 16 + x2 * 2 ^ 11 + x3 * 2 ^ 8 + x4 * 2 ^ 2 = w := Option.some.inj hw
  obtain ⟨hb, h0, h1, h2, h3, h4, h5, h6, h7, h8⟩ := fields28 2348810241 35 0 1 0 (by decide) hw h
  refine ⟨hb, ?_⟩
  unfold decode
  rw [h0]
  show decVCmp w = _
  unfold decVCmp
  rw [h1]
  show (if bits w 25 24 = 0 ∧ bits w 7 5 = 0 then Except.ok (Instr.vcmpf (bits w 23 21) (bits w 20 16) (bits w 15 11) (bits w 10 8) (bits w 4 2)) else _) = _
  rw [if_pos ⟨h2, h3⟩]
  rw [h4, h5, h6, h7, h8]

theorem vsel (x0 x1 x2 x3 x4 : Nat) : Statement (.vsel x0 x1 x2 x3 x4) := by
  intro h w hw
  replace h : x0 < 32 ∧ x1 < 32 ∧ x2 < 32 ∧ x3 < 8 ∧ x4 < 4 := of_decide_eq_true h
  replace hw : 2348810242 + x0 * 2 ^ 21 + x1 * 2 ^ 16 + x2 * 2 ^ 11 + x3 * 2 ^ 8 + x4 * 2 ^ 6 = w := Option.some.inj hw
  obtain ⟨hb, h0, h1, h2, h3, h4, h5, h6, h7⟩ := fields29 2348810242 35 0 2 (by decide) hw h
  refine ⟨hb, ?_⟩
  unfold decode
  rw [h0]
  show decVCmp w = _
  unfold decVCmp
  rw [h1]
  show (if bits w 5 2 = 0 then Except.ok (Instr.vsel (bits w 25 21) (bits w 20 16) (bits w 15 11) (bits w 10 8) (bits w 7 6)) else _) = _
  rw [if_pos h2]
  rw [h3, h4, h5, h6, h7]

theorem vred (x0 x1 x2 x3 x4 x5 : Nat) : Statement (.vred x0 x1 x2 x3 x4 x5) := by
  intro h w hw
  replace h : x0 < 32 ∧ x1 < 32 ∧ x2 < 32 ∧ x3 < 8 ∧ x4 < 4 ∧ x5 < 8 := of_decide_eq_true h
  replace hw : 2415919104 + x0 * 2 ^ 21 + x1 * 2 ^ 16 + x2 * 2 ^ 11 + x3 * 2 ^ 8 + x4 * 2 ^ 6 + x5 * 2 ^ 0 = w := Option.some.inj hw
  obtain ⟨hb, h0, h1, h2, h3, h4, h5, h6, h7⟩ := fields30 2415919104 36 0 (by decide) hw h
  refine ⟨hb, ?_⟩
  unfold decode
  rw [h0]
  show decVLane w = _
  unfold decVLane
  rw [h1]
  show Except.ok (Instr.vred (bits w 25 21) (bits w 20 16) (bits w 15 11) (bits w 10 8) (bits w 7 6) (bits w 2 0)) = _
  rw [h2, h3, h4, h5, h6, h7]

theorem vscan (x0 x1 x2 x3 x4 x5 : Nat) : Statement (.vscan x0 x1 x2 x3 x4 x5) := by
  intro h w hw
  replace h : x0 < 32 ∧ x1 < 32 ∧ x2 < 32 ∧ x3 < 8 ∧ x4 < 4 ∧ x5 < 8 := of_decide_eq_true h
  replace hw : 2415919112 + x0 * 2 ^ 21 + x1 * 2 ^ 16 + x2 * 2 ^ 11 + x3 * 2 ^ 8 + x4 * 2 ^ 6 + x5 * 2 ^ 0 = w := Option.some.inj hw
  obtain ⟨hb, h0, h1, h2, h3, h4, h5, h6, h7⟩ := fields30 2415919112 36 1 (by decide) hw h
  refine ⟨hb, ?_⟩
  unfold decode
  rw [h0]
  show decVLane w = _
  unfold decVLane
  rw [h1]
  show Except.ok (Instr.vscan (bits w 25 21) (bits w 20 16) (bits w 15 11) (bits w 10 8) (bits w 7 6) (bits w 2 0)) = _
  rw [h2, h3, h4, h5, h6, h7]

theorem vperm (x0 x1 x2 x3 x4 : Nat) : Statement (.vperm x0 x1 x2 x3 x4) := by
  intro h w hw
  replace h : x0 < 32 ∧ x1 < 32 ∧ x2 < 32 ∧ x3 < 8 ∧ x4 < 4 := of_decide_eq_true h
  replace hw : 2415919120 + x0 * 2 ^ 21 + x1 * 2 ^ 16 + x2 * 2 ^ 11 + x3 * 2 ^ 8 + x4 * 2 ^ 6 = w := Option.some.inj hw
  obtain ⟨hb, h0, h1, h2, h3, h4, h5, h6, h7⟩ := fields31 2415919120 36 2 0 (by decide) hw h
  refine ⟨hb, ?_⟩
  unfold decode
  rw [h0]
  show decVLane w = _
  unfold decVLane
  rw [h1]
  show (if bits w 2 0 = 0 then Except.ok (Instr.vperm (bits w 25 21) (bits w 20 16) (bits w 15 11) (bits w 10 8) (bits w 7 6)) else _) = _
  rw [if_pos h2]
  rw [h3, h4, h5, h6, h7]

theorem vbcast (x0 x1 x2 x3 x4 : Nat) : Statement (.vbcast x0 x1 x2 x3 x4) := by
  intro h w hw
  replace h : x0 < 32 ∧ x1 < 32 ∧ x2 < 8 ∧ x3 < 4 ∧ x4 < 2 := of_decide_eq_true h
  replace hw : 2415919128 + x0 * 2 ^ 21 + x1 * 2 ^ 16 + x2 * 2 ^ 8 + x3 * 2 ^ 6 + x4 * 2 ^ 0 = w := Option.some.inj hw
  obtain ⟨hb, h0, h1, h2, h3, h4, h5, h6, h7, h8⟩ := fields32 2415919128 36 0 3 0 (by decide) hw h
  refine ⟨hb, ?_⟩
  unfold decode
  rw [h0]
  show decVLane w = _
  unfold decVLane
  rw [h1]
  show (if bits w 15 11 = 0 ∧ bits w 2 1 = 0 then Except.ok (Instr.vbcast (bits w 25 21) (bits w 20 16) (bits w 10 8) (bits w 7 6) (bits w 0 0)) else _) = _
  rw [if_pos ⟨h2, h3⟩]
  rw [h4, h5, h6, h7, h8]

theorem vgetl (x0 x1 x2 x3 x4 : Nat) : Statement (.vgetl x0 x1 x2 x3 x4) := by
  intro h w hw
  replace h : x0 < 32 ∧ x1 < 32 ∧ x2 < 32 ∧ x3 < 4 ∧ x4 < 2 := of_decide_eq_true h
  replace hw : 2415919136 + x0 * 2 ^ 21 + x1 * 2 ^ 16 + x2 * 2 ^ 11 + x3 * 2 ^ 6 + x4 * 2 ^ 0 = w := Option.some.inj hw
  obtain ⟨hb, h0, h1, h2, h3, h4, h5, h6, h7, h8⟩ := fields33 2415919136 36 4 0 0 (by decide) hw h
  refine ⟨hb, ?_⟩
  unfold decode
  rw [h0]
  show decVLane w = _
  unfold decVLane
  rw [h1]
  show (if bits w 10 8 = 0 ∧ bits w 2 1 = 0 then Except.ok (Instr.vgetl (bits w 25 21) (bits w 20 16) (bits w 15 11) (bits w 7 6) (bits w 0 0)) else _) = _
  rw [if_pos ⟨h2, h3⟩]
  rw [h4, h5, h6, h7, h8]

theorem vsetl (x0 x1 x2 x3 x4 : Nat) : Statement (.vsetl x0 x1 x2 x3 x4) := by
  intro h w hw
  replace h : x0 < 32 ∧ x1 < 32 ∧ x2 < 32 ∧ x3 < 4 ∧ x4 < 2 := of_decide_eq_true h
  replace hw : 2415919144 + x0 * 2 ^ 21 + x1 * 2 ^ 16 + x2 * 2 ^ 11 + x3 * 2 ^ 6 + x4 * 2 ^ 0 = w := Option.some.inj hw
  obtain ⟨hb, h0, h1, h2, h3, h4, h5, h6, h7, h8⟩ := fields33 2415919144 36 5 0 0 (by decide) hw h
  refine ⟨hb, ?_⟩
  unfold decode
  rw [h0]
  show decVLane w = _
  unfold decVLane
  rw [h1]
  show (if bits w 10 8 = 0 ∧ bits w 2 1 = 0 then Except.ok (Instr.vsetl (bits w 25 21) (bits w 20 16) (bits w 15 11) (bits w 7 6) (bits w 0 0)) else _) = _
  rw [if_pos ⟨h2, h3⟩]
  rw [h4, h5, h6, h7, h8]

theorem vslideDn (x0 x1 x2 x3 x4 : Nat) : Statement (.vslideDn x0 x1 x2 x3 x4) := by
  intro h w hw
  replace h : x0 < 32 ∧ x1 < 32 ∧ x2 < 32 ∧ x3 < 8 ∧ x4 < 4 := of_decide_eq_true h
  replace hw : 2415919152 + x0 * 2 ^ 21 + x1 * 2 ^ 16 + x2 * 2 ^ 11 + x3 * 2 ^ 8 + x4 * 2 ^ 6 = w := Option.some.inj hw
  obtain ⟨hb, h0, h1, h2, h3, h4, h5, h6, h7⟩ := fields31 2415919152 36 6 0 (by decide) hw h
  refine ⟨hb, ?_⟩
  unfold decode
  rw [h0]
  show decVLane w = _
  unfold decVLane
  rw [h1]
  show (if bits w 2 0 = 0 then Except.ok (Instr.vslideDn (bits w 25 21) (bits w 20 16) (bits w 15 11) (bits w 10 8) (bits w 7 6)) else _) = _
  rw [if_pos h2]
  rw [h3, h4, h5, h6, h7]

theorem vslideUp (x0 x1 x2 x3 x4 : Nat) : Statement (.vslideUp x0 x1 x2 x3 x4) := by
  intro h w hw
  replace h : x0 < 32 ∧ x1 < 32 ∧ x2 < 32 ∧ x3 < 8 ∧ x4 < 4 := of_decide_eq_true h
  replace hw : 2415919153 + x0 * 2 ^ 21 + x1 * 2 ^ 16 + x2 * 2 ^ 11 + x3 * 2 ^ 8 + x4 * 2 ^ 6 = w := Option.some.inj hw
  obtain ⟨hb, h0, h1, h2, h3, h4, h5, h6, h7⟩ := fields31 2415919153 36 6 1 (by decide) hw h
  refine ⟨hb, ?_⟩
  unfold decode
  rw [h0]
  show decVLane w = _
  unfold decVLane
  rw [h1]
  simp [h2, h3, h4, h5, h6, h7]

theorem viota (x0 x1 x2 : Nat) : Statement (.viota x0 x1 x2) := by
  intro h w hw
  replace h : x0 < 32 ∧ x1 < 8 ∧ x2 < 4 := of_decide_eq_true h
  replace hw : 2415919160 + x0 * 2 ^ 21 + x1 * 2 ^ 8 + x2 * 2 ^ 6 = w := Option.some.inj hw
  obtain ⟨hb, h0, h1, h2, h3, h4, h5, h6⟩ := fields34 2415919160 0 36 7 0 (by decide) hw h
  refine ⟨hb, ?_⟩
  unfold decode
  rw [h0]
  show decVLane w = _
  unfold decVLane
  rw [h1]
  show (if bits w 20 11 = 0 ∧ bits w 2 0 = 0 then Except.ok (Instr.viota (bits w 25 21) (bits w 10 8) (bits w 7 6)) else _) = _
  rw [if_pos ⟨h2, h3⟩]
  rw [h4, h5, h6]

theorem viotaCnt (x0 x1 x2 : Nat) : Statement (.viotaCnt x0 x1 x2) := by
  intro h w hw
  replace h : x0 < 32 ∧ x1 < 8 ∧ x2 < 4 := of_decide_eq_true h
  replace hw : 2415919161 + x0 * 2 ^ 21 + x1 * 2 ^ 8 + x2 * 2 ^ 6 = w := Option.some.inj hw
  obtain ⟨hb, h0, h1, h2, h3, h4, h5, h6⟩ := fields34 2415919161 0 36 7 1 (by decide) hw h
  refine ⟨hb, ?_⟩
  unfold decode
  rw [h0]
  show decVLane w = _
  unfold decVLane
  rw [h1]
  simp [h2, h3, h4, h5, h6]

theorem vcvt (x0 x1 x2 x3 : Nat) : Statement (.vcvt x0 x1 x2 x3) := by
  intro h w hw
  replace h : x0 < 32 ∧ x1 < 32 ∧ x2 < 8 ∧ x3 < 8 := of_decide_eq_true h
  replace hw : 2483027968 + x0 * 2 ^ 21 + x1 * 2 ^ 16 + x2 * 2 ^ 8 + x3 * 2 ^ 3 = w := Option.some.inj hw
  obtain ⟨hb, h0, h1, h2, h3, h4, h5, h6, h7⟩ := fields35 2483027968 37 0 0 0 (by decide) hw h
  refine ⟨hb, ?_⟩
  unfold decode
  rw [h0]
  show decVConv w = _
  unfold decVConv
  rw [h1]
  show (if bits w 15 11 = 0 ∧ bits w 7 6 = 0 then Except.ok (Instr.vcvt (bits w 25 21) (bits w 20 16) (bits w 10 8) (bits w 5 3)) else _) = _
  rw [if_pos ⟨h2, h3⟩]
  rw [h4, h5, h6, h7]

theorem vquant (x0 x1 x2 : Nat) : Statement (.vquant x0 x1 x2) := by
  intro h w hw
  replace h : x0 < 32 ∧ x1 < 32 ∧ x2 < 8 := of_decide_eq_true h
  replace hw : 2483027969 + x0 * 2 ^ 21 + x1 * 2 ^ 16 + x2 * 2 ^ 3 = w := Option.some.inj hw
  obtain ⟨hb, h0, h1, h2, h3, h4, h5⟩ := fields36 2483027969 0 37 1 (by decide) hw h
  refine ⟨hb, ?_⟩
  unfold decode
  rw [h0]
  show decVConv w = _
  unfold decVConv
  rw [h1]
  show (if bits w 15 6 = 0 then Except.ok (Instr.vquant (bits w 25 21) (bits w 20 16) (bits w 5 3)) else _) = _
  rw [if_pos h2]
  rw [h3, h4, h5]

theorem vdeq (x0 x1 x2 x3 : Nat) : Statement (.vdeq x0 x1 x2 x3) := by
  intro h w hw
  replace h : x0 < 32 ∧ x1 < 32 ∧ x2 < 8 ∧ x3 < 8 := of_decide_eq_true h
  replace hw : 2483027970 + x0 * 2 ^ 21 + x1 * 2 ^ 16 + x2 * 2 ^ 8 + x3 * 2 ^ 3 = w := Option.some.inj hw
  obtain ⟨hb, h0, h1, h2, h3, h4, h5, h6, h7⟩ := fields35 2483027970 37 0 2 0 (by decide) hw h
  refine ⟨hb, ?_⟩
  unfold decode
  rw [h0]
  show decVConv w = _
  unfold decVConv
  rw [h1]
  show (if bits w 15 11 = 0 ∧ bits w 7 6 = 0 then Except.ok (Instr.vdeq (bits w 25 21) (bits w 20 16) (bits w 10 8) (bits w 5 3)) else _) = _
  rw [if_pos ⟨h2, h3⟩]
  rw [h4, h5, h6, h7]

theorem vdec (x0 x1 x2 x3 : Nat) : Statement (.vdec x0 x1 x2 x3) := by
  intro h w hw
  replace h : x0 < 32 ∧ x1 < 32 ∧ x2 < 8 ∧ x3 < 8 := of_decide_eq_true h
  replace hw : 2483027971 + x0 * 2 ^ 21 + x1 * 2 ^ 16 + x2 * 2 ^ 8 + x3 * 2 ^ 3 = w := Option.some.inj hw
  obtain ⟨hb, h0, h1, h2, h3, h4, h5, h6, h7⟩ := fields35 2483027971 37 0 3 0 (by decide) hw h
  refine ⟨hb, ?_⟩
  unfold decode
  rw [h0]
  show decVConv w = _
  unfold decVConv
  rw [h1]
  show (if bits w 15 11 = 0 ∧ bits w 7 6 = 0 then Except.ok (Instr.vdec (bits w 25 21) (bits w 20 16) (bits w 10 8) (bits w 5 3)) else _) = _
  rw [if_pos ⟨h2, h3⟩]
  rw [h4, h5, h6, h7]

theorem venc (x0 x1 x2 x3 : Nat) : Statement (.venc x0 x1 x2 x3) := by
  intro h w hw
  replace h : x0 < 32 ∧ x1 < 32 ∧ x2 < 8 ∧ x3 < 8 := of_decide_eq_true h
  replace hw : 2483027972 + x0 * 2 ^ 21 + x1 * 2 ^ 16 + x2 * 2 ^ 8 + x3 * 2 ^ 3 = w := Option.some.inj hw
  obtain ⟨hb, h0, h1, h2, h3, h4, h5, h6, h7⟩ := fields35 2483027972 37 0 4 0 (by decide) hw h
  refine ⟨hb, ?_⟩
  unfold decode
  rw [h0]
  show decVConv w = _
  unfold decVConv
  rw [h1]
  show (if bits w 15 11 = 0 ∧ bits w 7 6 = 0 then Except.ok (Instr.venc (bits w 25 21) (bits w 20 16) (bits w 10 8) (bits w 5 3)) else _) = _
  rw [if_pos ⟨h2, h3⟩]
  rw [h4, h5, h6, h7]

theorem vbadd (x0 x1 x2 : Nat) : Statement (.vbadd x0 x1 x2) := by
  intro h w hw
  replace h : x0 < 32 ∧ x1 < 32 ∧ x2 < 32 := of_decide_eq_true h
  replace hw : 2483027973 + x0 * 2 ^ 21 + x1 * 2 ^ 16 + x2 * 2 ^ 11 = w := Option.some.inj hw
  obtain ⟨hb, h0, h1, h2, h3, h4, h5⟩ := fields37 2483027973 0 37 5 (by decide) hw h
  refine ⟨hb, ?_⟩
  unfold decode
  rw [h0]
  show decVConv w = _
  unfold decVConv
  rw [h1]
  show (if bits w 10 3 = 0 then Except.ok (Instr.vbadd (bits w 25 21) (bits w 20 16) (bits w 15 11)) else _) = _
  rw [if_pos h2]
  rw [h3, h4, h5]

theorem tblld (x0 x1 x2 x3 x4 : Nat) : Statement (.tblld x0 x1 x2 x3 x4) := by
  intro h w hw
  replace h : x0 < 16 ∧ x1 < 2 ∧ x2 < 32 ∧ x3 < 32 ∧ x4 < 2 := of_decide_eq_true h
  replace hw : 2483027974 + x0 * 2 ^ 22 + x1 * 2 ^ 21 + x2 * 2 ^ 16 + x3 * 2 ^ 11 + x4 * 2 ^ 3 = w := Option.some.inj hw
  obtain ⟨hb, h0, h1, h2, h3, h4, h5, h6, h7⟩ := fields38 2483027974 0 37 6 (by decide) hw h
  refine ⟨hb, ?_⟩
  unfold decode
  rw [h0]
  show decVConv w = _
  unfold decVConv
  rw [h1]
  show (if bits w 10 4 = 0 then Except.ok (Instr.tblld (bits w 25 22) (bits w 21 21) (bits w 20 16) (bits w 15 11) (bits w 3 3)) else _) = _
  rw [if_pos h2]
  rw [h3, h4, h5, h6, h7]

theorem vrcp (x0 x1 x2 : Nat) : Statement (.vrcp x0 x1 x2) := by
  intro h w hw
  replace h : x0 < 32 ∧ x1 < 32 ∧ x2 < 8 := of_decide_eq_true h
  replace hw : 2550136832 + x0 * 2 ^ 21 + x1 * 2 ^ 16 + x2 * 2 ^ 8 = w := Option.some.inj hw
  obtain ⟨hb, h0, h1, h2, h3, h4, h5⟩ := fields25 2550136832 0 38 0 (by decide) hw h
  refine ⟨hb, ?_⟩
  unfold decode
  rw [h0]
  show decVSpec w = _
  unfold decVSpec
  rw [h1]
  show (if bits w 15 11 = 0 then Except.ok (Instr.vrcp (bits w 25 21) (bits w 20 16) (bits w 10 8)) else _) = _
  rw [if_pos h2]
  rw [h3, h4, h5]

theorem vrsq (x0 x1 x2 : Nat) : Statement (.vrsq x0 x1 x2) := by
  intro h w hw
  replace h : x0 < 32 ∧ x1 < 32 ∧ x2 < 8 := of_decide_eq_true h
  replace hw : 2550136833 + x0 * 2 ^ 21 + x1 * 2 ^ 16 + x2 * 2 ^ 8 = w := Option.some.inj hw
  obtain ⟨hb, h0, h1, h2, h3, h4, h5⟩ := fields25 2550136833 1 38 0 (by decide) hw h
  refine ⟨hb, ?_⟩
  unfold decode
  rw [h0]
  show decVSpec w = _
  unfold decVSpec
  rw [h1]
  show (if bits w 15 11 = 0 then Except.ok (Instr.vrsq (bits w 25 21) (bits w 20 16) (bits w 10 8)) else _) = _
  rw [if_pos h2]
  rw [h3, h4, h5]

theorem vexp2 (x0 x1 x2 : Nat) : Statement (.vexp2 x0 x1 x2) := by
  intro h w hw
  replace h : x0 < 32 ∧ x1 < 32 ∧ x2 < 8 := of_decide_eq_true h
  replace hw : 2550136834 + x0 * 2 ^ 21 + x1 * 2 ^ 16 + x2 * 2 ^ 8 = w := Option.some.inj hw
  obtain ⟨hb, h0, h1, h2, h3, h4, h5⟩ := fields25 2550136834 2 38 0 (by decide) hw h
  refine ⟨hb, ?_⟩
  unfold decode
  rw [h0]
  show decVSpec w = _
  unfold decVSpec
  rw [h1]
  show (if bits w 15 11 = 0 then Except.ok (Instr.vexp2 (bits w 25 21) (bits w 20 16) (bits w 10 8)) else _) = _
  rw [if_pos h2]
  rw [h3, h4, h5]

theorem vlog2 (x0 x1 x2 : Nat) : Statement (.vlog2 x0 x1 x2) := by
  intro h w hw
  replace h : x0 < 32 ∧ x1 < 32 ∧ x2 < 8 := of_decide_eq_true h
  replace hw : 2550136835 + x0 * 2 ^ 21 + x1 * 2 ^ 16 + x2 * 2 ^ 8 = w := Option.some.inj hw
  obtain ⟨hb, h0, h1, h2, h3, h4, h5⟩ := fields25 2550136835 3 38 0 (by decide) hw h
  refine ⟨hb, ?_⟩
  unfold decode
  rw [h0]
  show decVSpec w = _
  unfold decVSpec
  rw [h1]
  show (if bits w 15 11 = 0 then Except.ok (Instr.vlog2 (bits w 25 21) (bits w 20 16) (bits w 10 8)) else _) = _
  rw [if_pos h2]
  rw [h3, h4, h5]

theorem vsqrt (x0 x1 x2 : Nat) : Statement (.vsqrt x0 x1 x2) := by
  intro h w hw
  replace h : x0 < 32 ∧ x1 < 32 ∧ x2 < 8 := of_decide_eq_true h
  replace hw : 2550136836 + x0 * 2 ^ 21 + x1 * 2 ^ 16 + x2 * 2 ^ 8 = w := Option.some.inj hw
  obtain ⟨hb, h0, h1, h2, h3, h4, h5⟩ := fields25 2550136836 4 38 0 (by decide) hw h
  refine ⟨hb, ?_⟩
  unfold decode
  rw [h0]
  show decVSpec w = _
  unfold decVSpec
  rw [h1]
  show (if bits w 15 11 = 0 then Except.ok (Instr.vsqrt (bits w 25 21) (bits w 20 16) (bits w 10 8)) else _) = _
  rw [if_pos h2]
  rw [h3, h4, h5]

theorem vdiv (x0 x1 x2 x3 : Nat) : Statement (.vdiv x0 x1 x2 x3) := by
  intro h w hw
  replace h : x0 < 32 ∧ x1 < 32 ∧ x2 < 32 ∧ x3 < 8 := of_decide_eq_true h
  replace hw : 2550136837 + x0 * 2 ^ 21 + x1 * 2 ^ 16 + x2 * 2 ^ 11 + x3 * 2 ^ 8 = w := Option.some.inj hw
  obtain ⟨hb, h0, h1, h2, h3, h4, h5⟩ := fields24 2550136837 5 38 (by decide) hw h
  refine ⟨hb, ?_⟩
  unfold decode
  rw [h0]
  show decVSpec w = _
  unfold decVSpec
  rw [h1]
  show Except.ok (Instr.vdiv (bits w 25 21) (bits w 20 16) (bits w 15 11) (bits w 10 8)) = _
  rw [h2, h3, h4, h5]

theorem kand (x0 x1 x2 : Nat) : Statement (.kand x0 x1 x2) := by
  intro h w hw
  replace h : x0 < 8 ∧ x1 < 8 ∧ x2 < 8 := of_decide_eq_true h
  replace hw : 2617245696 + x0 * 2 ^ 21 + x1 * 2 ^ 16 + x2 * 2 ^ 11 = w := Option.some.inj hw
  obtain ⟨hb, h0, h1, h2, h3, h4, h5, h6, h7, h8⟩ := fields39 2617245696 0 39 0 0 0 0 (by decide) hw h
  refine ⟨hb, ?_⟩
  unfold decode
  rw [h0]
  show decKOps w = _
  unfold decKOps
  rw [h1]
  show (if bits w 25 24 = 0 ∧ bits w 20 19 = 0 ∧ bits w 15 14 = 0 ∧ bits w 10 3 = 0 then Except.ok (Instr.kand (bits w 23 21) (bits w 18 16) (bits w 13 11)) else _) = _
  rw [if_pos ⟨h2, h3, h4, h5⟩]
  rw [h6, h7, h8]

theorem kor (x0 x1 x2 : Nat) : Statement (.kor x0 x1 x2) := by
  intro h w hw
  replace h : x0 < 8 ∧ x1 < 8 ∧ x2 < 8 := of_decide_eq_true h
  replace hw : 2617245697 + x0 * 2 ^ 21 + x1 * 2 ^ 16 + x2 * 2 ^ 11 = w := Option.some.inj hw
  obtain ⟨hb, h0, h1, h2, h3, h4, h5, h6, h7, h8⟩ := fields39 2617245697 0 39 1 0 0 0 (by decide) hw h
  refine ⟨hb, ?_⟩
  unfold decode
  rw [h0]
  show decKOps w = _
  unfold decKOps
  rw [h1]
  show (if bits w 25 24 = 0 ∧ bits w 20 19 = 0 ∧ bits w 15 14 = 0 ∧ bits w 10 3 = 0 then Except.ok (Instr.kor (bits w 23 21) (bits w 18 16) (bits w 13 11)) else _) = _
  rw [if_pos ⟨h2, h3, h4, h5⟩]
  rw [h6, h7, h8]

theorem kxor (x0 x1 x2 : Nat) : Statement (.kxor x0 x1 x2) := by
  intro h w hw
  replace h : x0 < 8 ∧ x1 < 8 ∧ x2 < 8 := of_decide_eq_true h
  replace hw : 2617245698 + x0 * 2 ^ 21 + x1 * 2 ^ 16 + x2 * 2 ^ 11 = w := Option.some.inj hw
  obtain ⟨hb, h0, h1, h2, h3, h4, h5, h6, h7, h8⟩ := fields39 2617245698 0 39 2 0 0 0 (by decide) hw h
  refine ⟨hb, ?_⟩
  unfold decode
  rw [h0]
  show decKOps w = _
  unfold decKOps
  rw [h1]
  show (if bits w 25 24 = 0 ∧ bits w 20 19 = 0 ∧ bits w 15 14 = 0 ∧ bits w 10 3 = 0 then Except.ok (Instr.kxor (bits w 23 21) (bits w 18 16) (bits w 13 11)) else _) = _
  rw [if_pos ⟨h2, h3, h4, h5⟩]
  rw [h6, h7, h8]

theorem knot (x0 x1 : Nat) : Statement (.knot x0 x1) := by
  intro h w hw
  replace h : x0 < 8 ∧ x1 < 8 := of_decide_eq_true h
  replace hw : 2617245699 + x0 * 2 ^ 21 + x1 * 2 ^ 16 = w := Option.some.inj hw
  obtain ⟨hb, h0, h1, h2, h3, h4, h5, h6⟩ := fields40 2617245699 0 39 3 0 0 (by decide) hw h
  refine ⟨hb, ?_⟩
  unfold decode
  rw [h0]
  show decKOps w = _
  unfold decKOps
  rw [h1]
  show (if bits w 25 24 = 0 ∧ bits w 20 19 = 0 ∧ bits w 15 3 = 0 then Except.ok (Instr.knot (bits w 23 21) (bits w 18 16)) else _) = _
  rw [if_pos ⟨h2, h3, h4⟩]
  rw [h5, h6]

theorem kmov (x0 x1 : Nat) : Statement (.kmov x0 x1) := by
  intro h w hw
  replace h : x0 < 8 ∧ x1 < 8 := of_decide_eq_true h
  replace hw : 2617245700 + x0 * 2 ^ 21 + x1 * 2 ^ 16 = w := Option.some.inj hw
  obtain ⟨hb, h0, h1, h2, h3, h4, h5, h6⟩ := fields40 2617245700 0 39 4 0 0 (by decide) hw h
  refine ⟨hb, ?_⟩
  unfold decode
  rw [h0]
  show decKOps w = _
  unfold decKOps
  rw [h1]
  show (if bits w 25 24 = 0 ∧ bits w 20 19 = 0 ∧ bits w 15 3 = 0 then Except.ok (Instr.kmov (bits w 23 21) (bits w 18 16)) else _) = _
  rw [if_pos ⟨h2, h3, h4⟩]
  rw [h5, h6]

theorem kpopc (x0 x1 x2 x3 : Nat) : Statement (.kpopc x0 x1 x2 x3) := by
  intro h w hw
  replace h : x0 < 32 ∧ x1 < 8 ∧ x2 < 4 ∧ x3 < 2 := of_decide_eq_true h
  replace hw : 2617245701 + x0 * 2 ^ 21 + x1 * 2 ^ 16 + x2 * 2 ^ 6 + x3 * 2 ^ 3 = w := Option.some.inj hw
  obtain ⟨hb, h0, h1, h2, h3, h4, h5, h6, h7, h8⟩ := fields41 2617245701 0 39 5 0 0 (by decide) hw h
  refine ⟨hb, ?_⟩
  unfold decode
  rw [h0]
  show decKOps w = _
  unfold decKOps
  rw [h1]
  show (if bits w 20 19 = 0 ∧ bits w 15 8 = 0 ∧ bits w 5 4 = 0 then Except.ok (Instr.kpopc (bits w 25 21) (bits w 18 16) (bits w 7 6) (bits w 3 3)) else _) = _
  rw [if_pos ⟨h2, h3, h4⟩]
  rw [h5, h6, h7, h8]

theorem kfirst (x0 x1 x2 x3 : Nat) : Statement (.kfirst x0 x1 x2 x3) := by
  intro h w hw
  replace h : x0 < 32 ∧ x1 < 8 ∧ x2 < 4 ∧ x3 < 2 := of_decide_eq_true h
  replace hw : 2617245702 + x0 * 2 ^ 21 + x1 * 2 ^ 16 + x2 * 2 ^ 6 + x3 * 2 ^ 3 = w := Option.some.inj hw
  obtain ⟨hb, h0, h1, h2, h3, h4, h5, h6, h7, h8⟩ := fields41 2617245702 0 39 6 0 0 (by decide) hw h
  refine ⟨hb, ?_⟩
  unfold decode
  rw [h0]
  show decKOps w = _
  unfold decKOps
  rw [h1]
  show (if bits w 20 19 = 0 ∧ bits w 15 8 = 0 ∧ bits w 5 4 = 0 then Except.ok (Instr.kfirst (bits w 25 21) (bits w 18 16) (bits w 7 6) (bits w 3 3)) else _) = _
  rw [if_pos ⟨h2, h3, h4⟩]
  rw [h5, h6, h7, h8]

theorem vld (x0 x1 x2 x3 x4 x5 : Nat) : Statement (.vld x0 x1 x2 x3 x4 x5) := by
  intro h w hw
  replace h : x0 < 32 ∧ x1 < 64 ∧ x2 < 64 ∧ x3 < 8 ∧ x4 < 4 ∧ x5 < 4 := of_decide_eq_true h
  replace hw : 2684354560 + x0 * 2 ^ 21 + x1 * 2 ^ 15 + x2 * 2 ^ 9 + x3 * 2 ^ 6 + x4 * 2 ^ 4 + x5 * 2 ^ 2 = w := Option.some.inj hw
  obtain ⟨hb, h0, h1, h2, h3, h4, h5, h6, h7⟩ := fields42 2684354560 40 0 (by decide) hw h
  refine ⟨hb, ?_⟩
  unfold decode
  rw [h0]
  show decVLoad w = _
  unfold decVLoad
  rw [h1]
  show Except.ok (Instr.vld (bits w 25 21) (bits w 20 15) (bits w 14 9) (bits w 8 6) (bits w 5 4) (bits w 3 2)) = _
  rw [h2, h3, h4, h5, h6, h7]

theorem vlds (x0 x1 x2 x3 x4 x5 : Nat) : Statement (.vlds x0 x1 x2 x3 x4 x5) := by
  intro h w hw
  replace h : x0 < 32 ∧ x1 < 64 ∧ x2 < 64 ∧ x3 < 8 ∧ x4 < 4 ∧ x5 < 4 := of_decide_eq_true h
  replace hw : 2684354561 + x0 * 2 ^ 21 + x1 * 2 ^ 15 + x2 * 2 ^ 9 + x3 * 2 ^ 6 + x4 * 2 ^ 4 + x5 * 2 ^ 2 = w := Option.some.inj hw
  obtain ⟨hb, h0, h1, h2, h3, h4, h5, h6, h7⟩ := fields42 2684354561 40 1 (by decide) hw h
  refine ⟨hb, ?_⟩
  unfold decode
  rw [h0]
  show decVLoad w = _
  unfold decVLoad
  rw [h1]
  show Except.ok (Instr.vlds (bits w 25 21) (bits w 20 15) (bits w 14 9) (bits w 8 6) (bits w 5 4) (bits w 3 2)) = _
  rw [h2, h3, h4, h5, h6, h7]

theorem vldx (x0 x1 x2 x3 x4 x5 : Nat) : Statement (.vldx x0 x1 x2 x3 x4 x5) := by
  intro h w hw
  replace h : x0 < 32 ∧ x1 < 64 ∧ x2 < 32 ∧ x3 < 8 ∧ x4 < 4 ∧ x5 < 4 := of_decide_eq_true h
  replace hw : 2684354562 + x0 * 2 ^ 21 + x1 * 2 ^ 15 + x2 * 2 ^ 9 + x3 * 2 ^ 6 + x4 * 2 ^ 4 + x5 * 2 ^ 2 = w := Option.some.inj hw
  obtain ⟨hb, h0, h1, h2, h3, h4, h5, h6, h7, h8⟩ := fields43 2684354562 40 2 0 (by decide) hw h
  refine ⟨hb, ?_⟩
  unfold decode
  rw [h0]
  show decVLoad w = _
  unfold decVLoad
  rw [h1]
  show (if bits w 14 14 = 0 then Except.ok (Instr.vldx (bits w 25 21) (bits w 20 15) (bits w 13 9) (bits w 8 6) (bits w 5 4) (bits w 3 2)) else _) = _
  rw [if_pos h2]
  rw [h3, h4, h5, h6, h7, h8]

theorem vldb (x0 x1 x2 x3 x4 x5 : Nat) : Statement (.vldb x0 x1 x2 x3 x4 x5) := by
  intro h w hw
  replace h : x0 < 32 ∧ x1 < 64 ∧ x2 < 64 ∧ x3 < 8 ∧ x4 < 4 ∧ x5 < 4 := of_decide_eq_true h
  replace hw : 2684354563 + x0 * 2 ^ 21 + x1 * 2 ^ 15 + x2 * 2 ^ 9 + x3 * 2 ^ 6 + x4 * 2 ^ 4 + x5 * 2 ^ 2 = w := Option.some.inj hw
  obtain ⟨hb, h0, h1, h2, h3, h4, h5, h6, h7⟩ := fields42 2684354563 40 3 (by decide) hw h
  refine ⟨hb, ?_⟩
  unfold decode
  rw [h0]
  show decVLoad w = _
  unfold decVLoad
  rw [h1]
  show Except.ok (Instr.vldb (bits w 25 21) (bits w 20 15) (bits w 14 9) (bits w 8 6) (bits w 5 4) (bits w 3 2)) = _
  rw [h2, h3, h4, h5, h6, h7]

theorem vst (x0 x1 x2 x3 x4 x5 : Nat) : Statement (.vst x0 x1 x2 x3 x4 x5) := by
  intro h w hw
  replace h : x0 < 32 ∧ x1 < 64 ∧ x2 < 64 ∧ x3 < 8 ∧ x4 < 4 ∧ x5 < 4 := of_decide_eq_true h
  replace hw : 2751463424 + x0 * 2 ^ 21 + x1 * 2 ^ 15 + x2 * 2 ^ 9 + x3 * 2 ^ 6 + x4 * 2 ^ 4 + x5 * 2 ^ 2 = w := Option.some.inj hw
  obtain ⟨hb, h0, h1, h2, h3, h4, h5, h6, h7⟩ := fields42 2751463424 41 0 (by decide) hw h
  refine ⟨hb, ?_⟩
  unfold decode
  rw [h0]
  show decVStore w = _
  unfold decVStore
  rw [h1]
  show Except.ok (Instr.vst (bits w 25 21) (bits w 20 15) (bits w 14 9) (bits w 8 6) (bits w 5 4) (bits w 3 2)) = _
  rw [h2, h3, h4, h5, h6, h7]

theorem vsts (x0 x1 x2 x3 x4 x5 : Nat) : Statement (.vsts x0 x1 x2 x3 x4 x5) := by
  intro h w hw
  replace h : x0 < 32 ∧ x1 < 64 ∧ x2 < 64 ∧ x3 < 8 ∧ x4 < 4 ∧ x5 < 4 := of_decide_eq_true h
  replace hw : 2751463425 + x0 * 2 ^ 21 + x1 * 2 ^ 15 + x2 * 2 ^ 9 + x3 * 2 ^ 6 + x4 * 2 ^ 4 + x5 * 2 ^ 2 = w := Option.some.inj hw
  obtain ⟨hb, h0, h1, h2, h3, h4, h5, h6, h7⟩ := fields42 2751463425 41 1 (by decide) hw h
  refine ⟨hb, ?_⟩
  unfold decode
  rw [h0]
  show decVStore w = _
  unfold decVStore
  rw [h1]
  show Except.ok (Instr.vsts (bits w 25 21) (bits w 20 15) (bits w 14 9) (bits w 8 6) (bits w 5 4) (bits w 3 2)) = _
  rw [h2, h3, h4, h5, h6, h7]

theorem vstx (x0 x1 x2 x3 x4 x5 : Nat) : Statement (.vstx x0 x1 x2 x3 x4 x5) := by
  intro h w hw
  replace h : x0 < 32 ∧ x1 < 64 ∧ x2 < 32 ∧ x3 < 8 ∧ x4 < 4 ∧ x5 < 4 := of_decide_eq_true h
  replace hw : 2751463426 + x0 * 2 ^ 21 + x1 * 2 ^ 15 + x2 * 2 ^ 9 + x3 * 2 ^ 6 + x4 * 2 ^ 4 + x5 * 2 ^ 2 = w := Option.some.inj hw
  obtain ⟨hb, h0, h1, h2, h3, h4, h5, h6, h7, h8⟩ := fields43 2751463426 41 2 0 (by decide) hw h
  refine ⟨hb, ?_⟩
  unfold decode
  rw [h0]
  show decVStore w = _
  unfold decVStore
  rw [h1]
  show (if bits w 14 14 = 0 then Except.ok (Instr.vstx (bits w 25 21) (bits w 20 15) (bits w 13 9) (bits w 8 6) (bits w 5 4) (bits w 3 2)) else _) = _
  rw [if_pos h2]
  rw [h3, h4, h5, h6, h7, h8]

theorem mlease (x0 : Nat) : Statement (.mlease x0) := by
  intro h w hw
  replace h : x0 < 32 := of_decide_eq_true h
  replace hw : 3254779904 + x0 * 2 ^ 20 = w := Option.some.inj hw
  obtain ⟨hb, h0, h1, h2, h3, h4⟩ := fields44 3254779904 0 0 48 1 (by decide) hw h
  refine ⟨hb, ?_⟩
  unfold decode
  rw [h0]
  show decMxe w = _
  unfold decMxe
  rw [h1]
  show (if bits w 25 25 = 1 ∧ bits w 19 8 = 0 then Except.ok (Instr.mlease (bits w 24 20)) else _) = _
  rw [if_pos ⟨h2, h3⟩]
  rw [h4]

theorem mfree : Statement (.mfree) := by
  intro h w hw
  replace hw : 3221225473 = w := Option.some.inj hw
  obtain ⟨hb, h0, h1, h2⟩ := fields0 3221225473 0 1 48 (by decide) hw
  refine ⟨hb, ?_⟩
  unfold decode
  rw [h0]
  show decMxe w = _
  unfold decMxe
  rw [h1]
  show (if bits w 25 8 = 0 then Except.ok (Instr.mfree) else _) = _
  rw [if_pos h2]

theorem mring (x0 x1 : Nat) : Statement (.mring x0 x1) := by
  intro h w hw
  replace h : x0 < 64 ∧ x1 < 16 := of_decide_eq_true h
  replace hw : 3221225474 + x0 * 2 ^ 14 + x1 * 2 ^ 8 = w := Option.some.inj hw
  obtain ⟨hb, h0, h1, h2, h3, h4, h5⟩ := fields45 3221225474 2 48 0 0 (by decide) hw h
  refine ⟨hb, ?_⟩
  unfold decode
  rw [h0]
  show decMxe w = _
  unfold decMxe
  rw [h1]
  show (if bits w 25 20 = 0 ∧ bits w 13 12 = 0 then Except.ok (Instr.mring (bits w 19 14) (bits w 11 8)) else _) = _
  rw [if_pos ⟨h2, h3⟩]
  rw [h4, h5]

theorem mrpub (x0 x1 x2 : Nat) : Statement (.mrpub x0 x1 x2) := by
  intro h w hw
  replace h : x0 < 64 ∧ x1 < 64 ∧ x2 < 16 := of_decide_eq_true h
  replace hw : 3221225475 + x0 * 2 ^ 20 + x1 * 2 ^ 14 + x2 * 2 ^ 8 = w := Option.some.inj hw
  obtain ⟨hb, h0, h1, h2, h3, h4, h5⟩ := fields46 3221225475 3 48 0 (by decide) hw h
  refine ⟨hb, ?_⟩
  unfold decode
  rw [h0]
  show decMxe w = _
  unfold decMxe
  rw [h1]
  show (if bits w 13 12 = 0 then Except.ok (Instr.mrpub (bits w 25 20) (bits w 19 14) (bits w 11 8)) else _) = _
  rw [if_pos h2]
  rw [h3, h4, h5]

theorem mrpop (x0 x1 x2 : Nat) : Statement (.mrpop x0 x1 x2) := by
  intro h w hw
  replace h : x0 < 64 ∧ x1 < 64 ∧ x2 < 16 := of_decide_eq_true h
  replace hw : 3221225476 + x0 * 2 ^ 20 + x1 * 2 ^ 14 + x2 * 2 ^ 8 = w := Option.some.inj hw
  obtain ⟨hb, h0, h1, h2, h3, h4, h5⟩ := fields46 3221225476 4 48 0 (by decide) hw h
  refine ⟨hb, ?_⟩
  unfold decode
  rw [h0]
  show decMxe w = _
  unfold decMxe
  rw [h1]
  show (if bits w 13 12 = 0 then Except.ok (Instr.mrpop (bits w 25 20) (bits w 19 14) (bits w 11 8)) else _) = _
  rw [if_pos h2]
  rw [h3, h4, h5]

theorem mma (x0 x1 x2 x3 x4 : Nat) : Statement (.mma x0 x1 x2 x3 x4) := by
  intro h w hw
  replace h : x0 < 2 ∧ x1 < 32 ∧ x2 < 16 ∧ x3 < 4 ∧ x4 < 16 := of_decide_eq_true h
  replace hw : 3221225477 + x0 * 2 ^ 25 + x1 * 2 ^ 20 + x2 * 2 ^ 16 + x3 * 2 ^ 14 + x4 * 2 ^ 10 = w := Option.some.inj hw
  obtain ⟨hb, h0, h1, h2, h3, h4, h5, h6, h7⟩ := fields47 3221225477 5 48 0 (by decide) hw h
  refine ⟨hb, ?_⟩
  unfold decode
  rw [h0]
  show decMxe w = _
  unfold decMxe
  rw [h1]
  show (if bits w 9 8 = 0 then Except.ok (Instr.mma (bits w 25 25) (bits w 24 20) (bits w 19 16) (bits w 15 14) (bits w 13 10)) else _) = _
  rw [if_pos h2]
  rw [h3, h4, h5, h6, h7]

theorem mmah (x0 x1 x2 x3 x4 : Nat) : Statement (.mmah x0 x1 x2 x3 x4) := by
  intro h w hw
  replace h : x0 < 2 ∧ x1 < 32 ∧ x2 < 16 ∧ x3 < 4 ∧ x4 < 16 := of_decide_eq_true h
  replace hw : 3221225478 + x0 * 2 ^ 25 + x1 * 2 ^ 20 + x2 * 2 ^ 16 + x3 * 2 ^ 14 + x4 * 2 ^ 10 = w := Option.some.inj hw
  obtain ⟨hb, h0, h1, h2, h3, h4, h5, h6, h7⟩ := fields47 3221225478 6 48 0 (by decide) hw h
  refine ⟨hb, ?_⟩
  unfold decode
  rw [h0]
  show decMxe w = _
  unfold decMxe
  rw [h1]
  show (if bits w 9 8 = 0 then Except.ok (Instr.mmah (bits w 25 25) (bits w 24 20) (bits w 19 16) (bits w 15 14) (bits w 13 10)) else _) = _
  rw [if_pos h2]
  rw [h3, h4, h5, h6, h7]

theorem mzero (x0 x1 x2 : Nat) : Statement (.mzero x0 x1 x2) := by
  intro h w hw
  replace h : x0 < 2 ∧ x1 < 32 ∧ x2 < 4 := of_decide_eq_true h
  replace hw : 3221225479 + x0 * 2 ^ 25 + x1 * 2 ^ 20 + x2 * 2 ^ 14 = w := Option.some.inj hw
  obtain ⟨hb, h0, h1, h2, h3, h4, h5, h6⟩ := fields48 3221225479 7 48 0 0 (by decide) hw h
  refine ⟨hb, ?_⟩
  unfold decode
  rw [h0]
  show decMxe w = _
  unfold decMxe
  rw [h1]
  show (if bits w 19 16 = 0 ∧ bits w 13 8 = 0 then Except.ok (Instr.mzero (bits w 25 25) (bits w 24 20) (bits w 15 14)) else _) = _
  rw [if_pos ⟨h2, h3⟩]
  rw [h4, h5, h6]

theorem mlda (x0 x1 x2 x3 : Nat) : Statement (.mlda x0 x1 x2 x3) := by
  intro h w hw
  replace h : x0 < 2 ∧ x1 < 32 ∧ x2 < 4 ∧ x3 < 64 := of_decide_eq_true h
  replace hw : 3221225480 + x0 * 2 ^ 25 + x1 * 2 ^ 20 + x2 * 2 ^ 14 + x3 * 2 ^ 8 = w := Option.some.inj hw
  obtain ⟨hb, h0, h1, h2, h3, h4, h5, h6⟩ := fields49 3221225480 8 48 0 (by decide) hw h
  refine ⟨hb, ?_⟩
  unfold decode
  rw [h0]
  show decMxe w = _
  unfold decMxe
  rw [h1]
  show (if bits w 19 16 = 0 then Except.ok (Instr.mlda (bits w 25 25) (bits w 24 20) (bits w 15 14) (bits w 13 8)) else _) = _
  rw [if_pos h2]
  rw [h3, h4, h5, h6]

theorem msta (x0 x1 x2 x3 : Nat) : Statement (.msta x0 x1 x2 x3) := by
  intro h w hw
  replace h : x0 < 2 ∧ x1 < 32 ∧ x2 < 4 ∧ x3 < 64 := of_decide_eq_true h
  replace hw : 3221225481 + x0 * 2 ^ 25 + x1 * 2 ^ 20 + x2 * 2 ^ 14 + x3 * 2 ^ 8 = w := Option.some.inj hw
  obtain ⟨hb, h0, h1, h2, h3, h4, h5, h6⟩ := fields49 3221225481 9 48 0 (by decide) hw h
  refine ⟨hb, ?_⟩
  unfold decode
  rw [h0]
  show decMxe w = _
  unfold decMxe
  rw [h1]
  show (if bits w 19 16 = 0 then Except.ok (Instr.msta (bits w 25 25) (bits w 24 20) (bits w 15 14) (bits w 13 8)) else _) = _
  rw [if_pos h2]
  rw [h3, h4, h5, h6]

theorem mscale (x0 x1 x2 : Nat) : Statement (.mscale x0 x1 x2) := by
  intro h w hw
  replace h : x0 < 2 ∧ x1 < 32 ∧ x2 < 64 := of_decide_eq_true h
  replace hw : 3288334336 + x0 * 2 ^ 25 + x1 * 2 ^ 20 + x2 * 2 ^ 14 = w := Option.some.inj hw
  obtain ⟨hb, h0, h1, h2, h3, h4, h5⟩ := fields50 3288334336 0 49 0 (by decide) hw h
  refine ⟨hb, ?_⟩
  unfold decode
  rw [h0]
  show decSlice w = _
  unfold decSlice
  rw [h1]
  show (if bits w 13 8 = 0 then Except.ok (Instr.mscale (bits w 25 25) (bits w 24 20) (bits w 19 14)) else _) = _
  rw [if_pos h2]
  rw [h3, h4, h5]

theorem msplit (x0 x1 x2 x3 : Nat) : Statement (.msplit x0 x1 x2 x3) := by
  intro h w hw
  replace h : x0 < 2 ∧ x1 < 32 ∧ x2 < 64 ∧ x3 < 64 := of_decide_eq_true h
  replace hw : 3288334337 + x0 * 2 ^ 25 + x1 * 2 ^ 20 + x2 * 2 ^ 14 + x3 * 2 ^ 8 = w := Option.some.inj hw
  obtain ⟨hb, h0, h1, h2, h3, h4, h5⟩ := fields51 3288334337 1 49 (by decide) hw h
  refine ⟨hb, ?_⟩
  unfold decode
  rw [h0]
  show decSlice w = _
  unfold decSlice
  rw [h1]
  show Except.ok (Instr.msplit (bits w 25 25) (bits w 24 20) (bits w 19 14) (bits w 13 8)) = _
  rw [h2, h3, h4, h5]

theorem msmm (x0 x1 x2 x3 : Nat) : Statement (.msmm x0 x1 x2 x3) := by
  intro h w hw
  replace h : x0 < 2 ∧ x1 < 32 ∧ x2 < 64 ∧ x3 < 64 := of_decide_eq_true h
  replace hw : 3288334338 + x0 * 2 ^ 25 + x1 * 2 ^ 20 + x2 * 2 ^ 14 + x3 * 2 ^ 8 = w := Option.some.inj hw
  obtain ⟨hb, h0, h1, h2, h3, h4, h5⟩ := fields51 3288334338 2 49 (by decide) hw h
  refine ⟨hb, ?_⟩
  unfold decode
  rw [h0]
  show decSlice w = _
  unfold decSlice
  rw [h1]
  show Except.ok (Instr.msmm (bits w 25 25) (bits w 24 20) (bits w 19 14) (bits w 13 8)) = _
  rw [h2, h3, h4, h5]

theorem msfin (x0 x1 x2 x3 : Nat) : Statement (.msfin x0 x1 x2 x3) := by
  intro h w hw
  replace h : x0 < 2 ∧ x1 < 32 ∧ x2 < 64 ∧ x3 < 64 := of_decide_eq_true h
  replace hw : 3288334339 + x0 * 2 ^ 25 + x1 * 2 ^ 20 + x2 * 2 ^ 14 + x3 * 2 ^ 8 = w := Option.some.inj hw
  obtain ⟨hb, h0, h1, h2, h3, h4, h5⟩ := fields51 3288334339 3 49 (by decide) hw h
  refine ⟨hb, ?_⟩
  unfold decode
  rw [h0]
  show decSlice w = _
  unfold decSlice
  rw [h1]
  show Except.ok (Instr.msfin (bits w 25 25) (bits w 24 20) (bits w 19 14) (bits w 13 8)) = _
  rw [h2, h3, h4, h5]

theorem sbind (x0 x1 x2 x3 : Nat) : Statement (.sbind x0 x1 x2 x3) := by
  intro h w hw
  replace h : x0 < 2 ∧ x1 < 32 ∧ x2 < 64 ∧ x3 < 8 := of_decide_eq_true h
  replace hw : 3355443200 + x0 * 2 ^ 25 + x1 * 2 ^ 20 + x2 * 2 ^ 14 + x3 * 2 ^ 11 = w := Option.some.inj hw
  obtain ⟨hb, h0, h1, h2, h3, h4, h5, h6⟩ := fields52 3355443200 0 50 0 (by decide) hw h
  refine ⟨hb, ?_⟩
  unfold decode
  rw [h0]
  show decStream w = _
  unfold decStream
  rw [h1]
  show (if bits w 10 8 = 0 then Except.ok (Instr.sbind (bits w 25 25) (bits w 24 20) (bits w 19 14) (bits w 13 11)) else _) = _
  rw [if_pos h2]
  rw [h3, h4, h5, h6]

theorem sfree (x0 : Nat) : Statement (.sfree x0) := by
  intro h w hw
  replace h : x0 < 8 := of_decide_eq_true h
  replace hw : 3355443201 + x0 * 2 ^ 11 = w := Option.some.inj hw
  obtain ⟨hb, h0, h1, h2, h3, h4⟩ := fields53 3355443201 0 1 50 0 (by decide) hw h
  refine ⟨hb, ?_⟩
  unfold decode
  rw [h0]
  show decStream w = _
  unfold decStream
  rw [h1]
  show (if bits w 25 14 = 0 ∧ bits w 10 8 = 0 then Except.ok (Instr.sfree (bits w 13 11)) else _) = _
  rw [if_pos ⟨h2, h3⟩]
  rw [h4]

theorem sstat (x0 x1 : Nat) : Statement (.sstat x0 x1) := by
  intro h w hw
  replace h : x0 < 64 ∧ x1 < 8 := of_decide_eq_true h
  replace hw : 3355443202 + x0 * 2 ^ 20 + x1 * 2 ^ 11 = w := Option.some.inj hw
  obtain ⟨hb, h0, h1, h2, h3, h4, h5⟩ := fields54 3355443202 2 50 0 0 (by decide) hw h
  refine ⟨hb, ?_⟩
  unfold decode
  rw [h0]
  show decStream w = _
  unfold decStream
  rw [h1]
  show (if bits w 19 14 = 0 ∧ bits w 10 8 = 0 then Except.ok (Instr.sstat (bits w 25 20) (bits w 13 11)) else _) = _
  rw [if_pos ⟨h2, h3⟩]
  rw [h4, h5]

theorem srd (x0 x1 : Nat) : Statement (.srd x0 x1) := by
  intro h w hw
  replace h : x0 < 32 ∧ x1 < 8 := of_decide_eq_true h
  replace hw : 3355443203 + x0 * 2 ^ 20 + x1 * 2 ^ 11 = w := Option.some.inj hw
  obtain ⟨hb, h0, h1, h2, h3, h4, h5, h6⟩ := fields55 3355443203 3 50 0 0 0 (by decide) hw h
  refine ⟨hb, ?_⟩
  unfold decode
  rw [h0]
  show decStream w = _
  unfold decStream
  rw [h1]
  show (if bits w 25 25 = 0 ∧ bits w 19 14 = 0 ∧ bits w 10 8 = 0 then Except.ok (Instr.srd (bits w 24 20) (bits w 13 11)) else _) = _
  rw [if_pos ⟨h2, h3, h4⟩]
  rw [h5, h6]

theorem swr (x0 x1 : Nat) : Statement (.swr x0 x1) := by
  intro h w hw
  replace h : x0 < 32 ∧ x1 < 8 := of_decide_eq_true h
  replace hw : 3355443204 + x0 * 2 ^ 14 + x1 * 2 ^ 11 = w := Option.some.inj hw
  obtain ⟨hb, h0, h1, h2, h3, h4, h5⟩ := fields56 3355443204 4 0 50 0 (by decide) hw h
  refine ⟨hb, ?_⟩
  unfold decode
  rw [h0]
  show decStream w = _
  unfold decStream
  rw [h1]
  show (if bits w 25 19 = 0 ∧ bits w 10 8 = 0 then Except.ok (Instr.swr (bits w 18 14) (bits w 13 11)) else _) = _
  rw [if_pos ⟨h2, h3⟩]
  rw [h4, h5]

theorem cpy (x0 x1 x2 x3 : Nat) : Statement (.cpy x0 x1 x2 x3) := by
  intro h w hw
  replace h : x0 < 2 ∧ x1 < 32 ∧ x2 < 64 ∧ x3 < 4 := of_decide_eq_true h
  replace hw : 3422552064 + x0 * 2 ^ 25 + x1 * 2 ^ 20 + x2 * 2 ^ 14 + x3 * 2 ^ 8 = w := Option.some.inj hw
  obtain ⟨hb, h0, h1, h2, h3, h4, h5, h6⟩ := fields57 3422552064 0 51 0 (by decide) hw h
  refine ⟨hb, ?_⟩
  unfold decode
  rw [h0]
  show decCopy w = _
  unfold decCopy
  rw [h1]
  show (if bits w 13 10 = 0 then Except.ok (Instr.cpy (bits w 25 25) (bits w 24 20) (bits w 19 14) (bits w 9 8)) else _) = _
  rw [if_pos h2]
  rw [h3, h4, h5, h6]

theorem cpys (x0 x1 x2 x3 : Nat) : Statement (.cpys x0 x1 x2 x3) := by
  intro h w hw
  replace h : x0 < 2 ∧ x1 < 32 ∧ x2 < 64 ∧ x3 < 4 := of_decide_eq_true h
  replace hw : 3422552065 + x0 * 2 ^ 25 + x1 * 2 ^ 20 + x2 * 2 ^ 14 + x3 * 2 ^ 8 = w := Option.some.inj hw
  obtain ⟨hb, h0, h1, h2, h3, h4, h5, h6⟩ := fields57 3422552065 1 51 0 (by decide) hw h
  refine ⟨hb, ?_⟩
  unfold decode
  rw [h0]
  show decCopy w = _
  unfold decCopy
  rw [h1]
  show (if bits w 13 10 = 0 then Except.ok (Instr.cpys (bits w 25 25) (bits w 24 20) (bits w 19 14) (bits w 9 8)) else _) = _
  rw [if_pos h2]
  rw [h3, h4, h5, h6]

theorem cpyg (x0 x1 x2 x3 : Nat) : Statement (.cpyg x0 x1 x2 x3) := by
  intro h w hw
  replace h : x0 < 2 ∧ x1 < 32 ∧ x2 < 64 ∧ x3 < 4 := of_decide_eq_true h
  replace hw : 3422552066 + x0 * 2 ^ 25 + x1 * 2 ^ 20 + x2 * 2 ^ 14 + x3 * 2 ^ 8 = w := Option.some.inj hw
  obtain ⟨hb, h0, h1, h2, h3, h4, h5, h6⟩ := fields57 3422552066 2 51 0 (by decide) hw h
  refine ⟨hb, ?_⟩
  unfold decode
  rw [h0]
  show decCopy w = _
  unfold decCopy
  rw [h1]
  show (if bits w 13 10 = 0 then Except.ok (Instr.cpyg (bits w 25 25) (bits w 24 20) (bits w 19 14) (bits w 9 8)) else _) = _
  rw [if_pos h2]
  rw [h3, h4, h5, h6]

theorem cpym (x0 x1 x2 x3 : Nat) : Statement (.cpym x0 x1 x2 x3) := by
  intro h w hw
  replace h : x0 < 2 ∧ x1 < 32 ∧ x2 < 64 ∧ x3 < 4 := of_decide_eq_true h
  replace hw : 3422552067 + x0 * 2 ^ 25 + x1 * 2 ^ 20 + x2 * 2 ^ 14 + x3 * 2 ^ 8 = w := Option.some.inj hw
  obtain ⟨hb, h0, h1, h2, h3, h4, h5, h6⟩ := fields57 3422552067 3 51 0 (by decide) hw h
  refine ⟨hb, ?_⟩
  unfold decode
  rw [h0]
  show decCopy w = _
  unfold decCopy
  rw [h1]
  show (if bits w 13 10 = 0 then Except.ok (Instr.cpym (bits w 25 25) (bits w 24 20) (bits w 19 14) (bits w 9 8)) else _) = _
  rw [if_pos h2]
  rw [h3, h4, h5, h6]

theorem evnew (x0 x1 : Nat) : Statement (.evnew x0 x1) := by
  intro h w hw
  replace h : x0 < 64 ∧ x1 < 64 := of_decide_eq_true h
  replace hw : 3489660928 + x0 * 2 ^ 20 + x1 * 2 ^ 14 = w := Option.some.inj hw
  obtain ⟨hb, h0, h1, h2, h3, h4⟩ := fields5 3489660928 0 52 0 (by decide) hw h
  refine ⟨hb, ?_⟩
  unfold decode
  rw [h0]
  show decEvent w = _
  unfold decEvent
  rw [h1]
  show (if bits w 13 8 = 0 then Except.ok (Instr.evnew (bits w 25 20) (bits w 19 14)) else _) = _
  rw [if_pos h2]
  rw [h3, h4]

theorem evfree (x0 : Nat) : Statement (.evfree x0) := by
  intro h w hw
  replace h : x0 < 64 := of_decide_eq_true h
  replace hw : 3489660929 + x0 * 2 ^ 14 = w := Option.some.inj hw
  obtain ⟨hb, h0, h1, h2, h3, h4⟩ := fields4 3489660929 1 52 0 0 (by decide) hw h
  refine ⟨hb, ?_⟩
  unfold decode
  rw [h0]
  show decEvent w = _
  unfold decEvent
  rw [h1]
  show (if bits w 25 20 = 0 ∧ bits w 13 8 = 0 then Except.ok (Instr.evfree (bits w 19 14)) else _) = _
  rw [if_pos ⟨h2, h3⟩]
  rw [h4]

theorem evbind (x0 x1 : Nat) : Statement (.evbind x0 x1) := by
  intro h w hw
  replace h : x0 < 32 ∧ x1 < 64 := of_decide_eq_true h
  replace hw : 3489660930 + x0 * 2 ^ 20 + x1 * 2 ^ 14 = w := Option.some.inj hw
  obtain ⟨hb, h0, h1, h2, h3, h4, h5⟩ := fields58 3489660930 2 52 0 0 (by decide) hw h
  refine ⟨hb, ?_⟩
  unfold decode
  rw [h0]
  show decEvent w = _
  unfold decEvent
  rw [h1]
  show (if bits w 25 25 = 0 ∧ bits w 13 8 = 0 then Except.ok (Instr.evbind (bits w 24 20) (bits w 19 14)) else _) = _
  rw [if_pos ⟨h2, h3⟩]
  rw [h4, h5]

theorem evdrop (x0 : Nat) : Statement (.evdrop x0) := by
  intro h w hw
  replace h : x0 < 32 := of_decide_eq_true h
  replace hw : 3489660931 + x0 * 2 ^ 20 = w := Option.some.inj hw
  obtain ⟨hb, h0, h1, h2, h3, h4⟩ := fields44 3489660931 0 3 52 0 (by decide) hw h
  refine ⟨hb, ?_⟩
  unfold decode
  rw [h0]
  show decEvent w = _
  unfold decEvent
  rw [h1]
  show (if bits w 25 25 = 0 ∧ bits w 19 8 = 0 then Except.ok (Instr.evdrop (bits w 24 20)) else _) = _
  rw [if_pos ⟨h2, h3⟩]
  rw [h4]

theorem evbreak (x0 : Nat) : Statement (.evbreak x0) := by
  intro h w hw
  replace h : x0 < 32 := of_decide_eq_true h
  replace hw : 3489660932 + x0 * 2 ^ 20 = w := Option.some.inj hw
  obtain ⟨hb, h0, h1, h2, h3, h4⟩ := fields44 3489660932 0 4 52 0 (by decide) hw h
  refine ⟨hb, ?_⟩
  unfold decode
  rw [h0]
  show decEvent w = _
  unfold decEvent
  rw [h1]
  show (if bits w 25 25 = 0 ∧ bits w 19 8 = 0 then Except.ok (Instr.evbreak (bits w 24 20)) else _) = _
  rw [if_pos ⟨h2, h3⟩]
  rw [h4]

theorem evstat (x0 x1 : Nat) : Statement (.evstat x0 x1) := by
  intro h w hw
  replace h : x0 < 64 ∧ x1 < 32 := of_decide_eq_true h
  replace hw : 3489660933 + x0 * 2 ^ 20 + x1 * 2 ^ 14 = w := Option.some.inj hw
  obtain ⟨hb, h0, h1, h2, h3, h4, h5⟩ := fields59 3489660933 5 52 0 0 (by decide) hw h
  refine ⟨hb, ?_⟩
  unfold decode
  rw [h0]
  show decEvent w = _
  unfold decEvent
  rw [h1]
  show (if bits w 19 19 = 0 ∧ bits w 13 8 = 0 then Except.ok (Instr.evstat (bits w 25 20) (bits w 18 14)) else _) = _
  rw [if_pos ⟨h2, h3⟩]
  rw [h4, h5]

theorem offer (x0 x1 x2 : Nat) : Statement (.offer x0 x1 x2) := by
  intro h w hw
  replace h : x0 < 64 ∧ x1 < 64 ∧ x2 < 64 := of_decide_eq_true h
  replace hw : 3556769792 + x0 * 2 ^ 20 + x1 * 2 ^ 14 + x2 * 2 ^ 8 = w := Option.some.inj hw
  obtain ⟨hb, h0, h1, h2, h3, h4⟩ := fields1 3556769792 0 53 (by decide) hw h
  refine ⟨hb, ?_⟩
  unfold decode
  rw [h0]
  show decOffer w = _
  unfold decOffer
  rw [h1]
  show Except.ok (Instr.offer (bits w 25 20) (bits w 19 14) (bits w 13 8)) = _
  rw [h2, h3, h4]

theorem offert (x0 x1 x2 : Nat) : Statement (.offert x0 x1 x2) := by
  intro h w hw
  replace h : x0 < 64 ∧ x1 < 64 ∧ x2 < 64 := of_decide_eq_true h
  replace hw : 3556769793 + x0 * 2 ^ 20 + x1 * 2 ^ 14 + x2 * 2 ^ 8 = w := Option.some.inj hw
  obtain ⟨hb, h0, h1, h2, h3, h4⟩ := fields1 3556769793 1 53 (by decide) hw h
  refine ⟨hb, ?_⟩
  unfold decode
  rw [h0]
  show decOffer w = _
  unfold decOffer
  rw [h1]
  show Except.ok (Instr.offert (bits w 25 20) (bits w 19 14) (bits w 13 8)) = _
  rw [h2, h3, h4]

theorem offers (x0 x1 x2 : Nat) : Statement (.offers x0 x1 x2) := by
  intro h w hw
  replace h : x0 < 64 ∧ x1 < 64 ∧ x2 < 64 := of_decide_eq_true h
  replace hw : 3556769794 + x0 * 2 ^ 20 + x1 * 2 ^ 14 + x2 * 2 ^ 8 = w := Option.some.inj hw
  obtain ⟨hb, h0, h1, h2, h3, h4⟩ := fields1 3556769794 2 53 (by decide) hw h
  refine ⟨hb, ?_⟩
  unfold decode
  rw [h0]
  show decOffer w = _
  unfold decOffer
  rw [h1]
  show Except.ok (Instr.offers (bits w 25 20) (bits w 19 14) (bits w 13 8)) = _
  rw [h2, h3, h4]

theorem ofcan (x0 : Nat) : Statement (.ofcan x0) := by
  intro h w hw
  replace h : x0 < 64 := of_decide_eq_true h
  replace hw : 3556769795 + x0 * 2 ^ 20 = w := Option.some.inj hw
  obtain ⟨hb, h0, h1, h2, h3⟩ := fields14 3556769795 0 3 53 (by decide) hw h
  refine ⟨hb, ?_⟩
  unfold decode
  rw [h0]
  show decOffer w = _
  unfold decOffer
  rw [h1]
  show (if bits w 19 8 = 0 then Except.ok (Instr.ofcan (bits w 25 20)) else _) = _
  rw [if_pos h2]
  rw [h3]

theorem ofcanRet : Statement (.ofcanRet) := by
  intro h w hw
  replace hw : 3556770051 = w := Option.some.inj hw
  have h0 : bits w 31 26 = 53 := by show w / 67108864 % 64 = _; omega
  have h1 : bits w 7 0 = 3 := by show w / 1 % 256 = _; omega
  have h2 : bits w 19 8 = 1 := by show w / 256 % 4096 = _; omega
  have h3 : bits w 25 20 = 0 := by show w / 1048576 % 64 = _; omega
  have h4 : bits w 25 8 = 1 := by show w / 256 % 262144 = _; omega
  have hb : w < 2 ^ 32 := by omega
  refine ⟨hb, ?_⟩
  unfold decode
  rw [h0]
  show decOffer w = _
  unfold decOffer
  rw [h1]
  simp [h2, h3, h4]

theorem get (x0 x1 : Nat) : Statement (.get x0 x1) := by
  intro h w hw
  replace h : x0 < 64 ∧ x1 < 32 := of_decide_eq_true h
  replace hw : 3556769796 + x0 * 2 ^ 20 + x1 * 2 ^ 14 = w := Option.some.inj hw
  obtain ⟨hb, h0, h1, h2, h3, h4, h5⟩ := fields59 3556769796 4 53 0 0 (by decide) hw h
  refine ⟨hb, ?_⟩
  unfold decode
  rw [h0]
  show decOffer w = _
  unfold decOffer
  rw [h1]
  show (if bits w 19 19 = 0 ∧ bits w 13 8 = 0 then Except.ok (Instr.get (bits w 25 20) (bits w 18 14)) else _) = _
  rw [if_pos ⟨h2, h3⟩]
  rw [h4, h5]

theorem put (x0 x1 : Nat) : Statement (.put x0 x1) := by
  intro h w hw
  replace h : x0 < 64 ∧ x1 < 32 := of_decide_eq_true h
  replace hw : 3556769797 + x0 * 2 ^ 20 + x1 * 2 ^ 14 = w := Option.some.inj hw
  obtain ⟨hb, h0, h1, h2, h3, h4, h5⟩ := fields59 3556769797 5 53 0 0 (by decide) hw h
  refine ⟨hb, ?_⟩
  unfold decode
  rw [h0]
  show decOffer w = _
  unfold decOffer
  rw [h1]
  show (if bits w 19 19 = 0 ∧ bits w 13 8 = 0 then Except.ok (Instr.put (bits w 25 20) (bits w 18 14)) else _) = _
  rw [if_pos ⟨h2, h3⟩]
  rw [h4, h5]

theorem sync (x0 : Nat) : Statement (.sync x0) := by
  intro h w hw
  replace h : x0 < 64 := of_decide_eq_true h
  replace hw : 3556769798 + x0 * 2 ^ 20 = w := Option.some.inj hw
  obtain ⟨hb, h0, h1, h2, h3⟩ := fields14 3556769798 0 6 53 (by decide) hw h
  refine ⟨hb, ?_⟩
  unfold decode
  rw [h0]
  show decOffer w = _
  unfold decOffer
  rw [h1]
  show (if bits w 19 8 = 0 then Except.ok (Instr.sync (bits w 25 20)) else _) = _
  rw [if_pos h2]
  rw [h3]

theorem eqp : Statement (.eqp) := by
  intro h w hw
  replace hw : 3623878656 = w := Option.some.inj hw
  obtain ⟨hb, h0, h1, h2⟩ := fields0 3623878656 0 0 54 (by decide) hw
  refine ⟨hb, ?_⟩
  unfold decode
  rw [h0]
  show decChain w = _
  unfold decChain
  rw [h1]
  show (if bits w 25 8 = 0 then Except.ok (Instr.eqp) else _) = _
  rw [if_pos h2]

theorem chfold (x0 : Nat) : Statement (.chfold x0) := by
  intro h w hw
  replace h : x0 < 64 := of_decide_eq_true h
  replace hw : 3623878657 + x0 * 2 ^ 20 = w := Option.some.inj hw
  obtain ⟨hb, h0, h1, h2, h3⟩ := fields14 3623878657 0 1 54 (by decide) hw h
  refine ⟨hb, ?_⟩
  unfold decode
  rw [h0]
  show decChain w = _
  unfold decChain
  rw [h1]
  show (if bits w 19 8 = 0 then Except.ok (Instr.chfold (bits w 25 20)) else _) = _
  rw [if_pos h2]
  rw [h3]

theorem chspread (x0 : Nat) : Statement (.chspread x0) := by
  intro h w hw
  replace h : x0 < 64 := of_decide_eq_true h
  replace hw : 3623878658 + x0 * 2 ^ 20 = w := Option.some.inj hw
  obtain ⟨hb, h0, h1, h2, h3⟩ := fields14 3623878658 0 2 54 (by decide) hw h
  refine ⟨hb, ?_⟩
  unfold decode
  rw [h0]
  show decChain w = _
  unfold decChain
  rw [h1]
  show (if bits w 19 8 = 0 then Except.ok (Instr.chspread (bits w 25 20)) else _) = _
  rw [if_pos h2]
  rw [h3]

theorem chstat (x0 : Nat) : Statement (.chstat x0) := by
  intro h w hw
  replace h : x0 < 64 := of_decide_eq_true h
  replace hw : 3623878659 + x0 * 2 ^ 20 = w := Option.some.inj hw
  obtain ⟨hb, h0, h1, h2, h3⟩ := fields14 3623878659 0 3 54 (by decide) hw h
  refine ⟨hb, ?_⟩
  unfold decode
  rw [h0]
  show decChain w = _
  unfold decChain
  rw [h1]
  show (if bits w 19 8 = 0 then Except.ok (Instr.chstat (bits w 25 20)) else _) = _
  rw [if_pos h2]
  rw [h3]

theorem ccenrol (x0 x1 x2 : Nat) : Statement (.ccenrol x0 x1 x2) := by
  intro h w hw
  replace h : x0 < 64 ∧ x1 < 64 ∧ x2 < 64 := of_decide_eq_true h
  replace hw : 3690987520 + x0 * 2 ^ 20 + x1 * 2 ^ 14 + x2 * 2 ^ 8 = w := Option.some.inj hw
  obtain ⟨hb, h0, h1, h2, h3, h4⟩ := fields1 3690987520 0 55 (by decide) hw h
  refine ⟨hb, ?_⟩
  unfold decode
  rw [h0]
  show decCct w = _
  unfold decCct
  rw [h1]
  show Except.ok (Instr.ccenrol (bits w 25 20) (bits w 19 14) (bits w 13 8)) = _
  rw [h2, h3, h4]

theorem ccdrop (x0 x1 : Nat) : Statement (.ccdrop x0 x1) := by
  intro h w hw
  replace h : x0 < 64 ∧ x1 < 64 := of_decide_eq_true h
  replace hw : 3690987521 + x0 * 2 ^ 20 + x1 * 2 ^ 14 = w := Option.some.inj hw
  obtain ⟨hb, h0, h1, h2, h3, h4⟩ := fields5 3690987521 1 55 0 (by decide) hw h
  refine ⟨hb, ?_⟩
  unfold decode
  rw [h0]
  show decCct w = _
  unfold decCct
  rw [h1]
  show (if bits w 13 8 = 0 then Except.ok (Instr.ccdrop (bits w 25 20) (bits w 19 14)) else _) = _
  rw [if_pos h2]
  rw [h3, h4]

theorem ccmove (x0 x1 x2 : Nat) : Statement (.ccmove x0 x1 x2) := by
  intro h w hw
  replace h : x0 < 64 ∧ x1 < 64 ∧ x2 < 64 := of_decide_eq_true h
  replace hw : 3690987522 + x0 * 2 ^ 20 + x1 * 2 ^ 14 + x2 * 2 ^ 8 = w := Option.some.inj hw
  obtain ⟨hb, h0, h1, h2, h3, h4⟩ := fields1 3690987522 2 55 (by decide) hw h
  refine ⟨hb, ?_⟩
  unfold decode
  rw [h0]
  show decCct w = _
  unfold decCct
  rw [h1]
  show Except.ok (Instr.ccmove (bits w 25 20) (bits w 19 14) (bits w 13 8)) = _
  rw [h2, h3, h4]

theorem ccsettle (x0 x1 x2 : Nat) : Statement (.ccsettle x0 x1 x2) := by
  intro h w hw
  replace h : x0 < 2 ∧ x1 < 32 ∧ x2 < 64 := of_decide_eq_true h
  replace hw : 3690987523 + x0 * 2 ^ 25 + x1 * 2 ^ 20 + x2 * 2 ^ 14 = w := Option.some.inj hw
  obtain ⟨hb, h0, h1, h2, h3, h4, h5⟩ := fields50 3690987523 3 55 0 (by decide) hw h
  refine ⟨hb, ?_⟩
  unfold decode
  rw [h0]
  show decCct w = _
  unfold decCct
  rw [h1]
  show (if bits w 13 8 = 0 then Except.ok (Instr.ccsettle (bits w 25 25) (bits w 24 20) (bits w 19 14)) else _) = _
  rw [if_pos h2]
  rw [h3, h4, h5]

theorem ccread (x0 x1 : Nat) : Statement (.ccread x0 x1) := by
  intro h w hw
  replace h : x0 < 64 ∧ x1 < 64 := of_decide_eq_true h
  replace hw : 3690987524 + x0 * 2 ^ 20 + x1 * 2 ^ 14 = w := Option.some.inj hw
  obtain ⟨hb, h0, h1, h2, h3, h4⟩ := fields5 3690987524 4 55 0 (by decide) hw h
  refine ⟨hb, ?_⟩
  unfold decode
  rw [h0]
  show decCct w = _
  unfold decCct
  rw [h1]
  show (if bits w 13 8 = 0 then Except.ok (Instr.ccread (bits w 25 20) (bits w 19 14)) else _) = _
  rw [if_pos h2]
  rw [h3, h4]

theorem ccreadT (x0 x1 : Nat) : Statement (.ccreadT x0 x1) := by
  intro h w hw
  replace h : x0 < 64 ∧ x1 < 64 := of_decide_eq_true h
  replace hw : 3690987780 + x0 * 2 ^ 20 + x1 * 2 ^ 14 = w := Option.some.inj hw
  obtain ⟨hb, h0, h1, h2, h3, h4⟩ := fields5 3690987780 4 55 1 (by decide) hw h
  refine ⟨hb, ?_⟩
  unfold decode
  rw [h0]
  show decCct w = _
  unfold decCct
  rw [h1]
  simp [h2, h3, h4]

theorem cccmp (x0 x1 x2 : Nat) : Statement (.cccmp x0 x1 x2) := by
  intro h w hw
  replace h : x0 < 64 ∧ x1 < 64 ∧ x2 < 64 := of_decide_eq_true h
  replace hw : 3690987525 + x0 * 2 ^ 20 + x1 * 2 ^ 14 + x2 * 2 ^ 8 = w := Option.some.inj hw
  obtain ⟨hb, h0, h1, h2, h3, h4⟩ := fields1 3690987525 5 55 (by decide) hw h
  refine ⟨hb, ?_⟩
  unfold decode
  rw [h0]
  show decCct w = _
  unfold decCct
  rw [h1]
  show Except.ok (Instr.cccmp (bits w 25 20) (bits w 19 14) (bits w 13 8)) = _
  rw [h2, h3, h4]

theorem fmtp (x0 x1 x2 x3 x4 : Nat) : Statement (.fmtp x0 x1 x2 x3 x4) := by
  intro h w hw
  replace h : x0 < 16 ∧ x1 < 16 ∧ x2 < 16 ∧ x3 < 4 ∧ x4 < 16 := of_decide_eq_true h
  replace hw : 4227858432 + x0 * 2 ^ 22 + x1 * 2 ^ 18 + x2 * 2 ^ 14 + x3 * 2 ^ 12 + x4 * 2 ^ 8 = w := Option.some.inj hw
  obtain ⟨hb, h0, h1, h2, h3, h4, h5, h6⟩ := fields60 4227858432 0 63 (by decide) hw h
  refine ⟨hb, ?_⟩
  unfold decode
  rw [h0]
  show (if bits w 7 0 = 0 then Except.ok (Instr.fmtp (bits w 25 22) (bits w 21 18) (bits w 17 14) (bits w 13 12) (bits w 11 8)) else _) = _
  rw [if_pos h1]
  rw [h2, h3, h4, h5, h6]

theorem taskRetirement (slot : Nat) : Statement (.taskRetirement slot) := fun _ _ h => nomatch h

theorem loadDataReturn (slot st data : Nat) : Statement (.loadDataReturn slot st data) := fun _ _ h => nomatch h

theorem fenceDrainEnd (slot : Nat) : Statement (.fenceDrainEnd slot) := fun _ _ h => nomatch h

theorem icinvDone (slot : Nat) : Statement (.icinvDone slot) := fun _ _ h => nomatch h

theorem heldRecordPost (die i : Nat) : Statement (.heldRecordPost die i) := fun _ _ h => nomatch h

theorem preempt (slot : Nat) : Statement (.preempt slot) := fun _ _ h => nomatch h

theorem taskDispatch (pick : Nat) : Statement (.taskDispatch pick) := fun _ _ h => nomatch h

theorem taskRedispatch (pick : Nat) : Statement (.taskRedispatch pick) := fun _ _ h => nomatch h

theorem chainSwitch (vi id : Nat) : Statement (.chainSwitch vi id) := fun _ _ h => nomatch h

theorem leaseGrantOffer (cl : Nat) : Statement (.leaseGrantOffer cl) := fun _ _ h => nomatch h

theorem leaseOfferTimeout (cl : Nat) : Statement (.leaseOfferTimeout cl) := fun _ _ h => nomatch h

theorem leaseExpiry (cl : Nat) : Statement (.leaseExpiry cl) := fun _ _ h => nomatch h

theorem mxeCommandExecute (cl : Nat) : Statement (.mxeCommandExecute cl) := fun _ _ h => nomatch h

theorem msmmPass (cl : Nat) : Statement (.msmmPass cl) := fun _ _ h => nomatch h

theorem msmmBlockReserve (cl : Nat) : Statement (.msmmBlockReserve cl) := fun _ _ h => nomatch h

theorem copyExecute (cl q n : Nat) : Statement (.copyExecute cl q n) := fun _ _ h => nomatch h

theorem ringPush (cl q : Nat) : Statement (.ringPush cl q) := fun _ _ h => nomatch h

theorem copyComplete (cl q : Nat) : Statement (.copyComplete cl q) := fun _ _ h => nomatch h

theorem streamBeat (slot r : Nat) : Statement (.streamBeat slot r) := fun _ _ h => nomatch h

theorem streamComplete (slot r : Nat) : Statement (.streamComplete slot r) := fun _ _ h => nomatch h

theorem offerRegistration (i : Nat) : Statement (.offerRegistration i) := fun _ _ h => nomatch h

theorem resolverWindow (home : Nat) : Statement (.resolverWindow home) := fun _ _ h => nomatch h

theorem claim (i : Nat) : Statement (.claim i) := fun _ _ h => nomatch h

theorem claimAnswer (i : Nat) : Statement (.claimAnswer i) := fun _ _ h => nomatch h

theorem claimRevoke (i : Nat) : Statement (.claimRevoke i) := fun _ _ h => nomatch h

theorem claimRelease (i : Nat) : Statement (.claimRelease i) := fun _ _ h => nomatch h

theorem commitNotify (i : Nat) : Statement (.commitNotify i) := fun _ _ h => nomatch h

theorem freeAnnounce (i : Nat) : Statement (.freeAnnounce i) := fun _ _ h => nomatch h

theorem offertExpiry (slot : Nat) : Statement (.offertExpiry slot) := fun _ _ h => nomatch h

theorem handlerEntry (slot : Nat) : Statement (.handlerEntry slot) := fun _ _ h => nomatch h

theorem settleComplete (slot i : Nat) : Statement (.settleComplete slot i) := fun _ _ h => nomatch h

theorem rollup (vi : Nat) : Statement (.rollup vi) := fun _ _ h => nomatch h

theorem batchSummary (slot tag : Nat) (answers : List Nat) : Statement (.batchSummary slot tag answers) := fun _ _ h => nomatch h

theorem closeRequest (vi i : Nat) : Statement (.closeRequest vi i) := fun _ _ h => nomatch h

theorem appendStatus (slot i st pos : Nat) : Statement (.appendStatus slot i st pos) := fun _ _ h => nomatch h

theorem atomicReply (slot st old flags : Nat) : Statement (.atomicReply slot st old flags) := fun _ _ h => nomatch h

theorem ingressDequeue (vi cls : Nat) : Statement (.ingressDequeue vi cls) := fun _ _ h => nomatch h

theorem remoteAppend (vi : Nat) : Statement (.remoteAppend vi) := fun _ _ h => nomatch h

theorem pubPublish (ring : Nat) : Statement (.pubPublish ring) := fun _ _ h => nomatch h

theorem arrivalRecord (ring : Nat) : Statement (.arrivalRecord ring) := fun _ _ h => nomatch h

theorem ringLaunchRecord (ring : Nat) : Statement (.ringLaunchRecord ring) := fun _ _ h => nomatch h

theorem arrivalRingRelease (ring : Nat) : Statement (.arrivalRingRelease ring) := fun _ _ h => nomatch h

theorem hostLaunch (vi : Nat) : Statement (.hostLaunch vi) := fun _ _ h => nomatch h

theorem hostCancel (vi : Nat) : Statement (.hostCancel vi) := fun _ _ h => nomatch h

theorem completionEntryPost (vi : Nat) : Statement (.completionEntryPost vi) := fun _ _ h => nomatch h

theorem launchCompletion (vi id : Nat) : Statement (.launchCompletion vi id) := fun _ _ h => nomatch h

theorem tencfgWrite (vi x : Nat) : Statement (.tencfgWrite vi x) := fun _ _ h => nomatch h

theorem registrationWrite (ring j x : Nat) : Statement (.registrationWrite ring j x) := fun _ _ h => nomatch h

theorem mscrWrite (die x : Nat) : Statement (.mscrWrite die x) := fun _ _ h => nomatch h

theorem atomflagsClear (die vi x : Nat) : Statement (.atomflagsClear die vi x) := fun _ _ h => nomatch h

theorem smdataWrite (x : Nat) : Statement (.smdataWrite x) := fun _ _ h => nomatch h

theorem smdataRead : Statement (.smdataRead) := fun _ _ h => nomatch h

theorem invalidateRange : Statement (.invalidateRange) := fun _ _ h => nomatch h

theorem invalidateSpace : Statement (.invalidateSpace) := fun _ _ h => nomatch h

theorem invalidateAll : Statement (.invalidateAll) := fun _ _ h => nomatch h

theorem invalidationAck : Statement (.invalidationAck) := fun _ _ h => nomatch h

theorem attestationReport (vi : Nat) : Statement (.attestationReport vi) := fun _ _ h => nomatch h

theorem pstateRequest (die : Nat) : Statement (.pstateRequest die) := fun _ _ h => nomatch h

theorem cstateC0 (cl : Nat) : Statement (.cstateC0 cl) := fun _ _ h => nomatch h

theorem cstateC1 (cl : Nat) : Statement (.cstateC1 cl) := fun _ _ h => nomatch h

theorem cstateC2 (cl : Nat) : Statement (.cstateC2 cl) := fun _ _ h => nomatch h

theorem dieC3 (die : Nat) : Statement (.dieC3 die) := fun _ _ h => nomatch h

theorem dieC0 (die : Nat) : Statement (.dieC0 die) := fun _ _ h => nomatch h

theorem thermalTrip (die t : Nat) : Statement (.thermalTrip die t) := fun _ _ h => nomatch h

theorem thermalShutdown (die t : Nat) : Statement (.thermalShutdown die t) := fun _ _ h => nomatch h

theorem pminApply (port : Nat) : Statement (.pminApply port) := fun _ _ h => nomatch h

theorem flitReceive (port : Nat) (flit : Flit) : Statement (.flitReceive port flit) := fun _ _ h => nomatch h

theorem linkReplay (port failed : Nat) : Statement (.linkReplay port failed) := fun _ _ h => nomatch h

theorem portTrained (port : Nat) : Statement (.portTrained port) := fun _ _ h => nomatch h

theorem nodeLoss (node : Nat) : Statement (.nodeLoss node) := fun _ _ h => nomatch h

theorem functionLevelReset (vi : Nat) : Statement (.functionLevelReset vi) := fun _ _ h => nomatch h

theorem packageReset (verified : Nat) : Statement (.packageReset verified) := fun _ _ h => nomatch h

theorem scAnnouncement (w : Nat) : Statement (.scAnnouncement w) := fun _ _ h => nomatch h

theorem ueSend (q : Nat) : Statement (.ueSend q) := fun _ _ h => nomatch h

theorem ueWrite (q : Nat) : Statement (.ueWrite q) := fun _ _ h => nomatch h

theorem ueRead (q : Nat) : Statement (.ueRead q) := fun _ _ h => nomatch h

theorem ueCompletion (q i st : Nat) (data : List Nat) : Statement (.ueCompletion q i st data) := fun _ _ h => nomatch h

theorem ueSendArrival (ep : Nat) (data : List Nat) : Statement (.ueSendArrival ep data) := fun _ _ h => nomatch h

theorem registerWrite (off x : Nat) : Statement (.registerWrite off x) := fun _ _ h => nomatch h

theorem storeBufferDrain (slot i : Nat) : Statement (.storeBufferDrain slot i) := fun _ _ h => nomatch h

theorem treeOperationResult (slot : Nat) : Statement (.treeOperationResult slot) := fun _ _ h => nomatch h

theorem uncorrectableError (granule : Nat) : Statement (.uncorrectableError granule) := fun _ _ h => nomatch h

theorem laneTrainingLost (die lane : Nat) : Statement (.laneTrainingLost die lane) := fun _ _ h => nomatch h

theorem hostMemoryWrite (addr : Nat) (data : List Nat) : Statement (.hostMemoryWrite addr data) := fun _ _ h => nomatch h

theorem ueWriteArrival (rkey off : Nat) (data : List Nat) : Statement (.ueWriteArrival rkey off data) := fun _ _ h => nomatch h

theorem ueReadArrival (rkey off len : Nat) : Statement (.ueReadArrival rkey off len) := fun _ _ h => nomatch h

theorem ueRetransmission (q i : Nat) : Statement (.ueRetransmission q i) := fun _ _ h => nomatch h

end Sys2Proof.Laws.RoundTrip
end

