-- ==== Sys2Proof/Tests/Slice0.lean ====
section
/-!
SUPPORT. Tests of this row: words that the decoder reads, ill-formed terms that `wellFormed` refuses, for the hypotheses of every
statement states and operands that meet them, and single steps whose results the spec's rules give.
-/

set_option Elab.async false

namespace Sys2Proof.Tests

open Sys2Proof Sys2Proof.Machine

/-! ### Decoding: for every instruction a word written out from the encoding of its row in the opcode table, each field at
a value of its own, and the instruction that it stands for -/

/-- Every word of the list decodes to the instruction beside it. -/
def reads (l : List (Nat × Instr)) : Bool := l.all fun p => decode p.1 = .ok p.2

/-- No instruction of the list is well-formed. -/
def refused (l : List Instr) : Bool := l.all fun i => wellFormed i = false

theorem test_decode_sys :
    reads [(0x00000001, .nop), (0x0180BE02, .trap 24 2 62), (0x00000003, .eret), (0x00467F04, .icinv 4 25 63),
     (0x00000005, .brk), (0x00502C06, .csrr 5 44), (0x02F65507, .csrw 47 25 21), (0x01C62D08, .csrs 28 24 45),
     (0x01BC1609, .csrc 27 48 22), (0x0000340A, .ctxsave 52)] = true ∧
    reads [(0x0000000B, .ctxrest), (0x006C2C0C, .svcreply 6 48 44), (0x000CC00D, .gstopPartition 51),
     (0x000C810D, .gstopPackage 50), (0x0002C20D, .gstopResume 11)] = true := by decide +kernel

theorem test_decode_alu :
    reads [(0x06E57F00, .add 46 21 63), (0x0580BE01, .sub 24 2 62), (0x04505602, .mul 5 1 22),
     (0x04467F03, .mulh 4 25 63), (0x05C0A904, .mulhn 28 2 41), (0x045B1605, .div 5 44 22),
     (0x06F65506, .divn 47 25 21), (0x05C62D07, .rem 28 24 45), (0x05BC1608, .remn 27 48 22),
     (0x07464109, .and 52 25 1)] = true ∧
    reads [(0x05C0ED0A, .or 28 3 45), (0x046C2C0B, .xor 6 48 44), (0x073BC40C, .andn 51 47 4), (0x0721ED0D, .shl 50 7 45),
     (0x04BC170E, .shr 11 48 23), (0x0746840F, .sar 52 26 4), (0x05D1C310, .rotl 29 7 3),
     (0x04A19B11, .min 10 6 27), (0x0497C412, .max 9 31 4), (0x0621EE13, .minn 34 7 46)] = true ∧
    reads [(0x04BC5B14, .maxn 11 49 27), (0x07579A15, .seq 53 30 26), (0x06277216, .sne 34 29 50),
     (0x061D9B17, .slt 33 54 27), (0x0797C518, .sltn 57 31 5), (0x06223219, .sle 34 8 50),
     (0x04CD711A, .slen 12 53 49), (0x079D0A1B, .sel 57 52 10), (0x0783401C, .clz 56 13), (0x050D801D, .ctz 16 54)] = true ∧
    reads [(0x0798001E, .popc 57 32), (0x0633481F, .sext 35 13 8), (0x05032120, .ext 16 12 33), (0x04F90A21, .ins 15 36 10)] = true := by decide +kernel

theorem test_decode_imm :
    reads [(0x0AE5587F, .addi 46 21 6271), (0x0D809B3E, .andi 24 2 6974), (0x10506996, .ori 5 1 10646),
     (0x1446427F, .xori 4 25 639), (0x19C08029, .shli 28 2 41), (0x185B1016, .shri 5 44 22),
     (0x1AF66015, .sari 47 25 21), (0x19C6302D, .rotli 28 24 45), (0x1DBC0296, .slti 27 48 662),
     (0x23467500, .sltin 52 25 13568)] = true := by decide +kernel

theorem test_decode_transfer :
    reads [(0x26E374D5, .lui 46 226517), (0x298C1882, .addpc 24 792706), (0x2C0B1B41, .bz 5 72513),
     (0x2C89A999, .bnz 4 108953), (0x2D38C282, .bltz 28 49794), (0x2D8B74EC, .bgez 5 95468),
     (0x2E5E1899, .bgtz 47 6297), (0x2EB91B58, .blez 28 72536), (0x32A71B5B, .j 44505947), (0x37FDA9B4, .jl 66955700)] = true ∧
    reads [(0x38070300, .jx 28 3), (0x3801B001, .callx 6 48), (0x38000002, .ret), (0x3B21ED03, .jt 50 7 45),
     (0x3C0DA9CB, .pad 895435), (0x411A8680, .rpt 4 26 4 1 5), (0x51D1C34C, .ldx 29 7 3 1 1 4),
     (0x54A19B49, .stx 10 6 27 1 1 1), (0x6097C403, .acas2 9 31 4 3)] = true := by decide +kernel

theorem test_decode_task :
    reads [(0x46E00000, .tid 46), (0x45800001, .tgrp 24), (0x44014002, .texit 5), (0x44466503, .launch 4 25 1 5)] = true := by decide +kernel

theorem test_decode_load :
    reads [(0x4AE5713A, .lb 46 21 3 314), (0x4980A393, .lbn 24 2 2 403), (0x4850647C, .lh 5 1 2 124),
     (0x484676E5, .lhn 4 25 3 229), (0x49C09892, .lw 28 2 1 146), (0x485B2B51, .lwn 5 44 2 337),
     (0x4AF65DAA, .ld 47 25 1 426), (0x49C61E93, .ldp 28 24 1 147)] = true := by decide +kernel

theorem test_decode_store :
    reads [(0x4EE5713A, .stb 46 21 3 314), (0x4D80A593, .sth 24 2 2 403), (0x4C50687C, .stw 5 1 2 124),
     (0x4C467CE5, .std 4 25 3 229), (0x4DC09E92, .stp 28 2 1 146)] = true := by decide +kernel

theorem test_decode_fence :
    reads [(0x58000006, .fence 6), (0x58000009, .fenceAcq 1), (0x58000015, .fenceRel 5), (0x5800001C, .fenceSs 4)] = true := by decide +kernel

theorem test_decode_atom :
    reads [(0x5EE57F50, .aadd 46 21 63 2 1), (0x5D80BE71, .aand 24 2 62 3 1), (0x5C505632, .aor 5 1 22 1 1),
     (0x5C467F33, .axor 4 25 63 1 1), (0x5DC0A954, .amin 28 2 41 2 1), (0x5C5B1635, .amax 5 44 22 1 1),
     (0x5EF65556, .aminn 47 25 21 2 1), (0x5DC62D77, .amaxn 28 24 45 3 1), (0x5DBC1638, .aswp 27 48 22 1 1),
     (0x5F464159, .acas 52 25 1 2 1)] = true ∧
    reads [(0x5DC0ED3A, .afadd 28 3 45 1 1), (0x5C6C2C3B, .afmin 6 48 44 1 1), (0x5F3BC45C, .afmax 51 47 4 2 1)] = true := by decide +kernel

theorem test_decode_remote :
    reads [(0x64002E00, .btag 46), (0x6580BE01, .bclose 24 2 62), (0x64505602, .rappend 5 1 22)] = true := by decide +kernel

theorem test_decode_vint :
    reads [(0x81D5FAC0, .vadd 14 21 31 2 3), (0x8302F341, .vsub 24 2 30 3 1), (0x80A1B482, .vmul 5 1 22 4 2),
     (0x8099FDC3, .vmulh 4 25 31 5 3), (0x83824A84, .vmin 28 2 9 2 2), (0x80ACB1C5, .vmax 5 12 22 1 3),
     (0x81F9AAC6, .vminn 15 25 21 2 3), (0x83986B47, .vmaxn 28 24 13 3 1), (0x8370B588, .vand 27 16 22 5 2),
     (0x82990A49, .vor 20 25 1 2 1)] = true ∧
    reads [(0x8383698A, .vxor 28 3 13 1 2), (0x80D061CB, .vandn 6 16 12 1 3), (0x826F224C, .vshl 19 15 4 2 1),
     (0x82476C4D, .vshr 18 7 13 4 1), (0x8170B94E, .vsar 11 16 23 1 1), (0x829A044F, .vabs 20 26 4 1),
     (0x83A70350, .vneg 29 7 3 1), (0x81460351, .vpopc 10 6 3 1)] = true := by decide +kernel

theorem test_decode_vflt :
    reads [(0x85D5FA00, .vfadd 14 21 31 2), (0x8702F301, .vfsub 24 2 30 3), (0x84A1B402, .vfmul 5 1 22 4),
     (0x8499FD03, .vfmin 4 25 31 5), (0x87824A04, .vfmax 28 2 9 2), (0x84AC0605, .vfabs 5 12 6),
     (0x85F90506, .vfneg 15 25 5)] = true := by decide +kernel

theorem test_decode_vfma :
    reads [(0x89D5FEB8, .vfma 14 21 31 26 7), (0x8B02F4C9, .vfms 24 2 30 19 1), (0x88A1B712, .vfnma 5 1 22 28 2),
     (0x8899F97B, .vfnms 4 25 31 5 7), (0x8B824CB4, .vmadd 28 2 9 18 6), (0x88ACB47D, .vmsub 5 12 22 17 7)] = true := by decide +kernel

theorem test_decode_vcmp :
    reads [(0x8CD5FAD4, .vcmpi 6 21 31 2 3 5), (0x8C22F305, .vcmpf 1 2 30 3 1), (0x8CA1B482, .vsel 5 1 22 4 2)] = true := by decide +kernel

theorem test_decode_vlane :
    reads [(0x91D5FAC5, .vred 14 21 31 2 3 5), (0x9302F34F, .vscan 24 2 30 3 1 7), (0x90A1B490, .vperm 5 1 22 4 2),
     (0x90990759, .vbcast 4 25 7 1 1), (0x938248A1, .vgetl 28 2 9 2 1), (0x90ACB069, .vsetl 5 12 22 1 1),
     (0x91F9AAF0, .vslideDn 15 25 21 2 3), (0x93986B71, .vslideUp 28 24 13 3 1), (0x936001B8, .viota 27 1 2),
     (0x92800179, .viotaCnt 20 1 1)] = true := by decide +kernel

theorem test_decode_vconv :
    reads [(0x95D50710, .vcvt 14 21 7 2), (0x97020031, .vquant 24 2 6), (0x94A10622, .vdeq 5 1 6 4),
     (0x9499072B, .vdec 4 25 7 5), (0x97820114, .venc 28 2 1 2), (0x94ACB005, .vbadd 5 12 22),
     (0x97F5500E, .tblld 15 1 21 10 1)] = true := by decide +kernel

theorem test_decode_vspec :
    reads [(0x99D50700, .vrcp 14 21 7), (0x9B020601, .vrsq 24 2 6), (0x98A10602, .vexp2 5 1 6),
     (0x98990703, .vlog2 4 25 7), (0x9B820104, .vsqrt 28 2 1), (0x98ACB105, .vdiv 5 12 22 1)] = true := by decide +kernel

theorem test_decode_kops :
    reads [(0x9CC53800, .kand 6 5 7), (0x9C223001, .kor 1 2 6), (0x9CA13002, .kxor 5 1 6), (0x9C810003, .knot 4 1),
     (0x9C820004, .kmov 4 2), (0x9CA4008D, .kpopc 5 4 2 1), (0x9DE1004E, .kfirst 15 1 1 1)] = true := by decide +kernel

theorem test_decode_vload :
    reads [(0xA1CAFEB4, .vld 14 21 63 2 3 1), (0xA3017CDD, .vlds 24 2 62 3 1 3), (0xA0A0AD26, .vldx 5 1 22 4 2 1),
     (0xA08CFF7F, .vldb 4 25 63 5 3 3)] = true := by decide +kernel

theorem test_decode_vstore :
    reads [(0xA5CAFEB4, .vst 14 21 63 2 3 1), (0xA7017CDD, .vsts 24 2 62 3 1 3), (0xA4A0AD26, .vstx 5 1 22 4 2 1)] = true := by decide +kernel

theorem test_decode_mxe :
    reads [(0xC2E00000, .mlease 14), (0xC0000001, .mfree), (0xC0014102, .mring 5 1), (0xC0464F03, .mrpub 4 25 15),
     (0xC1C08904, .mrpop 28 2 9), (0xC2C65C05, .mma 1 12 6 1 7), (0xC395BC06, .mmah 1 25 5 2 15),
     (0xC3804007, .mzero 1 24 1), (0xC300BD08, .mlda 1 16 2 61), (0xC3906A09, .msta 1 25 1 42)] = true := by decide +kernel

theorem test_decode_slice :
    reads [(0xC75FC000, .mscale 1 21 63), (0xC62F9301, .msplit 1 2 62 19), (0xC615BC02, .msmm 1 1 22 60),
     (0xC79FE503, .msfin 1 25 63 37)] = true := by decide +kernel

theorem test_decode_stream :
    reads [(0xCB5FD000, .sbind 1 21 63 2), (0xC8000801, .sfree 1), (0xC8500802, .sstat 5 1), (0xC8400803, .srd 4 1),
     (0xC8071004, .swr 28 2)] = true := by decide +kernel

theorem test_decode_copy :
    reads [(0xCF5FC200, .cpy 1 21 63 2), (0xCE2F8301, .cpys 1 2 62 3), (0xCE158102, .cpyg 1 1 22 1),
     (0xCF9FC103, .cpym 1 25 63 1)] = true := by decide +kernel

theorem test_decode_event :
    reads [(0xD2E54000, .evnew 46 21), (0xD0060001, .evfree 24), (0xD0504002, .evbind 5 1), (0xD0400003, .evdrop 4),
     (0xD1C00004, .evbreak 28), (0xD0530005, .evstat 5 12)] = true := by decide +kernel

theorem test_decode_offer :
    reads [(0xD6E57F00, .offer 46 21 63), (0xD580BE01, .offert 24 2 62), (0xD4505602, .offers 5 1 22),
     (0xD4400003, .ofcan 4), (0xD4000103, .ofcanRet), (0xD4530004, .get 5 12), (0xD6F64005, .put 47 25),
     (0xD5C00006, .sync 28)] = true := by decide +kernel

theorem test_decode_chain :
    reads [(0xD8000000, .eqp), (0xD9800001, .chfold 24), (0xD8500002, .chspread 5), (0xD8400003, .chstat 4)] = true := by decide +kernel

theorem test_decode_cct :
    reads [(0xDEE57F00, .ccenrol 46 21 63), (0xDD808001, .ccdrop 24 2), (0xDC505602, .ccmove 5 1 22),
     (0xDF9FC003, .ccsettle 1 25 63), (0xDDC08004, .ccread 28 2), (0xDC5B0104, .ccreadT 5 44),
     (0xDEF65505, .cccmp 47 25 21)] = true := by decide +kernel

theorem test_decode_fmtp :
    reads [(0xFF97EF00, .fmtp 14 5 15 2 15)] = true := by decide +kernel

theorem test_decode_refuses :
    ([0x00000101, 0x00000000, 0x000000FF, 0x18000040, 0x2F000000, 0x88000006, 0x40000001] : List Nat).all
      (fun w => (decode w).isOk = false) = true := by decide +kernel

/-! ### Well-formedness: for every check of `wellFormed` a term that it refuses -/

theorem test_ill_formed_sys :
    refused [.trap 64 0 0, .trap 0 64 0, .trap 0 0 64, .icinv 64 0 0, .icinv 0 64 0, .icinv 0 0 64, .csrr 64 0, .csrr 0 64,
     .csrw 64 0 0, .csrw 0 64 0, .csrw 0 0 64, .csrs 64 0 0, .csrs 0 64 0, .csrs 0 0 64, .csrc 64 0 0, .csrc 0 64 0,
     .csrc 0 0 64, .ctxsave 64, .svcreply 64 0 0, .svcreply 0 64 0, .svcreply 0 0 64, .gstopPartition 64,
     .gstopPackage 64, .gstopResume 64] = true := by decide +kernel

theorem test_ill_formed_alu :
    refused [.add 64 0 0, .add 0 64 0, .add 0 0 64, .sub 64 0 0, .sub 0 64 0, .sub 0 0 64, .mul 64 0 0, .mul 0 64 0,
     .mul 0 0 64, .mulh 64 0 0, .mulh 0 64 0, .mulh 0 0 64, .mulhn 64 0 0, .mulhn 0 64 0, .mulhn 0 0 64,
     .div 64 0 0, .div 0 64 0, .div 0 0 64, .divn 64 0 0, .divn 0 64 0, .divn 0 0 64, .rem 64 0 0, .rem 0 64 0,
     .rem 0 0 64, .remn 64 0 0, .remn 0 64 0, .remn 0 0 64, .and 64 0 0, .and 0 64 0, .and 0 0 64, .or 64 0 0,
     .or 0 64 0, .or 0 0 64, .xor 64 0 0, .xor 0 64 0, .xor 0 0 64, .andn 64 0 0, .andn 0 64 0, .andn 0 0 64,
     .shl 64 0 0] = true ∧
    refused [.shl 0 64 0, .shl 0 0 64, .shr 64 0 0, .shr 0 64 0, .shr 0 0 64, .sar 64 0 0, .sar 0 64 0, .sar 0 0 64,
     .rotl 64 0 0, .rotl 0 64 0, .rotl 0 0 64, .min 64 0 0, .min 0 64 0, .min 0 0 64, .max 64 0 0, .max 0 64 0,
     .max 0 0 64, .minn 64 0 0, .minn 0 64 0, .minn 0 0 64, .maxn 64 0 0, .maxn 0 64 0, .maxn 0 0 64, .seq 64 0 0,
     .seq 0 64 0, .seq 0 0 64, .sne 64 0 0, .sne 0 64 0, .sne 0 0 64, .slt 64 0 0, .slt 0 64 0, .slt 0 0 64,
     .sltn 64 0 0, .sltn 0 64 0, .sltn 0 0 64, .sle 64 0 0, .sle 0 64 0, .sle 0 0 64, .slen 64 0 0, .slen 0 64 0] = true ∧
    refused [.slen 0 0 64, .sel 64 0 0, .sel 0 64 0, .sel 0 0 64, .clz 64 0, .clz 0 64, .ctz 64 0, .ctz 0 64, .popc 64 0,
     .popc 0 64, .sext 64 0 0, .sext 0 64 0, .sext 0 0 64, .ext 64 0 0, .ext 0 64 0, .ext 0 0 64, .ins 64 0 0,
     .ins 0 64 0, .ins 0 0 64] = true := by decide +kernel

theorem test_ill_formed_imm :
    refused [.addi 64 0 0, .addi 0 64 0, .addi 0 0 16384, .andi 64 0 0, .andi 0 64 0, .andi 0 0 16384, .ori 64 0 0,
     .ori 0 64 0, .ori 0 0 16384, .xori 64 0 0, .xori 0 64 0, .xori 0 0 16384, .shli 64 0 0, .shli 0 64 0,
     .shli 0 0 64, .shri 64 0 0, .shri 0 64 0, .shri 0 0 64, .sari 64 0 0, .sari 0 64 0, .sari 0 0 64,
     .rotli 64 0 0, .rotli 0 64 0, .rotli 0 0 64, .slti 64 0 0, .slti 0 64 0, .slti 0 0 16384, .sltin 64 0 0,
     .sltin 0 64 0, .sltin 0 0 16384] = true := by decide +kernel

theorem test_ill_formed_transfer :
    refused [.lui 64 0, .lui 0 1048576, .addpc 64 0, .addpc 0 1048576, .bz 64 0, .bz 0 131072, .bnz 64 0, .bnz 0 131072,
     .bltz 64 0, .bltz 0 131072, .bgez 64 0, .bgez 0 131072, .bgtz 64 0, .bgtz 0 131072, .blez 64 0, .blez 0 131072,
     .j 67108864, .jl 67108864, .jx 64 0, .jx 0 64, .callx 64 0, .callx 0 64, .jt 64 0 0, .jt 0 64 0, .jt 0 0 64,
     .pad 1048576, .rpt 16 0 0 0 0, .rpt 0 64 0 0 0, .rpt 0 0 8 0 0, .rpt 0 0 0 8 0, .rpt 0 0 0 0 8,
     .ldx 64 0 0 0 0 0, .ldx 0 64 0 0 0 0, .ldx 0 0 64 0 0 0, .ldx 0 0 0 4 0 0, .ldx 0 0 0 0 2 0, .ldx 0 0 0 0 0 8,
     .stx 64 0 0 0 0 0, .stx 0 64 0 0 0 0, .stx 0 0 64 0 0 0] = true ∧
    refused [.stx 0 0 0 4 0 0, .stx 0 0 0 0 2 0, .stx 0 0 0 0 0 8, .acas2 64 0 0 0, .acas2 0 64 0 0, .acas2 0 0 64 0,
     .acas2 0 0 0 4] = true := by decide +kernel

theorem test_ill_formed_task :
    refused [.tid 64, .tgrp 64, .texit 64, .launch 64 0 0 0, .launch 0 64 0 0, .launch 0 0 2 0, .launch 0 0 0 32] = true := by decide +kernel

theorem test_ill_formed_load :
    refused [.lb 64 0 0 0, .lb 0 64 0 0, .lb 0 0 4 0, .lb 0 0 0 512, .lbn 64 0 0 0, .lbn 0 64 0 0, .lbn 0 0 4 0,
     .lbn 0 0 0 512, .lh 64 0 0 0, .lh 0 64 0 0, .lh 0 0 4 0, .lh 0 0 0 512, .lhn 64 0 0 0, .lhn 0 64 0 0,
     .lhn 0 0 4 0, .lhn 0 0 0 512, .lw 64 0 0 0, .lw 0 64 0 0, .lw 0 0 4 0, .lw 0 0 0 512, .lwn 64 0 0 0,
     .lwn 0 64 0 0, .lwn 0 0 4 0, .lwn 0 0 0 512, .ld 64 0 0 0, .ld 0 64 0 0, .ld 0 0 4 0, .ld 0 0 0 512,
     .ldp 64 0 0 0, .ldp 0 64 0 0, .ldp 0 0 4 0, .ldp 0 0 0 512] = true := by decide +kernel

theorem test_ill_formed_store :
    refused [.stb 64 0 0 0, .stb 0 64 0 0, .stb 0 0 4 0, .stb 0 0 0 512, .sth 64 0 0 0, .sth 0 64 0 0, .sth 0 0 4 0,
     .sth 0 0 0 512, .stw 64 0 0 0, .stw 0 64 0 0, .stw 0 0 4 0, .stw 0 0 0 512, .std 64 0 0 0, .std 0 64 0 0,
     .std 0 0 4 0, .std 0 0 0 512, .stp 64 0 0 0, .stp 0 64 0 0, .stp 0 0 4 0, .stp 0 0 0 512] = true := by decide +kernel

theorem test_ill_formed_fence :
    refused [.fence 8, .fenceAcq 8, .fenceRel 8, .fenceSs 8] = true := by decide +kernel

theorem test_ill_formed_atom :
    refused [.aadd 64 0 0 0 0, .aadd 0 64 0 0 0, .aadd 0 0 64 0 0, .aadd 0 0 0 4 0, .aadd 0 0 0 0 2, .aand 64 0 0 0 0,
     .aand 0 64 0 0 0, .aand 0 0 64 0 0, .aand 0 0 0 4 0, .aand 0 0 0 0 2, .aor 64 0 0 0 0, .aor 0 64 0 0 0,
     .aor 0 0 64 0 0, .aor 0 0 0 4 0, .aor 0 0 0 0 2, .axor 64 0 0 0 0, .axor 0 64 0 0 0, .axor 0 0 64 0 0,
     .axor 0 0 0 4 0, .axor 0 0 0 0 2, .amin 64 0 0 0 0, .amin 0 64 0 0 0, .amin 0 0 64 0 0, .amin 0 0 0 4 0,
     .amin 0 0 0 0 2, .amax 64 0 0 0 0, .amax 0 64 0 0 0, .amax 0 0 64 0 0, .amax 0 0 0 4 0, .amax 0 0 0 0 2,
     .aminn 64 0 0 0 0, .aminn 0 64 0 0 0, .aminn 0 0 64 0 0, .aminn 0 0 0 4 0, .aminn 0 0 0 0 2, .amaxn 64 0 0 0 0,
     .amaxn 0 64 0 0 0, .amaxn 0 0 64 0 0, .amaxn 0 0 0 4 0, .amaxn 0 0 0 0 2] = true ∧
    refused [.aswp 64 0 0 0 0, .aswp 0 64 0 0 0, .aswp 0 0 64 0 0, .aswp 0 0 0 4 0, .aswp 0 0 0 0 2, .acas 64 0 0 0 0,
     .acas 0 64 0 0 0, .acas 0 0 64 0 0, .acas 0 0 0 4 0, .acas 0 0 0 0 2, .afadd 64 0 0 0 0, .afadd 0 64 0 0 0,
     .afadd 0 0 64 0 0, .afadd 0 0 0 4 0, .afadd 0 0 0 0 2, .afmin 64 0 0 0 0, .afmin 0 64 0 0 0, .afmin 0 0 64 0 0,
     .afmin 0 0 0 4 0, .afmin 0 0 0 0 2, .afmax 64 0 0 0 0, .afmax 0 64 0 0 0, .afmax 0 0 64 0 0, .afmax 0 0 0 4 0,
     .afmax 0 0 0 0 2] = true := by decide +kernel

theorem test_ill_formed_remote :
    refused [.btag 64, .bclose 32 0 0, .bclose 0 64 0, .bclose 0 0 64, .rappend 32 0 0, .rappend 0 64 0, .rappend 0 0 64] = true := by decide +kernel

theorem test_ill_formed_vint :
    refused [.vadd 32 0 0 0 0, .vadd 0 32 0 0 0, .vadd 0 0 32 0 0, .vadd 0 0 0 8 0, .vadd 0 0 0 0 4, .vsub 32 0 0 0 0,
     .vsub 0 32 0 0 0, .vsub 0 0 32 0 0, .vsub 0 0 0 8 0, .vsub 0 0 0 0 4, .vmul 32 0 0 0 0, .vmul 0 32 0 0 0,
     .vmul 0 0 32 0 0, .vmul 0 0 0 8 0, .vmul 0 0 0 0 4, .vmulh 32 0 0 0 0, .vmulh 0 32 0 0 0, .vmulh 0 0 32 0 0,
     .vmulh 0 0 0 8 0, .vmulh 0 0 0 0 4, .vmin 32 0 0 0 0, .vmin 0 32 0 0 0, .vmin 0 0 32 0 0, .vmin 0 0 0 8 0,
     .vmin 0 0 0 0 4, .vmax 32 0 0 0 0, .vmax 0 32 0 0 0, .vmax 0 0 32 0 0, .vmax 0 0 0 8 0, .vmax 0 0 0 0 4,
     .vminn 32 0 0 0 0, .vminn 0 32 0 0 0, .vminn 0 0 32 0 0, .vminn 0 0 0 8 0, .vminn 0 0 0 0 4, .vmaxn 32 0 0 0 0,
     .vmaxn 0 32 0 0 0, .vmaxn 0 0 32 0 0, .vmaxn 0 0 0 8 0, .vmaxn 0 0 0 0 4] = true ∧
    refused [.vand 32 0 0 0 0, .vand 0 32 0 0 0, .vand 0 0 32 0 0, .vand 0 0 0 8 0, .vand 0 0 0 0 4, .vor 32 0 0 0 0,
     .vor 0 32 0 0 0, .vor 0 0 32 0 0, .vor 0 0 0 8 0, .vor 0 0 0 0 4, .vxor 32 0 0 0 0, .vxor 0 32 0 0 0,
     .vxor 0 0 32 0 0, .vxor 0 0 0 8 0, .vxor 0 0 0 0 4, .vandn 32 0 0 0 0, .vandn 0 32 0 0 0, .vandn 0 0 32 0 0,
     .vandn 0 0 0 8 0, .vandn 0 0 0 0 4, .vshl 32 0 0 0 0, .vshl 0 32 0 0 0, .vshl 0 0 32 0 0, .vshl 0 0 0 8 0,
     .vshl 0 0 0 0 4, .vshr 32 0 0 0 0, .vshr 0 32 0 0 0, .vshr 0 0 32 0 0, .vshr 0 0 0 8 0, .vshr 0 0 0 0 4,
     .vsar 32 0 0 0 0, .vsar 0 32 0 0 0, .vsar 0 0 32 0 0, .vsar 0 0 0 8 0, .vsar 0 0 0 0 4, .vabs 32 0 0 0,
     .vabs 0 32 0 0, .vabs 0 0 8 0, .vabs 0 0 0 4, .vneg 32 0 0 0] = true ∧
    refused [.vneg 0 32 0 0, .vneg 0 0 8 0, .vneg 0 0 0 4, .vpopc 32 0 0 0, .vpopc 0 32 0 0, .vpopc 0 0 8 0, .vpopc 0 0 0 4] = true := by decide +kernel

theorem test_ill_formed_vflt :
    refused [.vfadd 32 0 0 0, .vfadd 0 32 0 0, .vfadd 0 0 32 0, .vfadd 0 0 0 8, .vfsub 32 0 0 0, .vfsub 0 32 0 0,
     .vfsub 0 0 32 0, .vfsub 0 0 0 8, .vfmul 32 0 0 0, .vfmul 0 32 0 0, .vfmul 0 0 32 0, .vfmul 0 0 0 8,
     .vfmin 32 0 0 0, .vfmin 0 32 0 0, .vfmin 0 0 32 0, .vfmin 0 0 0 8, .vfmax 32 0 0 0, .vfmax 0 32 0 0,
     .vfmax 0 0 32 0, .vfmax 0 0 0 8, .vfabs 32 0 0, .vfabs 0 32 0, .vfabs 0 0 8, .vfneg 32 0 0, .vfneg 0 32 0,
     .vfneg 0 0 8] = true := by decide +kernel

theorem test_ill_formed_vfma :
    refused [.vfma 32 0 0 0 0, .vfma 0 32 0 0 0, .vfma 0 0 32 0 0, .vfma 0 0 0 32 0, .vfma 0 0 0 0 8, .vfms 32 0 0 0 0,
     .vfms 0 32 0 0 0, .vfms 0 0 32 0 0, .vfms 0 0 0 32 0, .vfms 0 0 0 0 8, .vfnma 32 0 0 0 0, .vfnma 0 32 0 0 0,
     .vfnma 0 0 32 0 0, .vfnma 0 0 0 32 0, .vfnma 0 0 0 0 8, .vfnms 32 0 0 0 0, .vfnms 0 32 0 0 0,
     .vfnms 0 0 32 0 0, .vfnms 0 0 0 32 0, .vfnms 0 0 0 0 8, .vmadd 32 0 0 0 0, .vmadd 0 32 0 0 0,
     .vmadd 0 0 32 0 0, .vmadd 0 0 0 32 0, .vmadd 0 0 0 0 8, .vmsub 32 0 0 0 0, .vmsub 0 32 0 0 0,
     .vmsub 0 0 32 0 0, .vmsub 0 0 0 32 0, .vmsub 0 0 0 0 8] = true := by decide +kernel

theorem test_ill_formed_vcmp :
    refused [.vcmpi 8 0 0 0 0 0, .vcmpi 0 32 0 0 0 0, .vcmpi 0 0 32 0 0 0, .vcmpi 0 0 0 8 0 0, .vcmpi 0 0 0 0 4 0,
     .vcmpi 0 0 0 0 0 8, .vcmpf 8 0 0 0 0, .vcmpf 0 32 0 0 0, .vcmpf 0 0 32 0 0, .vcmpf 0 0 0 8 0, .vcmpf 0 0 0 0 8,
     .vsel 32 0 0 0 0, .vsel 0 32 0 0 0, .vsel 0 0 32 0 0, .vsel 0 0 0 8 0, .vsel 0 0 0 0 4] = true := by decide +kernel

theorem test_ill_formed_vlane :
    refused [.vred 32 0 0 0 0 0, .vred 0 32 0 0 0 0, .vred 0 0 32 0 0 0, .vred 0 0 0 8 0 0, .vred 0 0 0 0 4 0,
     .vred 0 0 0 0 0 8, .vscan 32 0 0 0 0 0, .vscan 0 32 0 0 0 0, .vscan 0 0 32 0 0 0, .vscan 0 0 0 8 0 0,
     .vscan 0 0 0 0 4 0, .vscan 0 0 0 0 0 8, .vperm 32 0 0 0 0, .vperm 0 32 0 0 0, .vperm 0 0 32 0 0,
     .vperm 0 0 0 8 0, .vperm 0 0 0 0 4, .vbcast 32 0 0 0 0, .vbcast 0 32 0 0 0, .vbcast 0 0 8 0 0,
     .vbcast 0 0 0 4 0, .vbcast 0 0 0 0 2, .vgetl 32 0 0 0 0, .vgetl 0 32 0 0 0, .vgetl 0 0 32 0 0,
     .vgetl 0 0 0 4 0, .vgetl 0 0 0 0 2, .vsetl 32 0 0 0 0, .vsetl 0 32 0 0 0, .vsetl 0 0 32 0 0, .vsetl 0 0 0 4 0,
     .vsetl 0 0 0 0 2, .vslideDn 32 0 0 0 0, .vslideDn 0 32 0 0 0, .vslideDn 0 0 32 0 0, .vslideDn 0 0 0 8 0,
     .vslideDn 0 0 0 0 4, .vslideUp 32 0 0 0 0, .vslideUp 0 32 0 0 0, .vslideUp 0 0 32 0 0] = true ∧
    refused [.vslideUp 0 0 0 8 0, .vslideUp 0 0 0 0 4, .viota 32 0 0, .viota 0 8 0, .viota 0 0 4, .viotaCnt 32 0 0,
     .viotaCnt 0 8 0, .viotaCnt 0 0 4] = true := by decide +kernel

theorem test_ill_formed_vconv :
    refused [.vcvt 32 0 0 0, .vcvt 0 32 0 0, .vcvt 0 0 8 0, .vcvt 0 0 0 8, .vquant 32 0 0, .vquant 0 32 0, .vquant 0 0 8,
     .vdeq 32 0 0 0, .vdeq 0 32 0 0, .vdeq 0 0 8 0, .vdeq 0 0 0 8, .vdec 32 0 0 0, .vdec 0 32 0 0, .vdec 0 0 8 0,
     .vdec 0 0 0 8, .venc 32 0 0 0, .venc 0 32 0 0, .venc 0 0 8 0, .venc 0 0 0 8, .vbadd 32 0 0, .vbadd 0 32 0,
     .vbadd 0 0 32, .tblld 16 0 0 0 0, .tblld 0 2 0 0 0, .tblld 0 0 32 0 0, .tblld 0 0 0 32 0, .tblld 0 0 0 0 2] = true := by decide +kernel

theorem test_ill_formed_vspec :
    refused [.vrcp 32 0 0, .vrcp 0 32 0, .vrcp 0 0 8, .vrsq 32 0 0, .vrsq 0 32 0, .vrsq 0 0 8, .vexp2 32 0 0, .vexp2 0 32 0,
     .vexp2 0 0 8, .vlog2 32 0 0, .vlog2 0 32 0, .vlog2 0 0 8, .vsqrt 32 0 0, .vsqrt 0 32 0, .vsqrt 0 0 8,
     .vdiv 32 0 0 0, .vdiv 0 32 0 0, .vdiv 0 0 32 0, .vdiv 0 0 0 8] = true := by decide +kernel

theorem test_ill_formed_kops :
    refused [.kand 8 0 0, .kand 0 8 0, .kand 0 0 8, .kor 8 0 0, .kor 0 8 0, .kor 0 0 8, .kxor 8 0 0, .kxor 0 8 0,
     .kxor 0 0 8, .knot 8 0, .knot 0 8, .kmov 8 0, .kmov 0 8, .kpopc 32 0 0 0, .kpopc 0 8 0 0, .kpopc 0 0 4 0,
     .kpopc 0 0 0 2, .kfirst 32 0 0 0, .kfirst 0 8 0 0, .kfirst 0 0 4 0, .kfirst 0 0 0 2] = true := by decide +kernel

theorem test_ill_formed_vload :
    refused [.vld 32 0 0 0 0 0, .vld 0 64 0 0 0 0, .vld 0 0 64 0 0 0, .vld 0 0 0 8 0 0, .vld 0 0 0 0 4 0, .vld 0 0 0 0 0 4,
     .vlds 32 0 0 0 0 0, .vlds 0 64 0 0 0 0, .vlds 0 0 64 0 0 0, .vlds 0 0 0 8 0 0, .vlds 0 0 0 0 4 0,
     .vlds 0 0 0 0 0 4, .vldx 32 0 0 0 0 0, .vldx 0 64 0 0 0 0, .vldx 0 0 32 0 0 0, .vldx 0 0 0 8 0 0,
     .vldx 0 0 0 0 4 0, .vldx 0 0 0 0 0 4, .vldb 32 0 0 0 0 0, .vldb 0 64 0 0 0 0, .vldb 0 0 64 0 0 0,
     .vldb 0 0 0 8 0 0, .vldb 0 0 0 0 4 0, .vldb 0 0 0 0 0 4] = true := by decide +kernel

theorem test_ill_formed_vstore :
    refused [.vst 32 0 0 0 0 0, .vst 0 64 0 0 0 0, .vst 0 0 64 0 0 0, .vst 0 0 0 8 0 0, .vst 0 0 0 0 4 0, .vst 0 0 0 0 0 4,
     .vsts 32 0 0 0 0 0, .vsts 0 64 0 0 0 0, .vsts 0 0 64 0 0 0, .vsts 0 0 0 8 0 0, .vsts 0 0 0 0 4 0,
     .vsts 0 0 0 0 0 4, .vstx 32 0 0 0 0 0, .vstx 0 64 0 0 0 0, .vstx 0 0 32 0 0 0, .vstx 0 0 0 8 0 0,
     .vstx 0 0 0 0 4 0, .vstx 0 0 0 0 0 4] = true := by decide +kernel

theorem test_ill_formed_mxe :
    refused [.mlease 32, .mring 64 0, .mring 0 16, .mrpub 64 0 0, .mrpub 0 64 0, .mrpub 0 0 16, .mrpop 64 0 0,
     .mrpop 0 64 0, .mrpop 0 0 16, .mma 2 0 0 0 0, .mma 0 32 0 0 0, .mma 0 0 16 0 0, .mma 0 0 0 4 0,
     .mma 0 0 0 0 16, .mmah 2 0 0 0 0, .mmah 0 32 0 0 0, .mmah 0 0 16 0 0, .mmah 0 0 0 4 0, .mmah 0 0 0 0 16,
     .mzero 2 0 0, .mzero 0 32 0, .mzero 0 0 4, .mlda 2 0 0 0, .mlda 0 32 0 0, .mlda 0 0 4 0, .mlda 0 0 0 64,
     .msta 2 0 0 0, .msta 0 32 0 0, .msta 0 0 4 0, .msta 0 0 0 64] = true := by decide +kernel

theorem test_ill_formed_slice :
    refused [.mscale 2 0 0, .mscale 0 32 0, .mscale 0 0 64, .msplit 2 0 0 0, .msplit 0 32 0 0, .msplit 0 0 64 0,
     .msplit 0 0 0 64, .msmm 2 0 0 0, .msmm 0 32 0 0, .msmm 0 0 64 0, .msmm 0 0 0 64, .msfin 2 0 0 0,
     .msfin 0 32 0 0, .msfin 0 0 64 0, .msfin 0 0 0 64] = true := by decide +kernel

theorem test_ill_formed_stream :
    refused [.sbind 2 0 0 0, .sbind 0 32 0 0, .sbind 0 0 64 0, .sbind 0 0 0 8, .sfree 8, .sstat 64 0, .sstat 0 8, .srd 32 0,
     .srd 0 8, .swr 32 0, .swr 0 8] = true := by decide +kernel

theorem test_ill_formed_copy :
    refused [.cpy 2 0 0 0, .cpy 0 32 0 0, .cpy 0 0 64 0, .cpy 0 0 0 4, .cpys 2 0 0 0, .cpys 0 32 0 0, .cpys 0 0 64 0,
     .cpys 0 0 0 4, .cpyg 2 0 0 0, .cpyg 0 32 0 0, .cpyg 0 0 64 0, .cpyg 0 0 0 4, .cpym 2 0 0 0, .cpym 0 32 0 0,
     .cpym 0 0 64 0, .cpym 0 0 0 4] = true := by decide +kernel

theorem test_ill_formed_event :
    refused [.evnew 64 0, .evnew 0 64, .evfree 64, .evbind 32 0, .evbind 0 64, .evdrop 32, .evbreak 32, .evstat 64 0,
     .evstat 0 32] = true := by decide +kernel

theorem test_ill_formed_offer :
    refused [.offer 64 0 0, .offer 0 64 0, .offer 0 0 64, .offert 64 0 0, .offert 0 64 0, .offert 0 0 64, .offers 64 0 0,
     .offers 0 64 0, .offers 0 0 64, .ofcan 64, .get 64 0, .get 0 32, .put 64 0, .put 0 32, .sync 64] = true := by decide +kernel

theorem test_ill_formed_chain :
    refused [.chfold 64, .chspread 64, .chstat 64] = true := by decide +kernel

theorem test_ill_formed_cct :
    refused [.ccenrol 64 0 0, .ccenrol 0 64 0, .ccenrol 0 0 64, .ccdrop 64 0, .ccdrop 0 64, .ccmove 64 0 0, .ccmove 0 64 0,
     .ccmove 0 0 64, .ccsettle 2 0 0, .ccsettle 0 32 0, .ccsettle 0 0 64, .ccread 64 0, .ccread 0 64, .ccreadT 64 0,
     .ccreadT 0 64, .cccmp 64 0 0, .cccmp 0 64 0, .cccmp 0 0 64] = true := by decide +kernel

theorem test_ill_formed_fmtp :
    refused [.fmtp 16 0 0 0 0, .fmtp 0 16 0 0 0, .fmtp 0 0 16 0 0, .fmtp 0 0 0 4 0, .fmtp 0 0 0 0 16] = true := by decide +kernel

theorem test_ill_formed_agents :
    refused [.taskRetirement 8384, .loadDataReturn 8384 0 0, .loadDataReturn 0 256 0, .fenceDrainEnd 8384, .icinvDone 8384,
     .heldRecordPost 4 0, .preempt 8384, .chainSwitch 64 0, .chainSwitch 0 4294967296, .leaseGrantOffer 128,
     .leaseOfferTimeout 128, .leaseExpiry 128, .mxeCommandExecute 128, .msmmPass 128, .msmmBlockReserve 128,
     .copyExecute 128 0 0, .copyExecute 0 4 0, .ringPush 128 0, .ringPush 0 1028, .copyComplete 128 0,
     .copyComplete 0 4, .streamBeat 8384 0, .streamBeat 0 6, .streamComplete 8384 0, .streamComplete 0 6,
     .resolverWindow 133, .offertExpiry 8384, .handlerEntry 8384, .settleComplete 8384 0, .rollup 64,
     .batchSummary 8384 0 [], .batchSummary 0 4 [], .closeRequest 64 0, .appendStatus 8384 0 0 0,
     .appendStatus 0 0 256 0, .atomicReply 8384 0 0 0, .atomicReply 0 256 0 0, .atomicReply 0 0 0 32,
     .ingressDequeue 64 0, .ingressDequeue 0 6] = true ∧
    refused [.remoteAppend 64, .pubPublish 8192, .arrivalRecord 8192, .ringLaunchRecord 8192, .arrivalRingRelease 8192,
     .hostLaunch 64, .hostCancel 64, .completionEntryPost 64, .launchCompletion 64 0,
     .launchCompletion 0 4294967296, .tencfgWrite 64 0, .tencfgWrite 0 18446744073709551616,
     .registrationWrite 8192 0 0, .registrationWrite 0 4 0, .registrationWrite 0 0 18446744073709551616,
     .mscrWrite 4 0, .mscrWrite 0 18446744073709551616, .atomflagsClear 4 0 0, .atomflagsClear 0 64 0,
     .atomflagsClear 0 0 18446744073709551616, .smdataWrite 18446744073709551616, .attestationReport 64,
     .pstateRequest 4, .cstateC0 128, .cstateC1 128, .cstateC2 128, .dieC3 4, .dieC0 4, .thermalTrip 4 0,
     .thermalTrip 0 256, .thermalShutdown 4 0, .thermalShutdown 0 256, .pminApply 18,
     .flitReceive 18 ⟨0, true, none, none, none⟩, .linkReplay 18 0, .portTrained 18, .nodeLoss 4096,
     .functionLevelReset 64, .packageReset 2, .ueSend 1024] = true ∧
    refused [.ueWrite 1024, .ueRead 1024, .ueCompletion 1024 0 0 [], .ueCompletion 0 0 256 [], .ueSendArrival 4096 [],
     .registerWrite 2097152 0, .registerWrite 0 18446744073709551616, .storeBufferDrain 8384 0,
     .treeOperationResult 8384, .laneTrainingLost 4 0, .laneTrainingLost 0 36, .ueRetransmission 1024 0] = true := by decide +kernel

/-! ### States that meet the hypotheses of the statements -/

/-- The state after reset with slot 0 of core 0 running, as `f` makes it (a user slot of VI 0). -/
def wk (f : Slot → Slot) : State := { State.reset with cur := 0 }.modSlot 0 fun x => f { x with st := .running }

/-- The state after reset at the turn of the first Sumac slot (privileged; its local addresses are physical). -/
def su (f : Slot → Slot) : State := State.reset.modSlot 8320 f

/-- A state with these bytes in its cells. -/
def mem (s : State) (m : List (Nat × Nat)) : State := m.foldl (fun t p => t.setByte p.1 p.2) s

/-- A task of a grid on slot 0: launch 1 of VI 0. -/
def task0 : Task := ⟨0, 1, 0, 3, 2, 1, 7, 0, 0, 0, 1, 0, [], none, none, 0, 0, 0, 0, 0⟩

theorem wit_ScalarArithmeticResults :
    (wk id).NoPrefix ∧ (wk fun x => (x.ws 1 (BitVec.ofNat 64 (2 ^ 63))).ws 2 (BitVec.allOnes 64)).NoPrefix := by decide +kernel

theorem wit_ScalarLogicShiftCompareResults : (wk fun x => (x.ws 1 5).ws 2 64).NoPrefix := by decide +kernel

theorem wit_ScalarBitFieldResults : (wk fun x => (x.ws 1 5).ws 2 0x3F3F).NoPrefix := by decide +kernel

theorem wit_ScalarImmediateResults :
    (nextWord (wk fun x => { x with again := some 0x18000040 }) 0 = .ok 0x18000040 ∧ 0x18000040 < 2 ^ 32 ∧
      bits 0x18000040 31 26 = 6 ∧ bits 0x18000040 11 6 ≠ 0) ∧
    (wk id).NoPrefix ∧ 0x3FFF < 2 ^ 14 ∧ 63 < 64 ∧ 0xFFFFF < 2 ^ 20 := by decide +kernel

theorem wit_BranchesAndDirectJumps :
    (nextWord (wk fun x => { x with again := some 0x2FFFFFFF }) 0 = .ok 0x2FFFFFFF ∧ 0x2FFFFFFF < 2 ^ 32 ∧ bits 0x2FFFFFFF 31 26 = 0x0B ∧ 6 ≤ bits 0x2FFFFFFF 25 23) ∧
    (wk fun x => x.ws 9 1).NoPrefix ∧ (wk fun x => x.ws 9 1).me.frame = none := by decide +kernel

/-- A Sumac slot with a PAD of label 0x41 at 0x1000, s1 at it, s2 its label, the return address 8. -/
def wPad : State := mem (su fun x => ((x.ws 1 0x1000).ws 2 0x41).ws 62 8) [(0x1000, 0x41), (0x1003, 0x3C)]

theorem wit_IndirectTransfersLandOnPads :
    wPad.NoPrefix ∧ (wPad.me.rs 1).toNat % 2 ^ 52 % 4 = 0 ∧
    fetchWord wPad wPad.cur ((wPad.me.rs 1).toNat % 2 ^ 52) = .ok (0x3C000000 + (wPad.me.rs 2).toNat % 2 ^ 20) ∧
    (wPad.me.rs 62).toNat % 2 ^ 52 % 4 = 0 ∧ (wPad.me.rs 62).toNat % 2 ^ 52 ≠ 0 :=
  ⟨by decide +kernel, by decide +kernel, rfl, by decide +kernel, by decide +kernel⟩

/-- A Sumac slot whose s1 is misaligned, s3 aligned at a word of zeros, and whose return address is `r`. -/
def wTrap (r : Nat) : State := su fun x => (((x.ws 1 0x1001).ws 2 0x41).ws 3 0x1000).ws 62 (BitVec.ofNat 64 r)

theorem wit_IndirectTransfersLandOnPads_traps :
    0 < 2 ^ 32 ∧ (wTrap 0).NoPrefix ∧ ((wTrap 0).me.rs 1).toNat % 2 ^ 52 % 4 ≠ 0 ∧ ((wTrap 0).me.rs 3).toNat % 2 ^ 52 % 4 = 0 ∧
    fetchWord (wTrap 0) (wTrap 0).cur (((wTrap 0).me.rs 3).toNat % 2 ^ 52) = .ok 0 ∧
    0 ≠ 0x3C000000 + ((wTrap 0).me.rs 2).toNat % 2 ^ 20 ∧ ((wTrap 0).me.rs 62).toNat % 2 ^ 52 = 0 ∧
    (wTrap 2).NoPrefix ∧ ((wTrap 2).me.rs 62).toNat % 2 ^ 52 % 4 ≠ 0 :=
  ⟨by decide, by decide +kernel, by decide +kernel, by decide +kernel, rfl, by decide +kernel, by decide +kernel, by decide +kernel,
    by decide +kernel⟩

/-- Port 0 is up and leads to node 5. -/
def net (s : State) : State := { s with ports := [(0, { lanes := [0, 1, 2, 3, 4, 5, 6, 7] })], routes := [(5, 0x8000000000000001)] }

/-- A Sumac slot with a table at 0x2000 (s8), index 0 (s5), bound 1 (s6): its entry is 0x1000 bytes back, label 0x41. -/
def wTable : State :=
  mem (su fun x => ((x.ws 8 0x2000).ws 5 0).ws 6 1)
    [(0x1000, 0x41), (0x1003, 0x3C), (0x2001, 0xF0), (0x2002, 0xFF), (0x2003, 0xFF), (0x2005, 0x10), (0x2006, 0x04)]

theorem wit_TableJumps :
    wTable.NoPrefix ∧ (wTable.me.rs 5).toNat < (wTable.me.rs 6).toNat ∧ (wTable.me.rs 8).toNat % 8 = 0 ∧
    sleeps wTable wTable.cur wTable.me.mode (((wTable.me.rs 8).toNat + 8 * (wTable.me.rs 5).toNat) % 2 ^ 64) 8 1 = false ∧
    readLocal wTable wTable.cur (((wTable.me.rs 8).toNat + 8 * (wTable.me.rs 5).toNat) % 2 ^ 64) 8 1 0 =
      .ok (0x00041000FFFFF000, wTable) ∧
    bits 0x00041000FFFFF000 43 32 = 0 ∧ bits 0x00041000FFFFF000 1 0 = 0 ∧ bits 0x00041000FFFFF000 63 44 = 0x41 ∧
    fetchWord wTable wTable.cur
      (BitVec.ofNat 52 (wTable.me.rs 8).toNat + (BitVec.ofNat 32 (0x00041000FFFFF000 % 2 ^ 32)).signExtend 52).toNat =
        .ok (0x3C000000 + 0x41) ∧
    (wTable.me.rs 6).toNat ≤ (wTable.me.rs 6).toNat :=
  ⟨by decide +kernel, by decide +kernel, by decide +kernel, by decide +kernel, rfl, by decide +kernel, by decide +kernel,
    by decide +kernel, rfl, by decide +kernel⟩

theorem wit_TableJumps_far :
    let s := net (su fun x => ((x.ws 8 0x0050000000002000).ws 5 0).ws 6 1)
    s.NoPrefix ∧ (s.me.rs 5).toNat < (s.me.rs 6).toNat ∧ (s.me.rs 8).toNat % 8 = 0 ∧
    isRemote s (((s.me.rs 8).toNat + 8 * (s.me.rs 5).toNat) % 2 ^ 64) = true ∧
    usablePorts s ((((s.me.rs 8).toNat + 8 * (s.me.rs 5).toNat) % 2 ^ 64) / 2 ^ 52) ≠ [] := by decide +kernel

theorem wit_NopPadTaskNumbersAndPrefixes :
    (wk fun x => { x with task := some task0 }).NoPrefix ∧ (wk fun x => { x with task := some task0 }).me.task = some task0 ∧
    (wk fun x => { x with task := some task0 }).me.frame = none ∧
    (wk fun x => { x with pfx := some 0 }).me.pfx ≠ none ∧ Instr.nop.isAgentStep = false ∧ Instr.nop.takesFormat = false := by
  decide +kernel

/-- A Sumac slot at address 0, in front of two ADD words; s9 holds the count `c`. -/
def wRepeat (c : Nat) : State :=
  mem (su fun x => x.ws 9 (BitVec.ofNat 64 c))
    [(5, 0x1E), (6, 0xA5), (7, 0x04), (9, 0x1E), (10, 0xA5), (11, 0x04)]

theorem wit_RepeatCapturesItsBody :
    (∀ c ∈ [0, 3], (wRepeat c).NoPrefix ∧
      ((wRepeat c).me.rs 9).toNat % 2 ^ 32 = c) ∧
    captureWords (wRepeat 3) (wRepeat 3).cur (((wRepeat 3).me.pc + 4) % 2 ^ 52) 2 = .ok [0x04A51E00, 0x04A51E00] ∧
    captureWords (wRepeat 0) (wRepeat 0).cur (((wRepeat 0).me.pc + 4) % 2 ^ 52) 2 = .ok [0x04A51E00, 0x04A51E00] ∧
    mayCapture 0x04A51E00 ∧ 0x04A51E00 / 2 ^ 26 % 64 ≠ 0x3F ∧ 5 ∉ [0x04A51E00, 0x04A51E00] ∧ 5 ∉ [0] ∧
    captureWords (su id) (su id).cur (((su id).me.pc + 4) % 2 ^ 52) 1 = .ok [0] ∧ ¬mayCapture 0 :=
  ⟨by decide +kernel, rfl, rfl, by decide +kernel, by decide +kernel, by decide, by decide, rfl, by decide +kernel⟩

/-- FMTP before VFADD may be captured, before ADD it may not. -/
theorem wit_RepeatCapturesItsBody_prefix :
    let s := fun (b1 b2 b3 b4 : Nat) => mem (su fun x => x.ws 9 3)
      [(5, 0xEF), (6, 0x97), (7, 0xFF), (8, b1), (9, b2), (10, b3), (11, b4)]
    captureWords (s 0x00 0x1A 0x22 0x84) 8320 4 2 = .ok [0xFF97EF00, 0x84221A00] ∧ mayCapture 0xFF97EF00 ∧ mayCapture 0x84221A00 ∧
    0xFF97EF00 / 2 ^ 26 % 64 = 0x3F ∧ decode 0x84221A00 = .ok (.vfadd 1 2 3 2) ∧ (Instr.vfadd 1 2 3 2).takesFormat = true ∧
    captureWords (s 0x00 0x1E 0xA5 0x04) 8320 4 2 = .ok [0xFF97EF00, 0x04A51E00] ∧ decode 0x04A51E00 = .ok (.add 10 20 30) ∧
    (Instr.add 10 20 30).takesFormat = false :=
  ⟨rfl, by decide +kernel, by decide +kernel, by decide +kernel, by decide +kernel, by decide +kernel, rfl, by decide +kernel,
    by decide +kernel⟩

/-- Slot 0 in a frame of the words `ws` at position `p` of iteration `i` of two. -/
def wFrame (ws : List Nat) (p i : Nat) : State := wk fun x => { x with frame := some ⟨ws, 2, 1, 2, 3, p, i, 0x100⟩ }

theorem wit_RepeatFrameRunsStaggered :
    (wFrame [0x04A51E00, 0x804A5E00, 0x9C455200] 0 1).me.frame = some ⟨[0x04A51E00, 0x804A5E00, 0x9C455200], 2, 1, 2, 3, 0, 1, 0x100⟩ ∧
    (wFrame [0x04A51E00, 0x804A5E00, 0x9C455200] 0 1).NoPrefix ∧
    decode 0x04A51E00 = .ok (.add 10 20 30) ∧
    decode 0x80221A00 = .ok (.vadd 1 2 3 2 0) ∧
    decode 0x9C221800 = .ok (.kand 1 2 3) ∧
    (wFrame [0x80221A00] 0 0).NoPrefix ∧ (wFrame [0x9C221800] 0 0).NoPrefix ∧
    0 + 1 < 3 ∧ ([0x04A51E00] : List Nat).length ≤ 0 + 1 ∧ 0 + 1 < 2 ∧ 2 ≤ 1 + 1 ∧
    ∀ e ∈ [(0x89D5FEB8, Instr.vfma 14 21 31 26 7), (0x0AE5587F, .addi 46 21 6271), (0x0783401C, .clz 56 13), (0x936001B8, .viota 27 1 2),
        (0x91F9AAF0, .vslideDn 15 25 21 2 3), (0x91D5FAC5, .vred 14 21 31 2 3 5), (0x8CD5FAD4, .vcmpi 6 21 31 2 3 5),
        (0x90990759, .vbcast 4 25 7 1 1), (0x938248A1, .vgetl 28 2 9 2 1), (0x9CA4008D, .kpopc 5 4 2 1), (0xFF97EF00, .fmtp 14 5 15 2 15)],
      (wFrame [e.1] 0 1).NoPrefix ∧ (wFrame [e.1] 0 1).me.frame = some ⟨[e.1], 2, 1, 2, 3, 0, 1, 0x100⟩ ∧ decode e.1 = .ok e.2 := by
  decide +kernel

theorem wit_CsrReadsIgnoredWritesAndTraps :
    (wk id).NoPrefix ∧ csrRead (wk id) (wk id).cur 5 = some 0 ∧ csrRead (wk id) (wk id).cur 7 = some 0 ∧
    (wk fun x => { x with mode := true }).NoPrefix ∧ (wk fun x => { x with mode := true }).me.mode = true ∧
    csrRead (wk fun x => { x with mode := true }) 0 0x10 = some 1 ∧
    csrRead (wk fun x => { x with mode := true }) 0 63 = none ∧ (wk id).me.mode = false ∧ (wk id).me.sb = [] := by decide +kernel

theorem wit_CsrWritesTakeEffect :
    (wk fun x => { x with mode := true }).NoPrefix ∧ (wk fun x => { x with mode := true }).me.frame = none ∧
    (wk fun x => { x with mode := true }).me.sb = [] ∧ 0 % 64 = 0 ∧ 5 % 64 ≠ 0 ∧
    (∀ p ∈ [0x00, 0x02, 0x03, 0x05, 0x07, 0x10, 0x11, 0x13, 0x14, 0x15, 0x18, 0x1F], (csrRead (wk fun x => { x with mode := true }) 0 p).isSome) ∧
    (su id).NoPrefix ∧ (su id).me.frame = none ∧ (su id).me.sb = [] ∧ (su id).me.mode = true ∧
    (∀ p ∈ [0x20, 0x21, 0x22, 0x24, 0x25, 0x26, 0x27, 0x28, 0x2A, 0x2B, 0x2C, 0x2D, 0x2E], (csrRead (su id) (su id).cur p).isSome) ∧
    csrRead (su id) (su id).cur 0x23 = some 0 := by decide +kernel

/-- Slot 0 with `n` records outstanding in die 0's trap queue. -/
def wQueue (n : Nat) : State := (wk id).modDie 0 fun d => { d with tqtail := n }

theorem wit_NonFatalFaultsPostOrHold :
    (wQueue 251).MemWf ∧ ((wQueue 251).slot 0).sb = [] ∧ ((wQueue 252).slot 0).sb = [] ∧ ({ code := 0x20 } : Trap).remote = false ∧
    ({ code := 0x20 } : Trap).pc = none ∧ ({ code := 0x20 } : Trap).code ∈ [0x04, 0x0F, 0x20, 0x21] ∧ ({ code := 0x20 } : Trap).engine = false ∧
    queued (wQueue 251) (dieOfSlot 0) < 252 ∧ 252 ≤ queued (wQueue 252) (dieOfSlot 0) ∧
    asleep (wQueue 251) ((List.range 64).map (bits ((wQueue 251).die 0).tqbase.toNat 51 14 * 2 ^ 14 + 64 * 251 + ·)) = false := by
  decide +kernel

theorem wit_FatalFaultEndsTheTask :
    fatalCode 0x01 = true ∧ isSumac 0 = false ∧
    (∀ k, ((wk fun x => { x with task := some task0 }).slot 0).task = some k → k.kind ≠ 1) :=
  ⟨by decide +kernel, by decide +kernel, fun k h => by
    have : k = task0 := by
      have h2 : ((wk fun x => { x with task := some task0 }).slot 0).task = some task0 := by decide +kernel
      exact Option.some.inj (h.symm.trans h2)
    subst this; decide⟩

theorem wit_ServiceCallsAndBreakpointsPost :
    (wk id).NoPrefix ∧ queued (wk id) (dieOfSlot (wk id).cur) < 252 ∧ (wk id).me.mode = false ∧
    (su id).NoPrefix ∧ (su id).me.mode = true ∧ queued (su id) (dieOfSlot (su id).cur) < 252 := by decide +kernel

theorem wit_PrivilegeAndInstructionCaches :
    (wk id).NoPrefix ∧ (wk id).me.mode = false ∧ (su id).NoPrefix ∧ (su id).me.mode = true ∧ ((su id).me.rs 0).toNat = 0 ∧
    ((su fun x => x.ws 2 4).me.rs 2).toNat ≠ 0 ∧ 1 ≤ 1 ∧ 1 < 2 ∧ (wk id).me.sb = [] ∧ isSumac (wk id).cur = false ∧
    ((su fun x => { x with st := .interlocked (.icinv 1 64 0 4) }).slot 8320).st = .interlocked (.icinv 1 64 0 4) ∧
    ((su fun x => { x with st := .interlocked (.icinv 1 64 0 4) }).slot 8320).frame = none := by decide +kernel

/-- A Sumac slot (s1 the SEQ 0, s2 the action) beside a worker slot that awaits the reply to record 0. -/
def wReply (code act : Nat) : State :=
  (su fun x => x.ws 2 (BitVec.ofNat 64 act)).modSlot 0 fun x =>
    { x with st := .faulted, posted := some ⟨0, some 0, { code := code }, 0⟩ }

theorem wit_ServiceReplies :
    (wReply 0x20 1).NoPrefix ∧ (wReply 0x20 1).me.sb = [] ∧ isSumac (wReply 0x20 1).cur = true ∧ 0 ≠ (wReply 0x20 1).cur ∧
    slotAwaiting (wReply 0x20 1) 0 0 = some 0 ∧ ((wReply 0x20 1).slot 0).posted = some ⟨0, some 0, { code := 0x20 }, 0⟩ ∧
    ((wReply 0x20 1).slot 0).frame = none ∧ ((wReply 0x20 1).me.rs 2).toNat % 8 = 1 ∧
    slotAwaiting (wReply 0x04 0) 0 0 = some 0 ∧ ((wReply 0x04 0).me.rs 2).toNat % 8 = 0 ∧
    slotAwaiting (su id) 0 0 = none ∧ streamAwaiting (su id) 0 0 = none ∧ copyAwaiting (su id) 0 0 = none := by decide +kernel

/-- A Sumac slot (s1 the SEQ 0, s2 the action) beside a worker slot that awaits the reply to the PEER_LOST of a load from node 5, which has
begun `k` new epochs since. -/
def wLost (k act : Nat) : State :=
  { (su fun x => x.ws 2 (BitVec.ofNat 64 act)).modSlot 0 fun x =>
      { x with st := .faulted, posted := some ⟨0, some 0, { code := 0x0F, kind := 1, info := 5, remote := true }, 0⟩ } with epochs := [(5, k)] }

theorem wit_ServiceReplies_acts :
    (∀ e ∈ [(0x21, 1), (0x21, 2), (0x21, 0x0103), (0x21, 0x1103), (0x20, 0), (0x21, 0), (0x04, 1), (0x0F, 1), (0x20, 2)],
      let s := wReply e.1 e.2
      s.NoPrefix ∧ s.me.sb = [] ∧ isSumac s.cur = true ∧ 0 ≠ s.cur ∧ slotAwaiting s 0 0 = some 0 ∧
      (s.slot 0).posted = some ⟨0, some 0, { code := e.1 }, 0⟩ ∧ (s.slot 0).frame = none ∧ (s.me.rs 2).toNat % 8 = e.2 % 8 ∧
      bits (s.me.rs 2).toNat 15 8 = e.2 / 256 ∧ isSumac 0 = false ∧ (s.slot 0).task = none) ∧
    ∀ k ∈ [0, 1], let s := wLost k 0
      let r : Posted := ⟨0, some 0, { code := 0x0F, kind := 1, info := 5, remote := true }, 0⟩
      s.NoPrefix ∧ s.me.sb = [] ∧ slotAwaiting s 0 0 = some 0 ∧ (s.slot 0).posted = some r ∧ (s.me.rs 2).toNat % 8 = 0 ∧
      (epochOf s r.trap ≠ r.epoch ↔ k = 1) := by decide +kernel

theorem wit_GangStopsAndResume :
    (su id).NoPrefix ∧ (su id).me.mode = true ∧ (su id).me.frame = none ∧
    coreInMesh (su id) (gstopVi (su id) (su id).cur) 0 = true ∧ ((su id).core 0).cause.toNat / 2 ^ 63 = 0 := by decide +kernel

/-- Slot 0 with a PREEMPT request, its task on it. -/
def wPreempt : State := wk fun x => { x with preReq := true, task := some task0, vbase := 0x100 }

theorem wit_HandlerEntryAndReturn :
    preemptDue wPreempt 0 = true ∧ (wPreempt.slot 0).st = .running ∧ (wPreempt.slot 0).task = some task0 ∧ task0.tiles = [] ∧
    (wPreempt.slot 0).offer = none ∧ (wPreempt.slot 0).stand = none ∧ (wPreempt.slot 0).susp = none ∧
    leaseLive wPreempt 0 = false ∧ mxOut wPreempt 0 = false ∧
    (su id).NoPrefix ∧ (su id).me.mode = true ∧ (su id).me.held = [] ∧ (su id).me.stand = none ∧ (su id).me.susp = none := by
  decide +kernel

/-- Slot 0 in the resident handler, its task below; a leaf of its core maps low device memory onto itself. -/
def wHandler : State :=
  { wk fun x => { x with mode := true, inh := true, task := some task0, saveptr := 0xF000000001000 } with
    tlb := [⟨0, 0, 0, 2 ^ 29, 0xF800000000000000⟩], vis := [(0, { ptbr := 1 })] }

/-- A context of slot 0 whose covered bytes are `n` times `b`. -/
def wCtx (n b : Nat) : Pre := ⟨{ wHandler.me with dorm := some ⟨none, none, none, 5, 0x40⟩ }, 0, 1, List.replicate n b, 0, [], false, false⟩

/-- The handler's state with that context kept. -/
def wSaved (n b : Nat) : State := { wHandler with pre := [wCtx n b] }

/-- Slot 0 in the resident handler as a team of an instance whose other team, on slot 4, runs on. -/
def wTeams : State :=
  (wk fun x => { x with mode := true, inh := true, task := some { task0 with kind := 1 } }).modSlot 4 fun x =>
    { x with st := .running, task := some { task0 with kind := 1, part := 1 } }

theorem wit_FatalFaultEndsTheTask_teamsAndStops :
    isSumac 0 = false ∧ (wTeams.slot 0).task = some { task0 with kind := 1 } ∧ 4 ∈ teamSlots wTeams 0 ∧ (4 : Nat) ≠ 0 ∧
    (wTeams.slot 4).st ≠ .lingering ∧ isSumac 8320 = true ∧ 8320 < 8384 ∧ (∀ c ∈ [0, 2048, 2095], ((su id).core c).cause.toNat / 2 ^ 63 = 0) ∧
    256 ≤ queued (wQueue 256) (dieOfSlot 0) ∧ queued (wQueue 0) (dieOfSlot 0) < 256 ∧
    (let s := (wQueue 256).modVi 0 fun v => { v with tencfg := BitVec.ofNat 64 (2 ^ 63 + 2 ^ 40) }
     partitionCore s (s.slot 0).vi 5 = true ∧ (s.core 5).cause.toNat / 2 ^ 63 = 0) := by decide +kernel

/-- A slot in the resident handler whose addresses are physical, its save area in its own TCM. -/
def wSaving : State := su fun x => { x with inh := true, task := some task0, saveptr := 0xF000000001000 }

theorem wit_ContextSaveAndRestore_save :
    wSaving.NoPrefix ∧ wSaving.me.mode = true ∧ wSaving.me.inh = true ∧ wSaving.me.task = some task0 ∧ wSaving.me.sb = [] ∧
    mxOut wSaving wSaving.cur = false ∧ recordPending wSaving wSaving.cur = false ∧ task0.kind ≠ 1 := by
  decide +kernel

/-- A run of addresses each of which has a cell has cells. -/
theorem cellsGo_ok (f : Nat → Except Trap Nat) (Q : Nat → Nat → Prop) (B : Nat) (hB : B ≤ 2 ^ 64)
    (hq : ∀ a c, Q a c → a < B → (a + 1) % 8 ≠ 0 → Q (a + 1) (c + 1)) (n : Nat) :
    ∀ (ea : Nat) (last : Option Nat), ea + n ≤ B → (∀ a, ea ≤ a → a < B → ∃ c, f a = .ok c ∧ Q a c) →
      (∀ c, last = some c → ea % 8 ≠ 0 → Q ea (c + 1)) →
      ∃ l, cellsGo f ea last n = .ok l ∧ ∀ c ∈ l, ∃ a, a < B ∧ Q a c := by
  induction n with
  | zero => exact fun ea last _ _ _ => ⟨[], rfl, by simp⟩
  | succ n ih =>
    intro ea last h hf hl
    have go : ∀ c, Q ea c → ∃ l, (cellsGo f ((ea + 1) % 2 ^ 64) (some c) n).map (c :: ·) = .ok l ∧ ∀ c ∈ l, ∃ a, a < B ∧ Q a c := by
      intro c hc
      have hd : ∃ a, a < B ∧ Q a c := ⟨ea, by omega, hc⟩
      rcases n with _ | n
      · exact ⟨[c], rfl, by simpa using hd⟩
      · rw [Nat.mod_eq_of_lt (by omega : ea + 1 < 2 ^ 64)]
        obtain ⟨l, e, q⟩ := ih (ea + 1) (some c) (by omega) (fun a ha => hf a (by omega))
          (fun d hd h8 => by obtain rfl := Option.some.inj hd; exact hq ea _ hc (by omega) h8)
        exact ⟨c :: l, by rw [e]; rfl, fun d hm => (List.mem_cons.mp hm).elim (fun he => he ▸ hd) (q d)⟩
    unfold cellsGo
    split
    · rename_i c hc
      have h8 : ea % 8 ≠ 0 := fun h0 => by simp [h0] at hc
      simp [h8] at hc
      exact go (c + 1) (hl c hc h8)
    · obtain ⟨c, e, hc⟩ := hf ea (Nat.le_refl _) (by omega)
      rw [e]
      exact go c hc

/-- A run of local addresses whose targets `g` names has cells. -/
theorem localCells_ok (s : State) (m : Nat) (priv : Bool) (g : Nat → Nat) (lo B : Nat) (hB : B ≤ 2 ^ 64) (_ : B % 8 = 0)
    (hg : ∀ a, lo ≤ a → a < B → (a + 1) % 8 ≠ 0 → g (a + 1) = g a + 1) (n ea kind order : Nat) (h0 : lo ≤ ea) (h : ea + n ≤ B)
    (ht : ∀ a, lo ≤ a → a < B → targetOf s m priv a kind = .ok (.cell (g a))) :
    ∃ l, localCells s m priv ea n kind order = .ok l ∧ ∀ c ∈ l, ∃ a, lo ≤ a ∧ a < B ∧ c = g a := by
  refine (cellsGo_ok _ (fun a c => lo ≤ a ∧ c = g a) B hB (fun a c e hb h1 => ?_) n ea none h (fun a ha hb => ?_) (by simp)).imp
    fun l p => ⟨p.1, fun c hc => by obtain ⟨a, h1, h2, h3⟩ := p.2 c hc; exact ⟨a, h2, h1, h3⟩⟩
  · obtain ⟨h2, rfl⟩ := e
    exact ⟨by omega, (hg a h2 hb h1).symm⟩
  · exact ⟨g a, by simp only [ht a (by omega) hb], by omega, rfl⟩

/-- A run of physical addresses of a Sumac slot has cells, none of host memory. -/
theorem physical_cells (s : State) (n ea kind : Nat) (h0 : 0xFFF * 2 ^ 52 ≤ ea) (h : ea + n ≤ 0xFFF * 2 ^ 52 + winBase) :
    ∃ l, saveCells s 8320 ea n kind = some l := by
  obtain ⟨l, e, q⟩ := localCells_ok s 8320 true (fun a => a % 2 ^ 52) (0xFFF * 2 ^ 52) (0xFFF * 2 ^ 52 + winBase) (by decide) (by decide)
    (fun a _ _ _ => by omega) n ea kind 0 h0 h (fun a ha hb => by
      have hw : ¬ winBase ≤ a % 2 ^ 52 := by simp only [winBase] at *; omega
      have hr : isRemote s a = false := by
        have h1 : a / 2 ^ 52 % 2 ^ 12 = 0xFFF := by simp only [winBase] at *; omega
        unfold isRemote; rw [h1]; simp
      simp only [targetOf, if_neg hw, hr]; rfl)
  have hh : l.any isHost = false := by
    simp only [List.any_eq_false]
    intro c hc
    obtain ⟨a, ha, hb, rfl⟩ := q c hc
    simp only [isHost, Bool.and_eq_true, decide_eq_true_eq, not_and]
    omega
  exact ⟨l, by simp only [saveCells, e, hh]; rfl⟩

/-- A run of own-TCM addresses of a privileged slot has cells, none of host memory. -/
theorem window_cells (s : State) (n ea kind : Nat) (h0 : localEa winBase ≤ ea) (h : ea + n ≤ localEa winBase + 0x10000) :
    ∃ l, saveCells s 8320 ea n kind = some l := by
  obtain ⟨l, e, q⟩ := localCells_ok s 8320 true (fun a => tcmBase 2080 + (a % 2 ^ 52 - winBase)) (localEa winBase)
    (localEa winBase + 0x10000) (by decide) (by decide)
    (fun a _ _ _ => by simp only [winBase, localEa] at *; omega) n ea kind 0 h0 h (fun a ha hb => by
      have hw : winBase ≤ a % 2 ^ 52 ∧ a % 2 ^ 52 - winBase < 0x10000 := by simp only [winBase, localEa] at *; omega
      simp only [targetOf, if_pos hw.1, windowCell, if_pos hw.2]; rfl)
  have hh : l.any isHost = false := by
    simp only [List.any_eq_false]
    intro c hc
    obtain ⟨a, ha, hb, h1⟩ := q c hc
    have : 2 ^ 65 ≤ tcmBase 2080 := by unfold tcmBase; omega
    simp only [isHost, Bool.and_eq_true, decide_eq_true_eq, not_and]
    omega
  exact ⟨l, by simp only [saveCells, e, hh]; rfl⟩

theorem length_flatMap_range (m k : Nat) (f : Nat → List Nat) (h : ∀ r, r < m → (f r).length = k) :
    ((List.range m).flatMap f).length = m * k := by
  have : (List.range m).map (fun a => (f a).length) = List.replicate m k := by
    rw [List.map_congr_left (g := fun _ => k) fun a ha => h a (List.mem_range.mp ha)]; simp [List.map_const']
  rw [List.length_flatMap, this, List.sum_replicate, smul_eq_mul]

theorem length_extBytes (x : Slot) : (extBytes x).length = 6288 := by
  have hv : ∀ r, (vecBytes (x.rv r)).length = 128 := fun r => by simp [vecBytes, elems]
  have ht : ∀ t, (tableBytes t).length = 1032 := fun t => by
    simp only [tableBytes, List.length_append, bytesOf_length]
    rw [length_flatMap_range 256 4 _ fun r _ => bytesOf_length _ _]
  simp only [extBytes, List.length_append, ht]
  rw [length_flatMap_range 32 128 _ fun r _ => hv r, length_flatMap_range 8 16 _ fun r _ => bytesOf_length _ _]

theorem length_cutBytes (x : Slot) (l : List Nat) (h : l.length = 64) : (cutBytes x l).length = 64 :=
  length_flatMap_range 8 8 _ fun i hi => by
    split
    · exact bytesOf_length _ _
    · simp only [List.length_take, List.length_drop, h]; omega

theorem length_saveBytes (s : State) (n : Nat) : (saveBytes s n).1.length = 0x3F8 := by
  simp only [saveBytes, freeBytes, List.length_append, bytesOf_length, List.length_map, List.length_range, List.length_take]
  rw [length_flatMap_range 64 8 _ fun r _ => bytesOf_length _ _, length_flatMap_range 32 4 _ fun r _ => bytesOf_length _ _,
    length_flatMap_range 16 4 _ fun r _ => bytesOf_length _ _, length_flatMap_range 8 8 _ fun r _ => bytesOf_length _ _,
    length_cutBytes _ _ (by simp)]
  rfl

/-- No launch and no poison, which the writes of a save do not change. -/
abbrev Plain (s : State) : Prop := s.launches = [] ∧ s.poison = []

theorem plain_foldl {α : Type} (f : State → α → State) (hf : ∀ t a, Plain t → Plain (f t a)) (l : List α) {s : State}
    (h : Plain s) : Plain (l.foldl f s) := by
  induction l generalizing s with
  | nil => exact h
  | cons a l ih => exact ih (hf _ _ h)

/-- Neither does a draw. -/
theorem plain_joinMoves (b : Bump) (ms : List Moved) {s : State} (h : Plain s) : Plain (joinMoves s b ms).2 := by
  unfold joinMoves
  generalize hp : (b, s) = p
  replace h : Plain p.2 := hp ▸ h
  clear hp
  induction ms generalizing p with
  | nil => exact h
  | cons m ms ih => exact ih _ (by dsimp only; split <;> exact h)

theorem plain_bumpTile {s : State} (h : Plain s) (who c : Nat) : Plain (bumpTile s who c) := by
  unfold bumpTile
  split
  · exact h
  · exact plain_joinMoves _ _ h

theorem plain_stored {s : State} (h : Plain s) (who : Nat) (cells bs : List Nat) : Plain (bumpLines (writeCells s cells bs) who cells) :=
  plain_foldl _ (fun t g ht => plain_bumpTile ht _ _) _ <| by
    have h1 : Plain (writeBytes s cells bs) := plain_foldl _ (fun t (e : Nat × Nat) ht => by split <;> exact ht) _ h
    exact ⟨h1.1, by simp [writeCells, clearPoison, h1.2]⟩

theorem wit_ContextSaveAndRestore_context (s : State) (h : s.slot 8320 = wSaving.slot 8320) (hp : Plain s) :
    ∃ e s1, saveContext s 8320 task0 = some (e, s1) ∧ Plain s1 := by
  have hf : ∀ t : State, t.launches = [] → frameAt t task0 = 0 := fun t ht => by simp only [frameAt, launchOf, ht]; rfl
  have hs : (s.slot 8320).saveptr.toNat = 0xF000000001000 := by rw [h]; decide +kernel
  have ha : (s.slot 8320).accDue = false := by rw [h]; decide +kernel
  have hb := length_saveBytes s 8320
  have hx := length_extBytes (s.slot 8320)
  have hu : Plain (saveBytes s 8320).2 := hp
  unfold saveContext
  generalize saveBytes s 8320 = p at hb hu ⊢
  obtain ⟨area, u⟩ := p
  dsimp only at hb hu ⊢
  generalize extBytes (s.slot 8320) = ext at hx ⊢
  have key : ∀ (t : State) (ea : Nat) (bs : List Nat), Plain t →
      (∃ l, saveCells t 8320 ea bs.length 2 = some l) → ∃ t', saveWrite t 8320 ea bs = some t' ∧ Plain t' :=
    fun t ea bs ht ⟨l, e⟩ => ⟨_, by simp only [saveWrite, e]; rfl, plain_stored ht 8320 l bs⟩
  obtain ⟨t1, w1, p1⟩ := key u (localEa 0xF000000001000) area hu (hb ▸ window_cells u 0x3F8 _ 2 (by decide) (by decide))
  obtain ⟨t2, w2, p2⟩ := key t1 (localEa 0) ext p1 (hx ▸ physical_cells t1 6288 _ 2 (by decide) (by decide))
  have w3 := fun x => key t2 ((localEa 0xF000000001000 + 0x3F8) % 2 ^ 64) (bytesOf 8 x) p2
    ((bytesOf_length 8 x).symm ▸ window_cells t2 8 _ 2 (by decide) (by decide))
  generalize saveWrite = write at w1 w2 w3 ⊢
  obtain ⟨t3, w3, p3⟩ := w3 (Config.checkWord (area ++ ext)).toNat
  rw [hs, ha, hf s hp.1, w1, Option.bind_eq_bind, Option.bind_some, w2, Option.bind_some,
    if_neg Bool.false_ne_true, Option.bind_some, w3, Option.bind_some]
  exact ⟨_, _, rfl, p3⟩

/-- The TCM image of the task is written in any state without launches and poison. -/
theorem saveImage_some (s : State) (h : Plain s) : ∃ s2, saveImage s 8320 task0 = some s2 := by
  obtain ⟨l, e⟩ := physical_cells s 4096 (localEa 0x10000) 2 (by decide) (by decide)
  have hf : frameAt s task0 = 0 := by simp only [frameAt, launchOf, h.1]; rfl
  have hl : (cellBytes s (bankCell 8320 task0) (task0.tcm * 4096)).length = 4096 := by simp [cellBytes, task0]
  have hr : ∀ a b, rangePoisoned s a b = false := fun a b => by simp [rangePoisoned, h.2]
  exact ⟨bumpLines (writeCells s l _) 8320 l, by simp only [saveImage, hr, saveWrite, hl, hf]; rw [e]; rfl⟩

theorem wit_ContextSaveAndRestore_image :
    (∃ e s1, saveContext wSaving wSaving.cur task0 = some (e, s1)) ∧ (∃ s2, keepImage wSaving wSaving.cur task0 = some s2) ∧
    unitSlots wSaving wSaving.cur task0 = [wSaving.cur] ∧ wSaving.me.st = .running := by
  have hc : wSaving.cur = 8320 := by decide +kernel
  have hp : Plain wSaving := by decide +kernel
  have hd : drainStores wSaving 8320 = wSaving := by
    have : (wSaving.slot 8320).sb = [] := by decide +kernel
    simp only [drainStores, this]
  obtain ⟨e, s1, he, p1⟩ := wit_ContextSaveAndRestore_context wSaving rfl hp
  obtain ⟨s2, h2⟩ := saveImage_some { dropContext s1 8320 with pre := (dropContext s1 8320).pre ++ [e] } p1
  rw [hc]
  exact ⟨⟨e, s1, he⟩, ⟨s2, by unfold keepImage keepContext; rw [hd, he]; exact h2⟩, by decide +kernel, by decide +kernel⟩

theorem wit_ContextSaveAndRestore_restore :
    (∀ b ∈ [0, 1], (wSaved 0x400 b).NoPrefix ∧ (wSaved 0x400 b).me.mode = true ∧ (wSaved 0x400 b).me.inh = true ∧
      (wSaved 0x400 b).me.task = some task0 ∧
      (wSaved 0x400 b).pre.find? (fun f => !f.out && f.home == (wSaved 0x400 b).cur) = some (wCtx 0x400 b) ∧
      saveRead (wSaved 0x400 b) 0 (localEa (wSaved 0x400 b).me.saveptr.toNat) 0x400 = some (List.replicate 0x400 0) ∧
      saveRead (wSaved 0x400 b) 0 (localEa (frameAt (wSaved 0x400 b) task0)) ((wCtx 0x400 b).bytes.length - 0x3F8) =
        some (List.replicate 8 0)) ∧
    (List.replicate 0x400 0).take 0x3F8 ++ List.replicate 8 0 = (wCtx 0x400 0).bytes ∧
    numOf ((List.replicate 0x400 0).drop 0x3F8) = (wCtx 0x400 0).check.toNat ∧
    (List.replicate 0x400 0).take 0x3F8 ++ List.replicate 8 0 ≠ (wCtx 0x400 1).bytes := by
  decide +kernel

theorem wit_ContextSaveAndRestore_wait :
    wTeams.NoPrefix ∧ wTeams.me.mode = true ∧ wTeams.me.inh = true ∧ wTeams.me.task = some { task0 with kind := 1 } ∧ 1 < 2 ∧
    4 ∈ unitSlots wTeams wTeams.cur { task0 with kind := 1 } ∧ 4 ≠ wTeams.cur ∧ leaveReady wTeams 4 = false ∧
    mxOut wTeams wTeams.cur = false ∧ recordPending wTeams wTeams.cur = false := by decide +kernel

/-! Memory -/

theorem accessible_of {s : State} {ea size align kind order : Nat} {cells : List Nat}
    (h : isRemote s ea = false ∧ ea % align = 0 ∧ localCells s s.cur s.me.mode ea size kind order = .ok cells ∧
      (∀ c ∈ cells, guarded s c = false ∧ poisoned s c = false) ∧ s.me.sb = [] ∧ asleep s cells = false) :
    Accessible s ea size align kind order cells := ⟨h.1, h.2.1, h.2.2.1, h.2.2.2.1, h.2.2.2.2.1, h.2.2.2.2.2⟩

theorem storable_of {s : State} {cells : List Nat}
    (h : s.MemWf ∧ cells.Nodup ∧ ∀ c ∈ cells, isTarn c = false) : Storable s cells :=
  ⟨h.1, h.2.1, fun c hc ht => absurd ht (by simp [h.2.2 c hc])⟩

/-- `n` cells from `a` on. -/
def run (a n : Nat) : List Nat := (List.range n).map (a + ·)

/-- A Sumac slot with s6 at 0x1000 and s7 = 2, a few bytes there. -/
def wMem : State := mem (su fun x => ((x.ws 6 0x1000).ws 7 2).ws 5 0x80) [(0x1010, 0x80), (0x1017, 0xFF)]

theorem wit_LocalLoadsReturnTheBytes :
    wMem.NoPrefix ∧ wMem.late = false ∧ 1 ≤ 1 ∧
    (∀ w, w < 8 → Accessible wMem (memAddr wMem.me 6 1 w) (memSize w) (memAlign (memSize w) 1) 1 1
      (run (0x1000 + memSize w) (memSize w))) ∧
    ∀ w, w < 8 → Accessible wMem (idxAddr wMem.me 6 7 1 w) (memSize w) (memAlign (memSize w) 0) 1 0
      (run (0x1000 + 2 * memSize w) (memSize w)) := by
  refine ⟨by decide +kernel, by decide +kernel, by decide, fun w h => accessible_of ?_, fun w h => accessible_of ?_⟩ <;>
    revert w <;> decide +kernel

/-- With answers late, stores held and these SC operations announced. -/
def wSc (l : List ScOp) : State := { wMem with late := true, hold := true, sc := l }

theorem wit_SequentiallyConsistentAccesses :
    (∀ l ∈ [[], [(⟨0, 2090, 0, 8360⟩ : ScOp)]], (wSc l).NoPrefix ∧ scMayAct (wSc l) (wSc l).cur = l.isEmpty ∧
      Storable (wSc l) (run 0x1000 8) ∧ Accessible (wSc l) (wSc l |>.me.rs 6).toNat 8 8 3 3 (run 0x1000 8) ∧
      Accessible (wSc l) (memAddr (wSc l).me 6 0 6) (memSize 6) (memAlign (memSize 6) 3) 1 3 (run 0x1000 8) ∧
      Accessible (wSc l) (memAddr (wSc l).me 6 0 6) (memSize 6) (memAlign (memSize 6) 3) 2 3 (run 0x1000 8)) ∧
    (∀ w, w < 8 → Accessible (wSc []) (memAddr wMem.me 6 1 w) (memSize w) (memAlign (memSize w) 3) 1 3
      (run (0x1000 + memSize w) (memSize w))) ∧
    (∀ w ∈ [0, 2, 4, 6, 7], Storable (wSc []) (run (0x1000 + memSize w) (memSize w)) ∧
      Accessible (wSc []) (memAddr wMem.me 6 1 w) (memSize w) (memAlign (memSize w) 3) 2 3 (run (0x1000 + memSize w) (memSize w))) ∧
    Storable (wSc []) (run 0x1000 16) ∧ Accessible (wSc []) (wMem.me.rs 6).toNat 16 16 3 3 (run 0x1000 16) := by
  refine ⟨fun l h => ⟨?_, ?_, storable_of ?_, accessible_of ?_, accessible_of ?_, accessible_of ?_⟩, fun w h => accessible_of ?_,
    fun w h => ⟨storable_of ?_, accessible_of ?_⟩, storable_of ?_, accessible_of ?_⟩
  all_goals first | decide +kernel | (revert l; decide +kernel) | (revert w; decide +kernel)

theorem wit_AddressesAndAccessTraps :
    wMem.NoPrefix ∧ (0 : Nat) ≠ 2 ∧ (0 : Nat) ≠ 1 ∧ memAddr (wMem.setSlot 8320 (wMem.me.ws 6 0x1001)).me 6 0 6 % 8 ≠ 0 ∧
    (wMem.setSlot 8320 (wMem.me.ws 6 0x1001)).NoPrefix ∧ ((wMem.setSlot 8320 (wMem.me.ws 6 0x1008)).me.rs 6).toNat % 16 ≠ 0 := by
  decide +kernel

/-- A Sumac slot whose s6 names the Tarn of cluster 1, which is in state `c`. -/
def wSleep (c : Nat) : State := (su fun x => x.ws 6 0xF000200400000).modCluster 1 fun y => { y with cur := c }

/-- A Sumac slot whose s6 names an address of node 5. -/
def wRemote : State := su fun x => x.ws 6 0x0050000000001000

/-- Slot 0 (s6, s7 the address `a`) of a tenant whose page table, at 0x8000, has a leaf of 512 MiB at address 0, its permissions and place
`top` in the highest byte of its entry. -/
def wWalk (top a : Nat) : State :=
  (mem (wk fun x => (x.ws 6 (BitVec.ofNat 64 a)).ws 7 (BitVec.ofNat 64 a)) [(0x8002, 1), (0x8007, 0x80), (0x10007, top)]).modVi 0 fun v =>
    { v with ptbr := 0x8001 }

theorem wit_AddressesAndAccessTraps_pages :
    (∀ e ∈ [(0xC0, none), (0x40, none), (0xE0, none), (0xF0, some 0x1000), (0xF4, some (hostBase + 0x1000))], let s := wWalk e.1 0x1000
     s.NoPrefix ∧ isSumac s.cur = false ∧ s.tlb = [] ∧ memAddr s.me 6 0 6 = 0x1000 ∧ 0x1000 % 8 = 0 ∧ isRemote s 0x1000 = false ∧
     0x1000 % 2 ^ 52 < winBase ∧
     walk s s.me.vi (0x1000 % 2 ^ 52) = if e.1 = 0x40 then none else some (e.1 * 2 ^ 56, 2 ^ 29)) ∧
    (let s := wRemote
     s.NoPrefix ∧ memAddr s.me 6 0 6 % 8 = 0 ∧ isRemote s (memAddr s.me 6 0 6) = true ∧ (s.me.rs 6).toNat % 8 = 0) := by decide +kernel

/-- Slot 0 at page 1 of its own TCM, the regions of its core as `l` says. -/
def wTcm (l : List (Nat × Nat)) : State :=
  (wk fun x => x.ws 6 (BitVec.ofNat 64 (winBase + 0x1008))).modCore 0 fun c => { c with trgn := l.map fun e => (e.1, BitVec.ofNat 64 e.2) }

/-- An enabled region of every slot: bank 3 in window page 1. -/
def trgn0 (perm : Nat) : Nat := 2 ^ 63 + 0xF * 2 ^ 59 + perm * 2 ^ 57 + 3 * 2 ^ 12 + 4 * 2 ^ 8 + 1 * 2 ^ 4

theorem wit_AddressesAndAccessTraps_protection :
    (∀ l ∈ [[], [(2, trgn0 0)], [(2, trgn0 3), (5, trgn0 0)]], let s := wTcm l
     s.NoPrefix ∧ isWorker s.cur = true ∧ memAddr s.me 6 0 6 % 2 ^ 52 = winBase + 0x1008 ∧ 0x1008 < 0x10000 ∧ 0x1008 % 8 = 0 ∧
     s.me.mode = false ∧
     ∀ i < 8, (let g := ((s.core 0).trgn.get i 0).toNat
       bit g 63 = true ∧ bit g (59 + 0 % 4) = true ∧ bits g 15 12 ≤ bits g 11 8 ∧ bits g 7 4 ≤ 1 ∧ 1 + bits g 15 12 ≤ bits g 7 4 + bits g 11 8) ↔
       i ∈ l.map Prod.fst) ∧
    bit (trgn0 0) 57 = false ∧ bit (trgn0 0) 58 = false ∧ bit (trgn0 3) 57 = true ∧ bit (trgn0 3) 58 = true ∧
    (wk fun x => { x with mode := true }).me.mode = true := by decide +kernel

/-- Slot 0 at the second doubleword of its Tarn, whose first granule is guarded. -/
def wGuard (r : Option Trap) : State :=
  mem (wk fun x => { x.ws 6 (BitVec.ofNat 64 (winBase + 0x1000000 + 8)) with report := r }) [(gmapBase 0, 1), (tarnBase 0 + 9, 7)]

theorem wit_AddressesAndAccessTraps_guards :
    (0 : Nat) < 128 ∧ 2 ^ 22 - 1 < 2 ^ 22 ∧
    ∀ r ∈ [none, some { code := 0x06 }], let s := wGuard r
      s.NoPrefix ∧ s.late = false ∧ s.hold = false ∧ s.me.sb = [] ∧ s.me.report = r ∧ isRemote s (memAddr s.me 6 0 6) = false ∧
      memAddr s.me 6 0 6 % 8 = 0 ∧ asleep s (run (tarnBase 0 + 8) 8) = false ∧
      (run (tarnBase 0 + 8) 8).find? (guarded s) = some (tarnBase 0 + 8) ∧
      localCells s s.cur s.me.mode (memAddr s.me 6 0 6) 8 1 0 = .ok (run (tarnBase 0 + 8) 8) ∧
      localCells s s.cur s.me.mode (memAddr s.me 6 0 6) 8 2 0 = .ok (run (tarnBase 0 + 8) 8) ∧
      (∀ x ∈ run (tarnBase 0 + 8) 8, poisoned s x = false) ∧ s.MemWf ∧ (run (tarnBase 0 + 8) 8).Nodup ∧ (s.cluster 0).mrb = [] := by
  decide +kernel

theorem wit_LoadsWaitForTheirData :
    ({ wMem with late := true }).NoPrefix ∧ ({ wMem with late := true }).late = true ∧
    Accessible { wMem with late := true } (memAddr wMem.me 6 1 6) 8 8 1 0 (run 0x1008 8) ∧
    (net wRemote).NoPrefix ∧ isRemote (net wRemote) (memAddr (net wRemote).me 6 0 6) = true ∧
    memAddr (net wRemote).me 6 0 6 % 8 = 0 ∧ usablePorts (net wRemote) (memAddr (net wRemote).me 6 0 6 / 2 ^ 52) ≠ [] ∧
    usablePorts wRemote (memAddr wRemote.me 6 0 6 / 2 ^ 52) = [] ∧
    (let s := wRemote.modSlot 8320 fun x => { x with st := .interlocked (.remote (.ld 5 6 0 0) [⟨0, 5, 0x50000000001000⟩]) }
     (s.slot 8320).st = .interlocked (.remote (.ld 5 6 0 0) [⟨0, 5, 0x50000000001000⟩]) ∧ (s.slot 8320).pfx = none ∧ (s.slot 8320).frame = none ∧
     isRemote s (memAddr (s.slot 8320) 6 0 6) = true ∧ memAddr (s.slot 8320) 6 0 6 % 8 = 0) ∧
    (let s := wMem.modSlot 8320 fun x => { x with st := .interlocked (.answer (.ld 5 6 0 2)) }
     (s.slot 8320).st = .interlocked (.answer (.ld 5 6 0 2)) ∧ (s.slot 8320).pfx = none ∧ (s.slot 8320).frame = none ∧
     (s.slot 8320).sb = [] ∧ isRemote s (memAddr (s.slot 8320) 6 2 6) = false ∧ memAddr (s.slot 8320) 6 2 6 % 8 = 0 ∧
     localCells s 8320 (s.slot 8320).mode (memAddr (s.slot 8320) 6 2 6) 8 1 0 = .ok (run 0x1010 8) ∧
     (∀ c ∈ run 0x1010 8, guarded s c = false ∧ poisoned s c = false) ∧ asleep s (run 0x1010 8) = false) ∧
    (∀ c ∈ [0, 1], let s := wSleep c
     s.NoPrefix ∧ isRemote s (memAddr s.me 6 0 6) = false ∧ memAddr s.me 6 0 6 % 8 = 0 ∧
     localCells s s.cur s.me.mode (memAddr s.me 6 0 6) 8 1 0 = .ok (run (tarnBase 1) 8) ∧
     asleep s (run (tarnBase 1) 8) = decide (c = 1)) :=
  ⟨by decide +kernel, by decide +kernel, accessible_of (by decide +kernel), by decide +kernel, by decide +kernel, by decide +kernel,
    by decide +kernel, by decide +kernel, by decide +kernel, by decide +kernel, by decide +kernel⟩

theorem wit_LocalStoresWriteTheBytes :
    wMem.NoPrefix ∧ wMem.hold = false ∧
    (∀ w ∈ [0, 2, 4, 6, 7], Storable wMem (run (0x1000 + memSize w) (memSize w)) ∧
      Accessible wMem (memAddr wMem.me 6 1 w) (memSize w) (memAlign (memSize w) 2) 2 2 (run (0x1000 + memSize w) (memSize w)) ∧
      Accessible wMem (idxAddr wMem.me 6 7 1 w) (memSize w) (memAlign (memSize w) 0) 2 0
        (run (0x1000 + 2 * memSize w) (memSize w))) := by
  refine ⟨by decide +kernel, by decide +kernel, fun w h => ⟨storable_of ?_, accessible_of ?_, accessible_of ?_⟩⟩ <;>
    revert w <;> decide +kernel

/-- Stores held: entries of the store buffer, `n` of them, each of its own doubleword. -/
def wHeld (n : Nat) : State :=
  { wMem with hold := true }.modSlot 8320 fun x =>
    { x with sb := (List.range n).map fun j => ⟨0x2000 + 8 * j, run (0x2000 + 8 * j) 8, j, none, 0, 0, []⟩ }

theorem wit_StoreBufferHoldsAndDrains :
    (∀ n ∈ [0, 15, 16], (wHeld n).NoPrefix ∧ (wHeld n).hold = true ∧ isRemote (wHeld n) (memAddr (wHeld n).me 6 1 6) = false ∧
      memAddr (wHeld n).me 6 1 6 % 8 = 0 ∧
      localCells (wHeld n) 8320 (wHeld n).me.mode (memAddr (wHeld n).me 6 1 6) 8 2 0 = .ok (run 0x1008 8) ∧
      asleep (wHeld n) (run 0x1008 8) = false) ∧
    (wHeld 15).me.sb.length < storeBufferSize ∧ storeBufferSize ≤ (wHeld 16).me.sb.length ∧
    ((wHeld 2).slot 8320).sb[1]? = some ⟨0x2008, run 0x2008 8, 1, none, 0, 0, []⟩ ∧ Storable (wHeld 2) (run 0x2008 8) ∧
    (∀ c ∈ run 0x2008 8, guarded (wHeld 2) c = false) ∧
    (∀ q ∈ ((wHeld 2).slot 8320).sb.take 1, ∀ c ∈ q.cells, c ∉ run 0x2008 8) ∧ asleep (wHeld 2) (run 0x2008 8) = false ∧
    (let s := { wSleep 1 with hold := true }
     s.NoPrefix ∧ isRemote s (memAddr s.me 6 0 6) = false ∧ memAddr s.me 6 0 6 % 8 = 0 ∧
     localCells s s.cur s.me.mode (memAddr s.me 6 0 6) 8 2 0 = .ok (run (tarnBase 1) 8) ∧ asleep s (run (tarnBase 1) 8) = true) :=
  ⟨by decide +kernel, by decide +kernel, by decide +kernel, by decide +kernel, storable_of (by decide +kernel), by decide +kernel,
    by decide +kernel, by decide +kernel, by decide +kernel⟩

theorem wit_FencesDrainWhatTheyOrder :
    wMem.NoPrefix ∧ wMem.late = false ∧ wMem.me.sb = [] ∧ wMem.me.sent = [] ∧ 4 ≤ 4 ∧ 3 ≤ 4 ∧ 2 < 3 ∧ 4 < 5 ∧
    (wHeld 1).NoPrefix ∧ (wHeld 1).me.sb ≠ [] ∧
    (let s := (wHeld 1).modSlot 8320 fun x => { x with st := .interlocked (.fence 2 4) }
     (s.slot 8320).st = .interlocked (.fence 2 4) ∧ (s.slot 8320).frame = none ∧ s.NoPrefix) ∧
    (let s := wMem.modSlot 8320 fun x => { x with st := .interlocked (.fence 0 4) }
     (s.slot 8320).st = .interlocked (.fence 0 4) ∧ (s.slot 8320).frame = none ∧ scMayEnd s 8320 = true) ∧
    scMayEnd wMem wMem.cur = true ∧ scMayEnd { wMem with sc := [⟨0, 2090, 0, 8360⟩] } wMem.cur = false ∧
    (let s := wMem.modSlot 8320 fun x => { x with st := .interlocked (.fence 0 4), sent := [⟨0, 5, 0, 0, false⟩] }
     (s.slot 8320).st = .interlocked (.fence 0 4) ∧ (s.slot 8320).frame = none ∧ (s.slot s.cur).sent = [⟨0, 5, 0, 0, false⟩] ∧
     (s.slot s.cur).appends = []) := by decide +kernel

theorem wit_AtomicsReadModifyWrite :
    wMem.NoPrefix ∧ wMem.hold = false ∧ wMem.late = false ∧ 2 < 3 ∧
    (∀ p ∈ [(0, 4), (1, 8)], Storable wMem (run 0x1000 p.2) ∧ Accessible wMem (wMem.me.rs 6).toNat p.2 p.2 3 2 (run 0x1000 p.2)) ∧
    Storable wMem (run 0x1000 16) ∧ Accessible wMem (wMem.me.rs 6).toNat 16 16 3 2 (run 0x1000 16) := by
  refine ⟨by decide +kernel, by decide +kernel, by decide +kernel, by decide, fun p h => ⟨storable_of ?_, accessible_of ?_⟩,
    storable_of ?_, accessible_of ?_⟩
  · revert p; decide +kernel
  · revert p; decide +kernel
  · decide +kernel
  · decide +kernel

/-- The event at index 0 of cluster 0's resolver, live, its parties `ps`. -/
def withEv (s : State) (v : Ev) : State := modEv s 0 0 fun _ => { v with live := true }

/-- A Sumac slot whose e3 is bound to an event of its remote agent, s6 the place of a status word, s7 a batch's address, with a store
batch of tag 2 that touched node 5. -/
def wBatch : State :=
  net (withEv (mem (su fun x =>
    { ((x.ws 6 0x1000).ws 7 0x1100).ws 8 0x0050000000002000 with
      evb := [(3, 0x40000000)], batches := [⟨2, [(5, 0)], [⟨5, 8320, 0⟩]⟩] }) [(0x110D, 1), (0x110E, 8)])
    { parties := [partyOf State.reset 1 8320] })

/-- With a close of tag 2 and an append under way. -/
def wPending : State :=
  wBatch.modSlot 8320 fun x =>
    { x with
      closes := [⟨⟨2, [(5, 0)], [⟨5, 8320, 0⟩]⟩, 0x1000, some ⟨0, 0, 0⟩, 0x1000, 1⟩]
      sent := [⟨0, 5, 0, 2, true⟩]
      appends := [⟨0x1008, some ⟨0, 0, 0⟩, 5, 8320, 7, none, 0x1008, none, 0⟩] }

theorem wit_BatchesCloseAndAppendsReturn_close :
    wBatch.NoPrefix ∧ wBatch.me.frame = none ∧ 2 ≤ 3 ∧ wBatch.me.sb = [] ∧ wBatch.me.sent = [] ∧
    remoteEvent wBatch 8320 3 = .ok (some ⟨0, 0, 0⟩) ∧ (wBatch.me.rs 6).toNat % 8 = 0 ∧
    localCells wBatch 8320 wBatch.me.mode (wBatch.me.rs 6).toNat 8 2 0 = .ok (run 0x1000 8) ∧
    ((wBatch.me.batches.find? fun c => c.tag == 2).getD ⟨2, [], []⟩).asked = [5] ∧
    ((wBatch.me.batches.find? fun c => c.tag == 1).getD ⟨1, [], []⟩).nodes = [] ∧ wBatch.WordAt 0x1000 ∧
    (∀ c ∈ wBatch.me.closes, c.batch.tag ≠ 2) ∧ usablePorts wBatch 5 ≠ [] ∧ usablePorts { wBatch with ports := [] } 5 = [] ∧
    wPending.NoPrefix ∧ (∃ c ∈ wPending.me.closes, c.batch.tag = 2) ∧ wPending.me.sent ≠ [] ∧ wPending.WordAt 0x1000 ∧ wPending.WordAt 0x1008 ∧
    (∀ c ∈ wPending.me.closes, closeWaits wPending.me c = false ∧ 1 = c.batch.asked.length) ∧
    (wPending.slot 8320).appends[0]? = some ⟨0x1008, some ⟨0, 0, 0⟩, 5, 8320, 7, none, 0x1008, none, 0⟩ ∧ (5 : Nat) ≠ wPending.node ∧
    (3 : Nat) ≠ 0x0D := by
  refine ⟨?_, ?_, ?_, ?_, ?_, ?_, ?_, ?_, ?_, ?_, ⟨?_, ?_⟩, ?_, ?_, ?_, ?_, ?_, ?_, ⟨?_, ?_⟩, ⟨?_, ?_⟩, ?_, ?_, ?_, ?_⟩ <;> decide +kernel

theorem wit_BatchesCloseAndAppendsReturn_append :
    (∀ e ∈ [(5, 0), (5, 1), (0xFFF, 0)],
     let s := wBatch.modSlot 8320 fun x =>
       { (x.ws 6 0x1100).ws 8 (BitVec.ofNat 64 (e.1 * 2 ^ 52 + 0x2000)) with seq := 3, sent := if e.2 = 1 then [⟨2, 5, 0, 0, false⟩] else [] }
     s.NoPrefix ∧ localCells s 8320 s.me.mode (s.me.rs 7).toNat 8 1 0 = .ok (run 0x1100 8) ∧
     localCells s 8320 s.me.mode (s.me.rs 7).toNat 8 2 0 = .ok (run 0x1100 8) ∧
     (readLocal s 8320 (((s.me.rs 7).toNat + 8) % 2 ^ 64) 8 1 0).toOption.map (·.1) = some 0x0008010000000000 ∧
     bits 0x0008010000000000 63 48 = 8 ∧ bits 0x0008010000000000 47 40 = 1 ∧
     (s.me.rs 8).toNat / 2 ^ 52 = e.1 ∧ (s.me.rs 8).toNat % 2 ^ 52 < winBase ∧ usablePorts s 5 ≠ [] ∧ (∀ p ∈ s.me.appends, p.pkt = none) ∧
     ((∃ g ∈ s.me.sent, g.seq < s.me.seq) ↔ e.2 = 1) ∧ ((∀ g ∈ s.me.sent, s.me.seq ≤ g.seq) ↔ e.2 = 0)) ∧
    (readLocal wMem 8320 0x1008 8 1 0).toOption.map (·.1) = some 0 ∧ bits 0 47 40 = 0 := by
  decide +kernel

/-- A close request of node 5 for tag 2 of VI 0 at the interface, with one member meant: number 4 of agent 7. -/
def close0 : Packet := ⟨1, 5, 0, 5 * 2 ^ 13, 0, 9, 2, 0, 1, 0, 7 * 2 ^ 64 + 4, 0⟩

theorem wit_BatchesCloseAndAppendsReturn_answers :
    (let s := { wBatch with ingress := [(1, [close0])] }
     s.ingress.get (0 * 8 + 1) [] = [close0] ∧ close0.op = 5 ∧ 1 < 4) ∧
    (∀ e ∈ [[], [(7, 2, 4, 0x10)]], let s := { wBatch with closing := [close0], errs := e }
     (s.closing.filter fun m => m.vi == 0)[0]? = some close0 ∧ unpackMembers close0.size close0.data = [(7, 4)] ∧
     usablePorts s (bits close0.src 24 13) ≠ [] ∧
     ((∃ x ∈ s.errs, x.1 = 7 ∧ x.2.1 = close0.tag ∧ x.2.2.1 = 4) ↔ e ≠ [])) ∧
    (let s := wRemote.modSlot 8320 fun x => { x with st := .interlocked (.remote (.aadd 5 6 7 0 1) [⟨0, 5, 0x50000000001000⟩]) }
     (s.slot 8320).st = .interlocked (.remote (.aadd 5 6 7 0 1) [⟨0, 5, 0x50000000001000⟩]) ∧ (s.slot 8320).frame = none ∧
     (s.slot 8320).pfx = none ∧ isRemote s ((s.slot 8320).rs 6).toNat = true ∧ ((s.slot 8320).rs 6).toNat % 8 = 0 ∧ 5 % 64 ≠ 0) := by
  decide +kernel

/-! Vectors -/

/-- Slot 0 with the formats `fa`, `fr` in FMT. -/
def wFmt (fa fr : Nat) : State := wk fun x => { x with fmt := BitVec.ofNat 64 (fa * 4096 + fr * 16), task := some task0 }

/-- Slot 0 with a pending prefix that asks for stochastic rounding. -/
def wSr : State := wk fun x => { x with pfx := some 0x30 }

theorem wit_VectorIntegerResults : (wk id).NoPrefix ∧ 0 < 4 ∧ 3 < 4 := by decide +kernel

theorem wit_VectorFloatResults :
    (∀ r, r < 4 → (fmtsOf (wFmt 0 r).me).rnd ≠ 3 ∧ (fmtsOf (wFmt 0 r).me).fr = r ∧ (fmtOf r).isSome) ∧
    (fmtsOf wSr.me).rnd = 3 ∧ (fmtsOf wSr.me).fr < 16 ∧ 4 ≤ (fmtsOf (wFmt 0 15).me).fr ∧ (fmtsOf (wFmt 0 15).me).fr < 16 := by
  decide +kernel

theorem wit_FiniteResultsRound :
    0 < 4 ∧ fmtOf 0 = some fp32 ∧ Rnd.rdn ∈ [Rnd.rne, .rtz, .rup, .rdn] ∧ 0x3F800000 < 2 ^ fp32.w ∧ (fdec fp32 0x3F800000).isFin = true ∧
    0 < (fdec fp32 0x3F800000).rat ∧ (1 : Nat) ≠ 0 := by
  have h : fdec fp32 0x3F800000 = .fin false 8388608 (-23) := by decide +kernel
  refine ⟨by decide, by decide, by decide, by decide +kernel, by rw [h]; rfl, ?_, by decide⟩
  rw [h]
  norm_num [FVal.rat]

theorem wit_FloatSpecialOperands :
    0 < 4 ∧ fmtOf 0 = some fp32 ∧ 0x7F800001 < 2 ^ fp32.w ∧ fdec fp32 0x7F800001 = .nan true ∧ fdec fp32 0x7FC00000 = .nan false ∧
    fdec fp32 0x80000000 = .fin true 0 (-149) ∧ fdec fp32 1 = .fin false 1 (-149) ∧ fdec fp32 0x3F800000 ≠ .nan true ∧
    (fdec fp32 0x7F800001).isNan = true ∧ (fdec fp32 1).isNan = false ∧ fdec fp32 0xFF800000 = .inf true ∧ fdec fp32 0x7F800000 = .inf false ∧
    (fdec fp32 0x80000000).isFin = true ∧ fdec fp32 0 = .fin false 0 (-149) ∧ (0 : Nat) ≠ 0x80000000 := by
  decide +kernel

theorem wit_ComparesSelectsAndPredicates :
    (wFmt 0 3).NoPrefix ∧ 3 < 4 ∧ (fmtsOf (wFmt 0 3).me).rnd ≠ 3 ∧ (fmtsOf (wFmt 0 3).me).fr < 4 ∧
    (fmtOf (fmtsOf (wFmt 0 3).me).fr).isSome ∧ (FVal.fin true 3 (-1)).isFin = true ∧ 7 < 8 ∧ (FVal.nan false).isNan = true := by decide +kernel

theorem wit_ReductionsAndScans :
    3 < 4 ∧ (fmtsOf (wFmt 0 2).me).rnd ≠ 3 ∧ (fmtsOf (wFmt 0 2).me).fr < 4 ∧ (fmtOf (fmtsOf (wFmt 0 2).me).fr).isSome ∧
    ((List.range 16).filter fun j => active ((wFmt 0 2).me.rk 1) 64 j) = [] ∧
    ((List.range 16).filter fun j => active ((wFmt 0 2).me.rk 0) 64 j) ≠ [] := by
  decide +kernel

theorem wit_LaneMoves : (wk id).NoPrefix ∧ 2 ≤ 3 ∧ 15 < 1024 / (8 * 2 ^ 3) ∧ 1024 / (8 * 2 ^ 3) ≤ 16 ∧ 1 < 2 := by decide +kernel

/-- Slot 0 with formats `fa`, `fr`; table A belongs to its launch, table B to none. -/
def wTab (fa fr : Nat) : State := (wFmt fa fr).modCore 0 fun c => { c with tabA := { owner := some (0, 1) } }

theorem wit_ConversionsBlocksAndTables :
    (let g := fmtsOf (wTab 0 4).me
     g.rnd ≠ 3 ∧ g.fa < 16 ∧ g.fr < 16 ∧ isT8 g.fa = false ∧ isT8 g.fr = false ∧ partOk (fmtWidth g.fa) (fmtWidth g.fr) 3 = true) ∧
    (∀ c ∈ [0xD, 0xE], let g := fmtsOf (wTab c 15).me
     g.rnd ≠ 3 ∧ isT8 g.fa = true ∧ g.fr = 15 ∧ 3 < 4) ∧
    (tableOf (wTab 0xD 15) 0 0xD).owner = some (launchKey (wTab 0xD 15).me) ∧
    (tableOf (wTab 0xE 15) 0 0xE).owner ≠ some (launchKey (wTab 0xE 15).me) ∧
    (let g := fmtsOf (wTab 0 0xD).me
     g.rnd ≠ 3 ∧ isT8 g.fr = true ∧ g.fa = 0 ∧ (tableOf (wTab 0 0xD) 0 g.fr).owner = some (launchKey (wTab 0 0xD).me)) ∧
    (∀ c ∈ [4, 6], let g := fmtsOf (wTab 0 c).me
     g.fa = 0 ∧ blockFmt g.fr = true ∧ blockCount g.fr - 1 < blockCount g.fr) ∧
    (∀ c ∈ [4, 6], let g := fmtsOf (wTab c 0).me
     g.rnd ≠ 3 ∧ g.fr = 0 ∧ blockFmt g.fa = true ∧ blockCount g.fa - 1 < blockCount g.fa) ∧
    (wTab 0 0).NoPrefix ∧ (wTab 0 0).me.frame = none ∧ 1 < 2 := by decide +kernel

/-- A Sumac slot with vector accesses at s6 = 0x1000: stride 8 in s7, zero in s8, offsets of the elements in v2, and two active
doublewords (0 and 15) in k1. -/
def wVec : State :=
  mem (su fun x => ((((x.ws 6 0x1000).ws 7 8).ws 8 0).wv 2 (BitVec.ofNat 1024 (2 ^ 960))).wk 1
    (BitVec.ofNat 128 (0xFF + 0xFF * 2 ^ 120))) [(0x1000, 0x80), (0x107F, 0xFF)]

theorem wit_VectorLoadsOfLocalMemory :
    wVec.NoPrefix ∧ wVec.late = false ∧ wVec.me.sb = [] ∧ 1 ≤ 1 ∧ 3 < 4 ∧ 2 ≤ 3 ∧
    (∀ j, j < 16 → active (wVec.me.rk 1) 64 j = true →
      Accessible wVec (wVec.me.rs 6 + wVec.me.rs 8 + BitVec.ofNat 64 (j * 8)).toNat 8 8 1 1 (run (0x1000 + 8 * j) 8) ∧
      Accessible wVec (wVec.me.rs 6 + BitVec.ofNat 64 j * wVec.me.rs 7).toNat 8 8 1 1 (run (0x1000 + 8 * j) 8) ∧
      Accessible wVec (wVec.me.rs 6 + (laneBits (wVec.me.rv 2) 64 j).signExtend 64 * BitVec.ofNat 64 8).toNat 8 8 1 1
        (run (0x1000 + 8 * (if j = 15 then 1 else 0)) 8) ∧
      Accessible wVec (wVec.me.rs 6 + wVec.me.rs 8).toNat 8 8 1 1 (run 0x1000 8)) := by
  refine ⟨by decide +kernel, by decide +kernel, by decide +kernel, by decide, by decide, by decide, fun j h a =>
    ⟨accessible_of ?_, accessible_of ?_, accessible_of ?_, accessible_of ?_⟩⟩ <;> revert a <;> revert j <;> decide +kernel

theorem wit_VectorStoresToLocalMemory :
    wVec.NoPrefix ∧ wVec.hold = false ∧ wVec.me.sb = [] ∧
    ((List.range 16).filter fun j => active (wVec.me.rk 1) 64 j) = [0, 15] ∧
    Storable wVec ([0, 15].flatMap fun j => run (0x1000 + 8 * j) 8) ∧ Storable wVec ([0, 1].flatMap fun j => run (0x1000 + 8 * j) 8) ∧
    ∀ j ∈ [0, 15],
      Accessible wVec (wVec.me.rs 6 + wVec.me.rs 8 + BitVec.ofNat 64 (j * 8)).toNat 8 8 2 2 (run (0x1000 + 8 * j) 8) ∧
      Accessible wVec (wVec.me.rs 6 + BitVec.ofNat 64 j * wVec.me.rs 7).toNat 8 8 2 2 (run (0x1000 + 8 * j) 8) ∧
      Accessible wVec (wVec.me.rs 6 + (laneBits (wVec.me.rv 2) 64 j).signExtend 64 * BitVec.ofNat 64 8).toNat 8 8 2 2
        (run (0x1000 + 8 * (if j = 15 then 1 else 0)) 8) := by
  refine ⟨by decide +kernel, by decide +kernel, by decide +kernel, by decide +kernel, storable_of (by decide +kernel),
    storable_of (by decide +kernel), fun j h => ⟨accessible_of ?_, accessible_of ?_, accessible_of ?_⟩⟩ <;>
    revert j <;> decide +kernel

/-! The matrix engine -/

/-- Die 0 after `c` cycles. -/
def at_ (s : State) (c : Nat) : State := s.modDie 0 fun d => { d with cyc5 := 5 * c }

/-- Slot 0 with e1 bound to its lease event, the arbiter of cluster 0 as `l`. -/
def wLease (l : Lease) : State :=
  (withEv (wk fun x => { x with evb := [(1, 0x40000000)] })
    { parties := [partyOf State.reset 0 0, arbiterParty State.reset 0] }).modCluster 0 fun c => { c with lease := l }

theorem wit_LeaseArbitration_requests :
    (wLease {}).NoPrefix ∧ (wLease {}).me.frame = none ∧ isWorker (wLease {}).cur = true ∧ (wLease {}).me.bound 1 ≠ 0 ∧
    (evOf (wLease {}) (refOfName (wLease {}) 0 ((wLease {}).me.bound 1))).map (fun v => (v.parties, v.plan)) =
      some ([partyOf (wLease {}) 0 0, arbiterParty (wLease {}) 0], 0) ∧
    leaseLive (wLease {}) 0 = false ∧ ((wLease {}).cluster 0).lease.reqs = [] ∧
    leaseLive (wLease { holder := some 0 }) 0 = true ∧ (0, ⟨0, 0, 0⟩) ∈ ((wLease { reqs := [(0, ⟨0, 0, 0⟩)] }).cluster 0).lease.reqs ∧
    (wLease {}).me.bound 2 = 0 ∧ (su id).NoPrefix ∧ isWorker (su id).cur = false := by decide +kernel

theorem wit_LeaseArbitration_arbiter :
    (let s := wLease { reqs := [(5, ⟨0, 0, 0⟩), (0, ⟨0, 0, 0⟩)] }
     let k := (s.cluster 0).lease
     clusterRuns s 0 = true ∧ k.holder = none ∧ k.offered = none ∧ k.ptr < 64 ∧ (0, (⟨0, 0, 0⟩ : EvRef)) ∈ k.reqs ∧ arbiterOut s 0 = false ∧
     arbiterOut { s with msgs := [⟨0, 0, .pull (arbiterParty s 0) 0 0⟩] } 0 = true ∧
     ∀ q ∈ k.reqs, q = (0, (⟨0, 0, 0⟩ : EvRef)) ∨ (0 % 64 + 63 - k.ptr) % 64 < (q.1 % 64 + 63 - k.ptr) % 64) ∧
    (let s := at_ (wLease { reqs := [(0, behalf)], holder := some 3 }) 1024
     let k := (s.cluster 0).lease
     clusterRuns s 0 = true ∧ leaseOver s 0 = true ∧ k.offered = none ∧ k.ptr < 64 ∧ (0, behalf) ∈ k.reqs ∧ behalf.home = 9000 ∧
     arbiterOut s 0 = false ∧
     ∀ q ∈ k.reqs, q = (0, behalf) ∨ (0 % 64 + 63 - k.ptr) % 64 < (q.1 % 64 + 63 - k.ptr) % 64) ∧
    (let s := (at_ (wLease { reqs := [(0, ⟨0, 0, 0⟩)], offered := some (0, 0) }) 64).modHome 0 fun h =>
       { h with regs := [⟨arbiterParty State.reset 0, 0, 0, 0, 0, 0, 0, true, 0, 0, 0⟩] }
     let k := (s.cluster 0).lease
     clusterRuns s 0 = true ∧ k.offered = some (0, 0) ∧ k.reqs.find? (fun q => q.1 == 0) = some (0, ⟨0, 0, 0⟩) ∧
     (s.home 0).regs.find? (fun g => g.party == arbiterParty s 0 && g.idx == 0 && g.gen == 0) =
       some ⟨arbiterParty s 0, 0, 0, 0, 0, 0, 0, true, 0, 0, 0⟩ ∧ 64 ≤ homeCycles s 0 - 0) ∧
    ((at_ (wLease { holder := some 0 }) 1024).cluster 0).lease.holder = some 0 ∧
    1024 ≤ clusterCycles (at_ (wLease { holder := some 0 }) 1024) 0 - 0 := by decide +kernel

/-- Slot 0 with the tiles of its cluster and a live lease; ring 3 holds A panels, ring 7 B panels of its launch, ring 5 is free. -/
def wMx (f : Slot → Slot) : State :=
  (wk fun x => f { x with task := some { task0 with tiles := [0, 1, 2, 3] } }).modCluster 0 fun c =>
    { c with
      lease := { holder := some 0 }
      rings := [(3, { kind := 1, depth := 4, base := 0, owner := some (0, 1), p := 2, c := 0, pr := 2, cr := 0 }),
        (7, { kind := 2, depth := 4, base := 4096, owner := some (0, 1), p := 2, c := 0, pr := 2, cr := 0 })] }

/-- FMT of an MMA of E4M3 operands into FP32, and of slices of FP64 into FP64. -/
def wMma : State := wMx fun x => { x with fmt := 0x5500 }

theorem wit_MatrixCommandsAreAccepted_rings :
    (let s := wMx fun x => x.ws 15 (BitVec.ofNat 64 (2 ^ 63 + 4096 + 3 * 2 ^ 32))
     isWorker s.cur = true ∧ s.me.frame = none ∧ eventField s s.cur 0 0 3 = .ok none ∧ s.NoPrefix ∧
     ringBad (s.me.rs 15).toNat = false ∧ (s.ring 0 5).kind = 0 ∧ (s.ring 0 7).owner = some (launchKey s.me) ∧
     (s.cluster 0).mx ++ heldCommands s 0 = [] ∧ s.me.sb = [] ∧ (s.cluster 0).mx.length < 64 ∧ s.me.held = []) ∧
    (∀ m ∈ [1, 2], let s := wMx fun x => x.ws 15 (BitVec.ofNat 64 m)
     s.NoPrefix ∧ (s.ring 0 3).kind ≠ 0 ∧ (s.ring 0 3).owner = some (launchKey s.me) ∧ 1 ≤ (s.me.rs 15).toNat % 2 ^ 32 ∧
     (s.me.rs 15).toNat % 2 ^ 32 ≤ 256 ∧ unreserved (s.ring 0 3) + (s.me.rs 15).toNat % 2 ^ 32 ≤ (s.ring 0 3).depth ∧
     (s.me.rs 15).toNat % 2 ^ 32 ≤ unreserved (s.ring 0 3)) := by decide +kernel

theorem wit_MatrixCommandsAreAccepted_products :
    (fmtsOf wMma.me).rnd ≠ 3 ∧ mmaFormats (fmtsOf wMma.me) = .ok () ∧ isT8 (fmtsOf wMma.me).fa = false ∧
    isT8 (fmtsOf wMma.me).fb = false ∧ (tilesOf wMma.me)[3]? = some 3 ∧ wideOf wMma.me = none ∧ (wMma.ring 0 3).kind = 1 ∧
    (wMma.ring 0 3).owner = some (launchKey wMma.me) ∧ (wMma.ring 0 7).kind = 2 ∧ (wMma.ring 0 7).owner = some (launchKey wMma.me) ∧
    1 ≤ unreserved (wMma.ring 0 3) ∧ 1 ≤ unreserved (wMma.ring 0 7) ∧ (wMma.cluster 0).mx.length < 64 ∧ leaseLive wMma 0 = true ∧
    (let s := wMx fun x => x.ws 1 (BitVec.ofNat 64 (winBase + 0x1000000 + 0x3FF000))
     (fmtsOf s.me).rnd ≠ 3 ∧ (fmtsOf s.me).fr = 0 ∧ s.NoPrefix ∧ (tilesOf s.me)[0]? = some 0 ∧ wideOf s.me = none ∧
     (s.me.rs 1).toNat % 2 ^ 52 = winBase + 0x1000000 + 0x3FF000 ∧ 0x3FF000 % 128 = 0 ∧ 0x3FF000 + 4096 ≤ 2 ^ 22) := by
  decide +kernel

/-- Slot 0 in wide mode of two digits, slices of FP64, s1 a slice descriptor block in the Tarn of one row of one element at offset 0,
its exponents at 0x100; s2 the operands of MSPLIT into ring 3. -/
def wSlice : State :=
  mem ((wMx fun x =>
    { ((x.ws 1 (BitVec.ofNat 64 (winBase + 0x1000000 + 0x200))).ws 2 3) with
      fmt := 0x1010, task := some { task0 with tiles := [0, 1, 2, 3], wide := some 2 } }))
    [(tarnBase 0 + 0x210, 1), (tarnBase 0 + 0x219, 1)]

theorem wit_MatrixCommandsAreAccepted_slices :
    (fmtsOf wSlice.me).rnd ≠ 3 ∧ (fmtsOf wSlice.me).fa ≤ 1 ∧
    (readSdb wSlice 0 (wSlice.me.rs 1).toNat).toOption.map (·.1) = some (2 ^ 128 + 0x100 * 2 ^ 192) ∧
    sdbBad (2 ^ 128 + 0x100 * 2 ^ 192) (sliceElem (fmtsOf wSlice.me).fa) = false ∧
    (let z := (wSlice.me.rs 2).toNat
     let r := wSlice.ring 0 (z % 16)
     bits z 10 8 + 1 = 1 ∧ bits z 63 11 = 0 ∧ bits z 7 4 = 0 ∧ r.kind ≠ 0 ∧ r.owner = some (launchKey wSlice.me) ∧
     unreserved r + 1 * ((sdbK (2 ^ 128 + 0x100 * 2 ^ 192) + 95) / 96) ≤ r.depth) := by decide +kernel

theorem wit_MatrixCommandsAreAccepted_finish :
    (let s := wSlice.modSlot 0 fun x => (x.ws 3 0x3FE000).ws 4 (BitVec.ofNat 64 (0x3FFFC0 + 0x40 * 2 ^ 32))
     (fmtsOf s.me).rnd ≠ 3 ∧ (fmtsOf s.me).fr ≤ 1 ∧ wideOf s.me = some 2 ∧ (fmtsOf s.me).fr = 1 ∧ bits (s.me.rs 3).toNat 63 22 = 0 ∧
     (s.me.rs 3).toNat % 128 = 0 ∧ (s.me.rs 3).toNat + 1024 * 8 ≤ 2 ^ 22 ∧
     (let z := (s.me.rs 4).toNat
      bits z 63 54 = 0 ∧ bits z 31 22 = 0 ∧ bits z 21 0 % 64 = 0 ∧ bits z 53 32 % 64 = 0 ∧ bits z 21 0 + 64 ≤ 2 ^ 22 ∧
      bits z 53 32 + 64 ≤ 2 ^ 22)) := by decide +kernel

/-- Slot 0 with the parameter word of an MSMM of two digits in s1 and its save area at 0x20000 (s2); its core maps low device memory
onto itself. -/
def wMsmm : State :=
  { wMx fun x => (x.ws 1 (BitVec.ofNat 64 (0x173))).ws 2 0x20000 with
    tlb := [⟨0, 0, 0, 2 ^ 29, 0xF800000000000000⟩], vis := [(0, { ptbr := 1 })] }

theorem wit_MatrixCommandsAreAccepted_msmm :
    wMsmm.NoPrefix ∧ 4 ≤ (tilesOf wMsmm.me).length ∧ bit (wMsmm.me.rs 1).toNat 11 = false ∧ bits (wMsmm.me.rs 1).toNat 63 26 = 0 ∧
    bits (wMsmm.me.rs 1).toNat 15 12 = 0 ∧ bits (wMsmm.me.rs 1).toNat 10 8 + 1 = 2 ∧
    (let A := wMsmm.ring 0 (bits (wMsmm.me.rs 1).toNat 3 0)
     let B := wMsmm.ring 0 (bits (wMsmm.me.rs 1).toNat 7 4)
     A.kind = 1 ∧ A.owner = some (launchKey wMsmm.me) ∧ B.kind = 2 ∧ B.owner = some (launchKey wMsmm.me) ∧ 2 ≤ A.depth ∧
     2 ≤ B.depth ∧ 2 ≤ unreserved A ∧ 2 ≤ unreserved B) ∧ (wMsmm.me.rs 2).toNat % 128 = 0 := by decide +kernel

/-- The save area of that MSMM has 16,512 cells, all of device memory. -/
theorem wit_MatrixCommandsAreAccepted_saveArea :
    ∃ l, localCells wMsmm 0 wMsmm.me.mode 0x20000 16512 2 0 = .ok l ∧ ∀ c ∈ l, isDev c = true := by
  obtain ⟨l, e, q⟩ := localCells_ok wMsmm 0 wMsmm.me.mode (fun a => a) 0x20000 (2 ^ 29) (by decide) (by decide) (fun _ _ _ _ => rfl)
    16512 0x20000 2 0 (Nat.le_refl _) (by decide) (fun a h1 h2 => by
      have h3 : a % 2 ^ 52 = a := by omega
      have h4 : isRemote wMsmm a = false := by
        have hn : wMsmm.node = 0 := rfl
        have : a / 2 ^ 52 % 2 ^ 12 = 0 := by omega
        unfold isRemote; rw [this, hn]; simp
      have h5 : ¬ winBase ≤ a := by simp only [winBase]; omega
      have h6 : translated wMsmm (coreOf 0) (wMsmm.slot 0).vi a 2 = .ok a := by
        have ht : Machine.translate wMsmm (coreOf 0) (wMsmm.slot 0).vi a = some (0xF800000000000000, 2 ^ 29) := by
          have hv : (wMsmm.slot 0).vi = 0 := by decide +kernel
          have hl : wMsmm.tlb = [⟨0, 0, 0, 2 ^ 29, 0xF800000000000000⟩] := rfl
          have hc : coreOf 0 = 0 := rfl
          have h62 : bit 0xF800000000000000 62 = true := by decide
          have hen : bit (wMsmm.vif 0).ptbr.toNat 0 = true := by decide +kernel
          simp only [Machine.translate, Leaf.covers, hl, hv, hc, h62, hen, List.find?_cons]
          rw [show decide (a < 0 + 2 ^ 29) = true from decide_eq_true (by omega)]
          simp
        have hm : a % 2 ^ 29 = a := by omega
        have hb : bits 0xF800000000000000 51 8 * 2 ^ 8 = 0 := by decide
        have hp : permitted 0xF800000000000000 2 = true := by decide
        have h58 : bit 0xF800000000000000 58 = false := by decide
        simp only [translated, ht, hm, hb, hp, h58, Bool.not_true, Bool.false_and, Bool.false_eq_true, if_false, Nat.zero_add]
      simp only [targetOf, h3, if_neg h5, h4, h6]
      rfl)
  exact ⟨l, e, fun c hc => by obtain ⟨a, -, h, rfl⟩ := q c hc; simp only [isDev]; exact decide_eq_true (by omega)⟩

/-- In a memory that lists nothing no byte is guarded. -/
theorem guarded_empty {s : State} (h : s.mem = []) (c : Nat) : guarded s c = false := by
  have hb : ∀ a, s.byte a = 0 := fun a => by simp only [State.byte, h]; rfl
  have h0 : ∀ i, bit 0 i = false := fun i => by simp [bit]
  simp only [guarded, hb, h0, Bool.and_false]

/-- Where nothing is guarded or poisoned the engine reads its Tarn as it stands. -/
theorem tarnRead_empty {s : State} (h : s.mem = []) (hp : s.poison = []) (n pc off len : Nat) :
    ∃ bs, tarnRead s n pc off len = .ok (bs, s) := by
  have h1 : ∀ l : List Nat, l.find? (poisoned s) = none := fun l => by simp [poisoned, hp]
  have h2 : ∀ l : List Nat, l.find? (guarded s) = none := fun l => by simp [guarded_empty h]
  exact ⟨readCells s ((List.range len).map fun j => tarnBase (clusterOf n) + off + j), by
    simp only [tarnRead, loadCells, noteGuard, h1, h2]⟩

/-- A slice descriptor block: one row of one element at offset 0x3000, its exponents at 0x1100. -/
def sdb0 : Nat := 0x3000 + 2 ^ 128 + 0x1100 * 2 ^ 192

/-- The engine of cluster 0 with the command `op` of slot 0 at its head. -/
def wHead (op : MxOp) : State :=
  (wMx id).modCluster 0 fun c => { c with mx := [⟨op, 0, [0, 1, 2, 3], 0x40, none, 0, {}, {}⟩] }

/-- The command. -/
def cHead (op : MxOp) : MxCmd := ⟨op, 0, [0, 1, 2, 3], 0x40, none, 0, {}, {}⟩

/-- The commands of slot 0 that its cluster's engine may begin, or a pass of which it may run. -/
def opsHead : List MxOp :=
  [.mrpub 3 1, .mrpop 3 1, .mzero 0, .mlda 0 0x3FF000, .msta 0 0x3FF000 0 0, .msta 0 0x3FF800 2 0, .mscale sdb0 1, .msplit sdb0 1 3 2,
    .msfin 0x3FE000 0x1100 0x1140 1 0 2, .mma true 3 3 7 5 5 0 0, .msmm 0x973 0 0 0 false, .msmm 0x173 0 0 0 false,
    .msmm 0x20173 0 0 1 true, .msmm 0x20173 0 2 2 true, .msmm 0x20173 0 0 3 true]

/-- In a memory without cells of the guard maps no byte is guarded. -/
theorem guarded_low {s : State} (h : ∀ e ∈ s.mem, e.1 < 2 ^ 68) (c : Nat) : guarded s c = false := by
  have hb : ∀ a, 2 ^ 68 ≤ a → s.byte a = 0 := fun a ha => by
    have : ∀ l : List Host.Cell, (∀ e ∈ l, e.1 < 2 ^ 68) → SMap.get l a Config.memDefault = Config.memDefault := fun l hl => by
      induction l with
      | nil => rfl
      | cons e t ih =>
        have he := hl e (List.mem_cons_self ..)
        simp only [SMap.get]
        rw [if_neg (by omega)]
        exact ih fun q hq => hl q (List.mem_cons_of_mem _ hq)
    simp only [State.byte, Memory.get, this _ h]
    rfl
  have h0 : ∀ i, bit 0 i = false := fun i => by simp [bit]
  have hg : ∀ x y, gmapBase x + y ≥ 2 ^ 68 := fun x y => by unfold gmapBase; omega
  simp only [guarded, hb _ (hg _ _), h0, Bool.and_false]

theorem wit_MatrixEngineExecutes_head (op : MxOp) (h : op ∈ opsHead) :
    MxHead (wHead op) 0 (cHead op) [] ∧ (wHead op).MemWf ∧ (wHead op).mem = [] ∧ (wHead op).poison = [] := by
  refine ⟨⟨?_, ?_, ?_, fun n hn => Or.inl ?_⟩, ?_, ?_, ?_⟩
  all_goals first
    | (revert op; decide +kernel)
    | (have hn : n < 64 := by unfold clusterOf at hn; omega
       have key : ∀ op ∈ opsHead, ∀ n < 64, ((wHead op).slot n).held = [] := by decide +kernel
       exact key op h n hn)

theorem wit_MatrixEngineExecutes :
    (∀ op ∈ opsHead, clusterOf (cHead op).slot < 128 ∧ ((wHead op).cluster (clusterOf (cHead op).slot)).mrb = [] ∧
      (cHead op).tiles.length = 4 ∧ (cHead op).tiles.Nodup) ∧
    0x3FF000 + 4096 ≤ 2 ^ 22 ∧ 0x3FF800 + 2048 ≤ 2 ^ 22 ∧ fmtOf 2 ≠ none ∧ (3 : Nat) ≠ 7 ∧ bit 0x973 11 = true ∧ bit 0x173 11 = false ∧
    (passList (bits 0x20173 10 8 + 1))[1]? = some (1, 2) ∧ 1 + 1 < (passList (bits 0x20173 10 8 + 1)).length ∧
    (passList (bits 0x20173 10 8 + 1))[2]? = some (2, 1) ∧ 2 + 1 = (passList (bits 0x20173 10 8 + 1)).length ∧ 2 = bits 0x20173 25 16 ∧
    3 = (passList (bits 0x20173 10 8 + 1)).length ∧ (0 : Nat) ≠ bits 0x20173 25 16 ∧
    2 ≤ unreserved ((wHead (.mzero 0)).ring 0 (bits 0x20173 3 0)) ∧ 2 ≤ unreserved ((wHead (.mzero 0)).ring 0 (bits 0x20173 7 4)) ∧
    bits 0x20173 3 0 ≠ bits 0x20173 7 4 ∧ (1 : Nat) ≤ 1 ∧ 0x3FE000 + 1024 * sliceElem 1 ≤ 2 ^ 22 ∧ 0x1140 + 64 ≤ 2 ^ 22 := by decide +kernel

/-- Slot 0's engine with the command `op` at its head, the FP64 element of `sdb0` in the Tarn the highest bytes of which are `x`, the
exponent of its row `e`. -/
def wRow (op : MxOp) (e x : Nat) : State :=
  mem (wHead op) [(tarnBase 0 + 0x1100, e % 256), (tarnBase 0 + 0x1101, e / 256), (tarnBase 0 + 0x3006, x % 256), (tarnBase 0 + 0x3007, x / 256)]

theorem wit_MatrixEngineExecutes_rows :
    sdbBad sdb0 (sliceElem 1) = false ∧ sdbK sdb0 = 1 ∧ sdbRows sdb0 = 1 ∧ sdbExp sdb0 = 0x1100 ∧
    (∀ q ∈ [(2, 0, FVal.fin false 0 (-1074)), (2, 0x7FF0, .inf false), (3, 0x3FF0, .fin false (2 ^ 52) (-52)), (0x7FFF, 0x3FF0, .fin false (2 ^ 52) (-52))],
      ∀ op ∈ [MxOp.mscale sdb0 1, .msplit sdb0 1 3 2], let s := wRow op q.1 q.2.1
        (∀ e ∈ s.mem, e.1 < 2 ^ 68) ∧ s.poison = [] ∧ s.MemWf ∧ (s.cluster 0).mx = [cHead op] ∧
        s.raw (tarnBase 0 + 0x1100) 2 = q.1 ∧ fdec fp64 (s.raw (tarnBase 0 + (sdbElem sdb0 0 0).toNat) 8) = q.2.2) ∧
    (let G := (wHead (.msplit sdb0 1 3 2)).ring 0 3
     2 * ((sdbK sdb0 + 95) / 96) ≤ G.depth ∧ G.p + 2 * ((sdbK sdb0 + 95) / 96) ≤ 2 ^ 32 ∧ G.base + G.depth * 8192 ≤ 2 ^ 22 + 4096 ∧
     ∀ j, j < G.depth → G.base + j * 8192 + 4096 ≤ 0x1100 ∨ 0x1100 + 64 ≤ G.base + j * 8192) ∧
    magLog (2 ^ 52) (-52) < 3 - 1 := by decide +kernel

/-! Streams and copies -/

/-- A memory stream of two beats at 0x1000, 128 bytes apart. -/
def str0 : Stream := ⟨0, 0, 2, 0x1000, 3, 0, 1, [128], [2], none, 0, 0, 0, [], [], 1, none, false, none, 0, []⟩

/-- Slot 0 with its matrix rings, its core's leaf of low device memory, and these streams. -/
def wStr (l : SMap Stream) : State :=
  { wMx fun x => { (x.ws 1 (BitVec.ofNat 64 (winBase + 0x1000000))) with streams := l } with
    tlb := [⟨0, 0, 0, 2 ^ 29, 0xF800000000000000⟩], vis := [(0, { ptbr := 1 })] }

/-- With a parameter block at the start of its Tarn: one beat at 0x1000. -/
def wSbind : State := mem (wStr []) [(tarnBase 0 + 1, 0x10), (tarnBase 0 + 16, 1)]

theorem wit_StreamsMoveTheirBeats_bind :
    wSbind.NoPrefix ∧ wSbind.me.frame = none ∧ wSbind.me.sb = [] ∧ isWorker wSbind.cur = true ∧ (∀ q ∈ wSbind.me.streams, q.2.fault ≠ some 0x1B) ∧
    eventField wSbind 0 0 0 4 = .ok none ∧ (wSbind.me.rs 1).toNat % 64 = 0 ∧
    blockCells wSbind 0 (wSbind.me.rs 1).toNat 64 1 = .ok (run (tarnBase 0) 64) ∧
    (∀ c ∈ run (tarnBase 0) 64, guarded wSbind c = false ∧ poisoned wSbind c = false) ∧ streamOf wSbind 0 5 = none ∧
    streamOf wSbind 0 0 = none ∧
    (spbStream wSbind 0 0 (numOf ((run (tarnBase 0) 64).map wSbind.byte)) none).toOption.map (·.total) = some 1 := by decide +kernel

theorem wit_StreamsMoveTheirBeats_slot :
    (∀ l ∈ [[(0, str0)], [(0, { str0 with used := 2 })], [(0, { str0 with buf := [7], moved := 1 })],
        [(4, { str0 with dir := 1 })], [(4, { str0 with dir := 1, used := 2 })],
        [(4, { str0 with dir := 1, total := 64, used := 32, buf := List.replicate 32 0 })]],
      (wStr l).NoPrefix ∧ (wStr l).me.frame = none ∧ isWorker (wStr l).cur = true ∧
      (∀ q ∈ (wStr l).me.streams, q.2.fault ≠ some 0x1B ∧ q.2.kind ≠ 2 ∧ q.2.fault = none ∧ q.2.st = 1 ∧ q.2.panel = []) ∧
      l.all (fun q => streamOf (wStr l) 0 q.1 = some q.2)) ∧
    str0.used < str0.total ∧ [1].length = str0.counts.length ∧ str0.strides.length = str0.counts.length ∧
    ∀ p ∈ [1].zip str0.counts, p.1 < p.2 := by decide +kernel

theorem wit_StreamsMoveTheirBeats_unit :
    (∀ l ∈ [[(0, str0)], [(4, { str0 with dir := 1, buf := [7] })], [(4, { str0 with dir := 1, kind := 1, total := 32, buf := [7] })],
        [(0, { str0 with kind := 2 }), (4, { str0 with kind := 2, dir := 1, buf := [7] })]],
      clusterRuns (wStr l) (clusterOf 0) = true ∧ (∀ q ∈ l, streamOf (wStr l) 0 q.1 = some q.2 ∧ q.2.st = 1 ∧ q.2.moved < q.2.total)) ∧
    localCells (wStr [(0, str0)]) 0 false (beatAddr str0 0) 128 4 0 = .ok (run 0x1000 128) ∧
    localCells (wStr [(0, str0)]) 0 false (beatAddr str0 0) 128 5 0 = .ok (run 0x1000 128) ∧
    (∀ c ∈ run 0x1000 128, guarded (wStr [(0, str0)]) c = false ∧ poisoned (wStr [(0, str0)]) c = false) ∧
    asleep (wStr [(0, str0)]) (run 0x1000 128) = false ∧ asleep (wStr [(4, { str0 with dir := 1, buf := [7] })]) (run 0x1000 128) = false ∧
    Storable (wStr [(0, str0)]) (run 0x1000 128) ∧
    joinPeer (wStr [(0, { str0 with kind := 2 }), (4, { str0 with kind := 2, dir := 1, buf := [7] })]) 0
      { str0 with kind := 2, dir := 1, buf := [7] } = some (0, 0) ∧
    streamOf (wStr [(0, { str0 with used := 2, moved := 2 })]) 0 0 = some { str0 with used := 2, moved := 2 } :=
  ⟨by decide +kernel, by decide +kernel, by decide +kernel, by decide +kernel, by decide +kernel, by decide +kernel,
    storable_of (by decide +kernel), by decide +kernel, by decide +kernel⟩

/-- Slot 0, a team of a co-launch or not, with a descriptor block of `kind` DKIND at the start of its Tarn (s1): 128 bytes from 0x1000
to 0x2000, to ring 3, to the multicast ring at 0x400, or from 0x1000 to the own-TCM window of team 0. -/
def wCopy (kind op : Nat) : State :=
  mem ((wStr []).modSlot 0 fun x => { x with task := some { task0 with kind := if op = 3 then 1 else 0 } })
    ([(tarnBase 0 + 1, 0x10)] ++
     (if op = 2 then [(tarnBase 0 + 44, 1)] else []) ++
     (if op = 3 then [(tarnBase 0 + 14, 0x0F), (tarnBase 0 + 40, 1)]
      else if kind = 1 then []
      else if kind = 2 then [(tarnBase 0 + 9, 4), (tarnBase 0 + 11, 1), (tarnBase 0 + 14, 0x0F), (tarnBase 0 + 0x406, 1)]
      else [(tarnBase 0 + 9, 0x20)]) ++
     (if kind = 1 then [(tarnBase 0 + 17, 0x10)] else [(tarnBase 0 + 16, 128)]) ++
     [(tarnBase 0 + 20, 1), (tarnBase 0 + 43, kind * 64 + (if kind = 1 then 12 else 0))])

theorem wit_CopiesMoveTheirBytes_accept :
    (∀ p ∈ [(0, 0), (0, 1), (0, 2), (1, 0), (2, 0), (0, 3)], let s := wCopy p.1 p.2
     let size := if p.2 = 3 then 128 else 64
     let w := numOf ((run (tarnBase 0) size).map s.byte)
     s.NoPrefix ∧ s.me.frame = none ∧ s.me.sb = [] ∧ isWorker s.cur = true ∧ eventField s 0 0 0 2 = .ok none ∧ (s.me.rs 1).toNat % 64 = 0 ∧
     blockCells s 0 (s.me.rs 1).toNat size 1 = .ok (run (tarnBase 0) size) ∧
     (∀ c ∈ run (tarnBase 0) size, guarded s c = false ∧ poisoned s c = false) ∧ (queueOf s 0 0).length < 64 ∧ cdbBad p.2 w = false ∧
     bits (dword w 5) 31 30 = p.1 ∧ (p.1 = 1 → (ringOf s 0 (bits (dword w 5) 29 26)).owner = some (launchKey s.me)) ∧
     (p.1 = 2 → copyRing s 0 (dword w 1) (bits (dword w 2) 63 32 * bits (dword w 2) 31 0) = .ok 0x400) ∧
     (p.2 = 3 → isTeam s 0 = true ∧ teamEvents s 0 w ((List.range 16).filter fun c => bit (dword w 5) c) = .ok [(0, none)])) := by
  decide +kernel

/-- A copy of 12 bytes from 0x1000 to 0x2000 by slot 0. -/
def cp0 : CpCmd := ⟨0, 0, 0x40, none, 0x1000, 0x2000, 1, 12, 0, 0, 0, 0, 0, 0, 0, [], 0, 0, 0, [], 0, none, 0⟩

/-- Slot 0's cluster with that command at the head of queue 1, changed by `f`. -/
def wQ (f : CpCmd → CpCmd) : State := setQueue (wStr []) 0 1 [f cp0]

/-- The cells of an access: neither guarded nor poisoned, no unit asleep. -/
def fineCells (s : State) (l : List Nat) : Bool := !asleep s l && l.all fun b => !guarded s b && !poisoned s b

/-- The copy `c` of team 0 of an instance, team 1 on slot 4; a region of each core lets the sibling write bank 0. -/
def wPair (c : CpCmd) : State :=
  let two := fun (x : Core) => { x with trgn := [(0, BitVec.ofNat 64 (2 ^ 63 + 0xF * 2 ^ 59 + 7 * 2 ^ 56))] }
  ((((wQ fun _ => c).modSlot 0 fun x => { x with task := some { task0 with kind := 1 } }).modSlot 4 fun x =>
    { x with st := .running, task := some { task0 with kind := 1, part := 1 } }).modCore 0 two).modCore 1 two

theorem wit_CopiesMoveTheirBytes_move :
    (∀ e ∈ [(cp0, [], [(0, 8)], [run 0x1000 8], [run 0x2000 8]), ({ cp0 with st := 1, done := 8 }, [], [(8, 4)], [run 0x1008 4], [run 0x2008 4]),
        ({ cp0 with src := 0x1003 }, [], [(0, 5), (5, 7)], [run 0x1003 5, run 0x1008 7], [run 0x2000 8]),
        ({ cp0 with op := 2, idx := 0x3000, ibound := 1, sstride := 64 }, run 0x3000 4, [(0, 8)], [run 0x1000 8], [run 0x2000 8]),
        ({ cp0 with op := 3, dst := winBase, evs := [(0, none), (1, none)] }, [], [(0, 8)], [run 0x1000 8], [run (tcmBase 0) 8, run (tcmBase 1) 8]),
        ({ cp0 with dkind := 1, ring := 3, len := 8192, st := 1, done := 8, fill := List.replicate 8 5 }, [], [(8, 8)], [run 0x1008 8], [])],
      let c := e.1
      let s := if c.op = 3 then wPair c else wQ fun _ => c
      let c1 := { c with rowIdx := numOf (e.2.1.map s.byte), st := 1 }
      let at_ := c.done % c.len
      let k := if c.dkind = 0 then min (8 - (copyDst c1 0 at_).headD 0 % 8) (c.len - at_) else 1
      clusterRuns s 0 = true ∧ c.slot < 8192 ∧ queueOf s 0 1 = [c] ∧ c.done < c.nrow * c.len ∧ (∀ b ∈ c.fill, b < 256) ∧ c.done / c.len = 0 ∧
      (c.st = 1 ∨ (c.st = 0 ∧ haltedCore s (coreOf c.slot) = false)) ∧
      (c.op = 2 → isRemote s c.idx = false ∧ localCells s c.slot false c.idx 4 4 0 = .ok e.2.1 ∧ fineCells s e.2.1 = true ∧
        c1.rowIdx < c.ibound) ∧
      copyPieces c1 0 at_ (if c.dkind = 0 then c.fill.length else 0) k = e.2.2.1 ∧
      ((e.2.2.1.zip e.2.2.2.1).all fun x => !isRemote s (copySrc c1 0 x.1.1) && fineCells s x.2 &&
        (localCells s c.slot false (copySrc c1 0 x.1.1) x.1.2 4 0).toOption == some x.2) ∧
      e.2.2.1.length = e.2.2.2.1.length ∧
      (c.dkind = 0 → (copyDst c1 0 at_).length = e.2.2.2.2.length ∧ e.2.2.2.2.flatten.Nodup ∧
        (e.2.2.2.2.flatten.all fun b => !isTarn b) ∧
        ((copyDst c1 0 at_).zip e.2.2.2.2).all fun x => !isRemote s x.1 && fineCells s x.2 &&
          (localCells s c.slot false x.1 k 5 0).toOption == some x.2) ∧
      s.MemWf ∧ c.fill.length + 8 < 4096) ∧
    (queueOf ((wQ id).modCluster 0 fun c => { c with copies := [(1, List.replicate 64 cp0)] }) 0 1).length = 64 ∧
    queueOf (wQ fun c => { c with st := 4, done := 12 }) 0 1 = [{ cp0 with st := 4, done := 12 }] ∧ 3 < 8 ∧ 8 ≤ 8 ∧ 0 + 8 ≤ cp0.len := by
  decide +kernel

theorem wit_CopiesMoveTheirBytes_push :
    (∀ p ∈ [2, 4], let c := { cp0 with st := 2, dkind := 1, ring := 3, len := 8192, done := 4096, fill := List.replicate 4096 5 }
     let s := (wQ fun _ => c).modCluster 0 fun x => { x with rings := x.rings.set 3 { x.rings.get 3 {} with p := p } }
     let g := s.ring 0 3
     clusterRuns s 0 = true ∧ c.slot < 8192 ∧ queueOf s 0 1 = [c] ∧ c.fill.length = 4096 ∧ (∀ b ∈ c.fill, b < 256) ∧ c.evs = [] ∧
     c.done < c.nrow * c.len ∧ 0 = clusterOf c.slot ∧ s.MemWf ∧ g.kind ≠ 0 ∧ g.owner = some (launchKey (s.slot 0)) ∧
     (dist32 g.p g.c = g.depth ↔ p = 4) ∧ (s.cluster 0).mrb = [] ∧ panelOff g g.p + 4096 ≤ 2 ^ 22 ∧ s.mem = []) ∧
    (let c := { cp0 with st := 2, dkind := 2, dst := 0x400, len := 256, done := 128, fill := List.replicate 128 5 }
     let s := wQ fun _ => c
     let b := tarnBase 0 + 0x400
     clusterRuns s 0 = true ∧ queueOf s 0 1 = [c] ∧ (∀ b ∈ c.fill, b < 256) ∧ c.dst + 128 ≤ 2 ^ 22 ∧ s.mem = [] ∧ mrbSlot s b = 128 ∧
     mrbProd s b = 0 ∧ dist32 (mrbProd s b) (mrbFree s b) ≠ mrbDepth s b ∧ mrbEntry s 0 b (mrbProd s b) = tarnBase 0) := by
  have h : ∀ b ∈ List.replicate 4096 5, b < 256 := fun b h => by simp only [List.mem_replicate] at h; omega
  refine ⟨fun p hp => ⟨?_, ?_, rfl, List.length_replicate, h, rfl, ?_, ?_, ?_, ?_, ?_, ?_, ?_, ?_, ?_⟩, ?_⟩
  all_goals first | decide +kernel | (revert p; decide +kernel)

/-! Events and offers -/

/-- Slot 0 with a creation block at the start of its Tarn (s1) for an event of its own alone, s2 the name of the event at index 0 of its
cluster's resolver, e1 bound to it, e2 unbound. -/
def wEcb : State :=
  mem (wk fun x => { ((x.ws 1 (BitVec.ofNat 64 (winBase + 0x1000000))).ws 2 0x40000000) with evb := [(1, 0x40000000)] })
    [(tarnBase 0 + 6, 2), (tarnBase 0 + 16, 0xFF), (tarnBase 0 + 17, 0xFF), (tarnBase 0 + 18, 0xFF), (tarnBase 0 + 19, 1)]

theorem get_map_range {V : Type} (v d : V) (i : Nat) (l : List Nat) (h : i ∈ l) : SMap.get (l.map fun j => (j, v)) i d = v := by
  induction l with
  | nil => simp at h
  | cons j t ih =>
    simp only [List.map_cons, SMap.get]
    split
    · rfl
    · rename_i hj
      exact ih ((List.mem_cons.mp h).resolve_left fun e => hj e.symm)

/-- That state with every index of its cluster's resolver taken. -/
def wFull : State := wEcb.modHome 0 fun r => { r with evs := (List.range 1024).map fun j => (j, { live := true }) }

theorem wit_EventsAreMadeBoundAndFreed_new :
    wEcb.NoPrefix ∧ wEcb.me.frame = none ∧ wEcb.late = false ∧ (wEcb.me.rs 1).toNat % 8 = 0 ∧
    readBlock wEcb 0 (wEcb.me.rs 1).toNat 16 = .ok (2 ^ 49, wEcb) ∧ bits (2 ^ 49) 63 62 = 0 ∧ bits (2 ^ 49) 55 49 = 1 ∧
    readBlock wEcb 0 ((wEcb.me.rs 1).toNat + 16) (4 * 1) = .ok (0x01FFFFFF, wEcb) ∧
    (checkEcb wEcb 0 (2 ^ 49) 0 ((List.range 1).map fun i => 0x01FFFFFF / 2 ^ (32 * i) % 2 ^ 32)).toOption.map
      (fun v => (v.parties, v.plan)) = some ([selfParty wEcb 0], 0) ∧
    spans wEcb [selfParty wEcb 0] = false ∧ freeIdx wEcb (homeOfParties wEcb [selfParty wEcb 0]) = some 0 ∧
    homeOfParties wEcb [selfParty wEcb 0] = 0 := by decide +kernel

theorem wit_EventsAreMadeBoundAndFreed_full : freeIdx wFull 0 = none := by
  have hh : wFull.home 0 = { wEcb.home 0 with evs := (List.range 1024).map fun j => (j, { live := true }) } := rfl
  rw [freeIdx, hh, List.find?_eq_none]
  intro i hi
  have hi' : i < 1024 := by simpa [homeCap] using hi
  rw [get_map_range _ _ i _ (List.mem_range.mpr hi')]
  simp

/-- With the event live, its parties `ps`, of plan `plan`. -/
def wEv (plan : Nat) (ps : List Nat) (f : Slot → Slot) : State :=
  withEv (wEcb.modSlot 0 f) { parties := ps, plan := plan }

theorem wit_EventsAreMadeBoundAndFreed_names :
    (wEcb.me.rs 2).toNat % 2 ^ 32 / 2 ^ 30 ≠ 0 ∧ (refOfName wEcb 0 0x40000000).away = false ∧
    evOf wEcb (refOfName wEcb 0 0x40000000) = none ∧ wEcb.me.bound 1 ≠ 0 ∧ wEcb.me.bound 2 = 0 ∧
    (evOf (wEv 0 [0] id) (refOfName (wEv 0 [0] id) 0 0x40000000)).map (·.vi) = some (wEv 0 [0] id).me.vi ∧
    inOffer (wEv 0 [0] id).me 1 = false ∧ isMace 0 = false ∧
    inOffer (wEv 0 [0] fun x => { x with stand := some ⟨1, 0, 5, [⟨0, 1, 0x40000000, ⟨0, 0, 0⟩, 0, 0, 0⟩], none, 0, 0, none, none, [], 0, none⟩ }).me 1 = true ∧
    viewBase wEcb 0 ≤ 0 ∧ 0 < viewBase wEcb 0 + viewSize wEcb 0 ∧ viewSize wEcb 0 ≤ 128 ∧
    viewBase (su id) 8320 ≤ 127 ∧ 127 < viewBase (su id) 8320 + viewSize (su id) 8320 ∧ 2 ^ 14 - 1 < 2 ^ 14 ∧ 15 < 16 := by
  decide +kernel

/-- Slot 0 about to offer event 1: s5 its position list. -/
def wOffer (f : Slot → Slot) : State := wEv 0 [0] fun x => f (x.ws 5 0x81)

theorem wit_OffersAndHandlers_offer :
    (wOffer id).NoPrefix ∧ (wOffer id).me.frame = none ∧ (wOffer id).me.report = none ∧ (wOffer id).me.sb = [] ∧
    positions (wOffer id) 0 ((wOffer id).me.rs 5).toNat ((wOffer id).me.rs 0).toNat =
      .ok ([⟨0, 1, 0x40000000, ⟨0, 0, 0⟩, 0, 0, 0⟩], wOffer id) ∧
    (wOffer id).me.limit = none ∧ ((wOffer id).me.rs 0).toNat % 2 ^ 32 = 0 ∧ ((wOffer id).me.rs 5).toNat % 2 ^ 32 ≠ 0 ∧
    (wOffer id).me.stand = none ∧ (wOffer id).me.ready = none ∧ (wOffer id).me.armNext = none ∧
    (wOffer fun x => { x with soh := true }).me.soh = true ∧ (wOffer fun x => { x with soh := true }).me.susp = none := by
  decide +kernel

/-- An offer of event 1. -/
def off0 : Offer := ⟨7, 2, 5, [⟨0, 1, 0x40000000, ⟨0, 0, 0⟩, 0, 0, 0⟩], some 0, 0, 0x80, none, none, [], 0, none⟩

theorem wit_OffersAndHandlers_handler :
    (let s := wOffer fun x => { x with stand := some off0 }
     s.me.stand = some off0 ∧ commitSent s 0 7 = false ∧ s.me.offer = none ∧ s.me.susp = none ∧ s.me.armNext = none) ∧
    (let s := wOffer fun x => { x with ready := some 0x105, readyPc := 0x80 }
     handlerDue s 0 = true ∧ (s.slot 0).report = none ∧ (s.slot 0).ready = some 0x105) ∧
    (let s := wOffer fun x => { x with offer := some off0, st := .offering }
     (s.slot 0).offer = some off0 ∧ off0.left = some 0 ∧ off0.wdr = none ∧ commitSent s 0 off0.id = false ∧ (s.slot 0).frame = none) ∧
    (∀ k ∈ [0, 1], let o := { off0 with wdr := some k }
     let s := wOffer fun x => { x with offer := some o, st := .offering }
     (s.slot 0).offer = some o ∧ o.left = some 0 ∧ commitSent s 0 o.id = false) := by
  decide +kernel

theorem wit_OffersAndHandlers_channels :
    (∀ ps ∈ [[64, 0], [0, 64]], let s := wEv 4 ps id
     s.me.bound 1 ≠ 0 ∧ inOffer s.me 1 = false ∧ chainOf s 0 = none ∧
     (evOf s (refOfName s 0 (s.me.bound 1))).map (·.plan) = some 4) ∧
    (let s := wEcb.modSlot 0 fun x => { x with domain := BitVec.ofNat 64 (2 ^ 62 + 1), task := some task0 }
     domainCores s 0 s.me.domain.toNat = .ok [0] ∧ domainParties s 0 s.me.domain.toNat = .ok ([0], false) ∧ coreOf 0 ∈ [0] ∧
     pendingBarrier s (0 * 2 ^ 32 + 1, 0, s.me.domain.toNat) (partyOf s 0 0) = none ∧ syncParties s 0 s.me.domain.toNat = .ok (0, [0]) ∧
     partyOf s 0 0 ∈ [0] ∧ s.me.task = some task0 ∧ s.NoPrefix ∧ s.me.report = none) := by decide +kernel

/-- Cluster 0's resolver with the message `b` on its way from agent 5 to `dst`. -/
def wMsg (dst : Nat) (b : MsgBody) (f : Slot → Slot) : State := { wOffer f with msgs := [⟨5, dst, b⟩] }

/-- A registration of slot `n` for the event at index 0. -/
def reg0 (n t id : Nat) : Reg := ⟨selfParty State.reset n, 0, 0, 0, 2, t, id, true, 0, 0, 0⟩

/-- Two slots that both offer the event at index 0 of cluster 0's resolver, 8 cycles after reset. -/
def wMatch : State :=
  (at_ (((withEv (wk fun x => { x with st := .offering, offer := some { off0 with id := 1 } })
    { parties := [0, 4] }).modSlot 4 fun x => { x with st := .offering, offer := some { off0 with id := 2 } }).modHome 0
      fun r => { r with regs := [reg0 0 2 1, reg0 4 3 2] }) 8)

theorem wit_ResolversMatchOffers_window :
    wMatch.node < 4096 ∧ homeRuns wMatch 0 = true ∧ ((wMatch.home 0).evs.get 0 {}).live = true ∧
    ((wMatch.home 0).evs.get 0 {}).broken = false ∧ ((wMatch.home 0).evs.get 0 {}).plan = 0 ∧
    ((wMatch.home 0).evs.get 0 {}).barrier = none ∧ ((wMatch.home 0).evs.get 0 {}).parties = [selfParty wMatch 0, selfParty wMatch 4] ∧
    (wMatch.home 0).regs = [reg0 0 2 1, reg0 4 3 2] ∧ (wMatch.home 0).tries = [] ∧
    (wMatch.slot 0).offer = some { off0 with id := 1 } ∧ (wMatch.slot 4).offer = some { off0 with id := 2 } ∧
    (wMatch.slot 0).stand = none ∧ (wMatch.slot 4).stand = none ∧ heldParty wMatch (selfParty wMatch 0) = false ∧
    heldParty wMatch (selfParty wMatch 4) = false ∧ (wMatch.slot 0).susp = none ∧ (wMatch.slot 4).susp = none ∧ (wMatch.home 0).window ≤ 0 ∧ 2 / windowLen 0 = 0 ∧
    0 < homeCycles wMatch 0 / windowLen 0 := by decide +kernel

theorem wit_ResolversMatchOffers_messages :
    (∀ b ∈ [MsgBody.engine 0 0 0, .register 0 0 0 0 7 true 0 0 0, .withdraw 0 7, .revoke 0 0 0, .free 0 0],
      arriving (wMsg (homeSrc 0) b id) 0 = some ⟨5, homeSrc 0, b⟩) ∧
    ((wMsg (homeSrc 0) (.register 0 0 0 0 7 true 0 0 0) id).home 0 |>.evs.get 0 {}).parties.all (fun q => q / 2 ^ 28 != 13) = true ∧
    (let o := { off0 with wdr := some 1 }
     let s := wMsg 0 (.gone 0 7) fun x => { x with offer := some o }
     arriving s 0 = some ⟨5, 0, .gone 0 o.id⟩ ∧ (s.slot 0).offer = some o ∧ o.wdr = some (0 + 1)) ∧
    (let y : Try := ⟨0, 0, 3, [0], [], false⟩
     let s := (wMsg (homeSrc 0) (.revoke 0 0 0) id).modHome 0 fun r => { r with tries := [y] }
     arriving s 0 = some ⟨5, homeSrc 0, .revoke 0 0 0⟩ ∧ ∃ y ∈ (s.home 0).tries, y.idx = 0 ∧ y.side = 0) ∧
    (let o := { off0 with claim := none }
     let b := MsgBody.claim 0 7 ⟨⟨0, 0, 0⟩, 0, 0, 3⟩
     let s := wMsg 0 b fun x => { x with offer := some o }
     arriving s 0 = some ⟨5, 0, b⟩ ∧ heldParty s (selfParty s 0) = false ∧ (s.slot 0).offer = some o ∧ (s.slot 0).stand = none ∧
     (s.slot 0).susp = none ∧ (s.slot 0).dorm = none ∧ o.wdr = none ∧ o.claim = none ∧ commitSent s 0 o.id = false) ∧
    (let c : Claim := ⟨⟨0, 0, 0⟩, 0, 0, 3⟩
     let o := { off0 with claim := some c }
     let b := MsgBody.release 0 7 c.ev 0
     let s := wMsg 0 b fun x => { x with offer := some o }
     arriving s 0 = some ⟨5, 0, b⟩ ∧ (s.slot 0).offer = some o ∧ c.side = 0 ∧ o.next = none ∧ o.waiters = []) ∧
    (let b := MsgBody.commit 0 7 3 0
     let s := wMsg 0 b fun x => { x with offer := some off0, st := .offering }
     arriving s 0 = some ⟨5, 0, b⟩ ∧ (s.slot 0).offer = some off0 ∧ (s.slot 0).stand = none ∧ (s.slot 0).frame = none) ∧
    (let b := MsgBody.answer 0 0 0 true false
     let y : Try := ⟨0, 0, 3, [0], [], false⟩
     let s := (wMsg (homeSrc 0) b id).modHome 0 fun r =>
       { r with tries := [y], regs := [{ reg0 0 2 7 with single := false }] }
     arriving s 0 = some ⟨5, homeSrc 0, b⟩ ∧ (s.home 0).tries = [y] ∧ y.waits = false ∧ y.asked = [selfParty s 0] ∧
     claimed ((s.home 0).regs.filter fun g => g.idx == 0 && g.side == 0) = [selfParty s 0]) := by decide +kernel

/-- Two homes beside: slot 0's own, which its router admits, and that of cluster 1, which it does not; a barrier of slot 0 that waits. -/
theorem wit_ResolversMatchOffers_routers :
    (let key := (1, 0, 2 ^ 62 + 1)
     let b := MsgBody.barrier 0 7 key [0]
     let s := wMsg (homeSrc 0) b fun x => { x with offer := some off0 }
     arriving s 0 = some ⟨5, homeSrc 0, b⟩ ∧ homeAdmits s 0 (some 0) = true ∧ barrierOf s key = none ∧ freeIdx s 0 = some 1 ∧
     ∀ ps ∈ [[0, 4], [4]], let u : Ev := { live := true, parties := ps, barrier := some key }
       let v := s.modHome 0 fun r => { r with evs := r.evs.set 3 u }
       arriving v 0 = some ⟨5, homeSrc 0, b⟩ ∧ barrierOf v key = some (⟨0, 3, 0⟩, u) ∧ (selfParty v 0 ∈ u.parties ↔ ps = [0, 4])) ∧
    (let b := MsgBody.register 0 0 0 0 7 true 0 0 0
     let s := wMsg (homeSrc 1) b fun x => { x with offer := some off0 }
     arriving s 0 = some ⟨5, homeSrc 1, b⟩ ∧ slotOfParty s 0 = some 0 ∧ homeAdmits s 1 (some 0) = false ∧
     (offerById (s.slot 0) 7).isSome = true) ∧
    homeAdmits wMatch 0 (slotOfParty wMatch 0) = true ∧ 2 ^ 32 ≤ 2 ^ 32 * 5 := by decide +kernel

/-! Chains, change counts, tasks, dispatch -/

/-- Launch 1 of a tenant: a grid of two tasks with three banks each. -/
def lch : Launch :=
  ⟨1, 0, 0, 3, 0, 1, 1, 0x1000, 1, 0, 0, 0x2000, [1, 2, 3, 4, 5, 6, 7], 0x100000, 0, 0, 0, 0, 7, 0, none, 0, [], 1, 0, [0], false,
    false, none, none, 0, [], []⟩

/-- A chain of two stages in cluster 0. -/
def ch0 : Chain := ⟨0, 1, 1, [0], false, false, none, 2, [], 0, 0, [], 0, none, [0, 1]⟩

/-- Stage `i` of that chain on bank `b`, parked as `p` says. -/
def stg (i b p : Nat) : Task := ⟨0, 1, 2, i, 0, 0, 0, i, 0, 0, 3, b, [], none, none, 0, 0, 0, p, 0⟩

/-- The chain `c` with its stages on slots 0 and `m`, both parked as `p` says. -/
def wChain (c : Chain) (m p : Nat) : State :=
  { (wk fun x => { x with task := some (stg 0 0 p) }).modSlot m fun x =>
      { x with st := .running, task := some (stg 1 (if m = 1 then 3 else 0) p) } with
    chains := [c], launches := [(0, { lch with kind := 2, out := 2, ey := 0 })] }

theorem wit_ChainsFoldAndSpread_hints :
    ((wk id).NoPrefix ∧ (wk id).me.frame = none ∧ chainOf (wk id) 0 = none) ∧
    ∀ c ∈ [{ ch0 with fixed := true }, ch0, { ch0 with folded := true, budget := 1 }, { ch0 with pend := some true },
        { ch0 with folded := true, nstage := 1 }],
      (wChain c 4 0).NoPrefix ∧ (wChain c 4 0).me.frame = none ∧ chainOf (wChain c 4 0) 0 = some c ∧
      (wChain c 4 0).me.task = some (stg 0 0 0) := by decide +kernel

/-- A folded chain of two stages on slots 0 and 1, its channel homed in cluster 0 with its ring block at 0x400; the running slot is `n`, its
e1 bound to the channel. The ring has `q` of one entry, and the other stage is parked as `p` says. -/
def wFolded (c : Chain) (n p q : Nat) (broken : Bool) : State :=
  let s := wChain { c with evs := [⟨0, 0, 0⟩] } 1 p
  let v : Ev := { parties := [selfParty s 0, selfParty s 1], plan := 4, mrb := 0x400, chan := some 0, broken := broken }
  let s1 := withEv (s.modSlot n fun x => { x with evb := [(1, 0x40000000)], task := x.task.map fun k => { k with park := 0 } }) v
  { mem s1 [(tarnBase 0 + 0x404, 2), (tarnBase 0 + 0x406, 1), (tarnBase 0 + 0x408, q)] with cur := n }

theorem wit_ChainsFoldAndSpread_items :
    ∀ e ∈ [(ch0, 0, 3, 0, false), (ch0, 0, 0, 0, false), (ch0, 0, 3, 1, false), ({ ch0 with live := [0] }, 0, 0, 0, false), (ch0, 0, 3, 0, true),
        (ch0, 1, 0, 1, false), ({ ch0 with held := [0] }, 1, 0, 0, false), ({ ch0 with live := [1] }, 1, 0, 0, false), (ch0, 1, 5, 0, false)],
      let c := { e.1 with folded := true, evs := [⟨0, 0, 0⟩] }
      let s := wFolded { e.1 with folded := true } e.2.1 e.2.2.1 e.2.2.2.1 e.2.2.2.2
      let r := refOfName s s.cur (s.me.bound 1)
      s.NoPrefix ∧ s.me.frame = none ∧ s.me.report = none ∧ s.me.sb = [] ∧ s.me.bound 1 ≠ 0 ∧ inOffer s.me 1 = false ∧
      chainOf s s.cur = some c ∧ c.folded = true ∧ c.pend = none ∧ channelOf c r = some 0 ∧ s.MemWf ∧ (∀ a ∈ s.mem, a.1 < 2 ^ 68) ∧
      (evOf s r).any fun v => decide (
        let blk := v.ringCell
        let entry := tarnBase 0
        v.plan = 4 ∧ v.broken = e.2.2.2.2 ∧ v.cl = 0 ∧ v.cl ≠ farCluster ∧ v.mrb = 0x400 ∧ chanCount s v = e.2.2.2.1 ∧ mrbDepth s blk = 1 ∧
        itemSize v.tile = 288 ∧ mrbEntry s v.cl blk (mrbProd s blk) = entry ∧ mrbEntry s v.cl blk (mrbFree s blk) = entry ∧
        (v.parties[0]? = some (selfParty s s.cur) ↔ e.2.1 = 0) ∧ (v.parties[1]? = some (selfParty s s.cur) ↔ e.2.1 = 1) ∧
        parkOf s c 1 = (if e.2.1 = 1 then 0 else e.2.2.1) ∧ stageSlot s c 1 = some 1 ∧ stageSlot s c 0 = some 0 ∧
        bits (mrbCfg s blk) 63 48 = 2 ^ (coreOf s.cur % 16) ∧
        dist32 (keptCount (keptOf s v.cl v.mrb) (coreOf s.cur % 16)) (mrbFree s blk) = 0) := by decide +kernel

theorem wit_ChainsFoldAndSpread_switch :
    ∀ e ∈ [({ ch0 with pend := some true }, 4, true, [(⟨0, 0, []⟩ : Place), ⟨1, 3, []⟩]),
        ({ ch0 with folded := true, pend := some false }, 1, false, [⟨0, 0, []⟩, ⟨4, 0, []⟩])],
      let s := wChain e.1 e.2.1 2
      let l := { lch with kind := 2, out := 2, ey := 0 }
      chainById s 0 1 = some e.1 ∧ launchOf s 0 1 = some l ∧ e.1.pend = some e.2.2.1 ∧
      liveStages s e.1 = some [(0, 0), (1, e.2.1)] ∧ (e.1.folded = true ∨ e.1.openWin = none) ∧ clusterRuns s e.1.cl = true ∧
      (∀ q ∈ [(0, 0), (1, e.2.1)], 1 < stageParked s e.1 q.2 ∧ stageClean s q.2 = true) ∧
      switchPlan s e.1 l [(0, 0), (1, e.2.1)] e.2.2.1 = some e.2.2.2 := by decide +kernel

/-- The tree of VI 0 at 2^25 with the root, its child 1 and that child's child 2; s1 is `a`, s2 is `b`. -/
def wTree (a b : Nat) : State :=
  (mem (wk fun x => (x.ws 1 (BitVec.ofNat 64 a)).ws 2 (BitVec.ofNat 64 b))
    [(2 ^ 25 + 28, 1), (2 ^ 25 + 32, 5), (2 ^ 25 + 40, 3), (2 ^ 25 + 40 + 4, 0x40), (2 ^ 25 + 60, 1), (2 ^ 25 + 64, 9),
      (2 ^ 25 + 72, 1), (2 ^ 25 + 72 + 4, 0x80), (2 ^ 25 + 72 + 5, 0x10)]).modVi 0 fun v =>
    { v with nodetab := BitVec.ofNat 64 (2 ^ 25) }

/-- That tree with room for tiles in every die. -/
def wQuota (a b : Nat) : State :=
  (List.range 4).foldl (fun t d => t.modDie d fun x => { x with quota := x.quota.set 0 8 }) (wTree a b)

theorem wit_ChangeCountsAreKept_tree :
    (wTree 1 5).MemWf ∧ (wTree 1 5).NoPrefix ∧ (wTree 1 5).me.frame = none ∧ (wTree 1 5).me.sb = [] ∧ (wTree 1 5).late = false ∧
    2 ^ 20 ≤ ((wTree (2 ^ 20) 0).me.rs 1).toNat ∧ (wTree 1 5).me.report = none ∧ eventField (wTree 1 5) 0 0 0 1 = .ok none ∧
    nodeUsed (wTree 1 5) 0 1 = true ∧ nodeCount (wTree 1 5) 0 1 = 5 ∧ nodeKids (wTree 1 5) 0 1 = 1 ∧ nodeKids (wTree 1 5) 0 0 = 1 ∧
    nodeDepth (wTree 1 5) 0 1 = 1 ∧ nodeParent (wTree 1 5) 0 1 = 0 ∧
    nodeUsed (wTree 1 5) 0 2 = true ∧ nodeCount (wTree 1 5) 0 2 = 9 ∧ nodeKids (wTree 1 5) 0 2 = 0 ∧ nodeDepth (wTree 1 5) 0 2 = 2 ∧
    nodePath (wTree 1 5) 0 2 = [2, 1, 0] ∧ nodeUsed (wTree 1 5) 0 3 = false ∧ 1 ∈ nodePath (wTree 1 2) 0 2 ∧
    2 ∉ nodePath (wTree 2 0) 0 0 := by decide +kernel

theorem wit_ChangeCountsAreKept_tiles :
    ((wTree 0x00F0000000000000 0).me.rs 1).toNat / 2 ^ 52 = 0xF ∧ isRemote (wTree 0x00F0000000000000 0) 0x00F0000000000000 = true ∧
    isRemote (wTree (0xFFF * 2 ^ 52 + 0x4000000) 0) (0xFFF * 2 ^ 52 + 0x4000000) = false ∧
    winBase ≤ (0xFFF * 2 ^ 52 + winBase) % 2 ^ 52 ∧
    (let s := wQuota (0xFFF * 2 ^ 52 + 0x8000000) (2 ^ 44 + 1)
     let t := { s with cur := 8320 }
     s.MemWf ∧ t.MemWf ∧ isRemote t (0xFFF * 2 ^ 52 + 0x8000000) = false ∧
     targetOf t 8320 t.me.mode (0xFFF * 2 ^ 52 + 0x8000000) 1 = .ok (.cell 0x8000000) ∧
     tileCells t 8320 (0xFFF * 2 ^ 52 + 0x8000000) 1 = .ok [0x8000000] ∧ isDev 0x8000000 = true ∧
     firstFree t 0 (2 ^ 20 - 1) 1 = some 3 ∧ nodeDepth t 0 1 < 63) := by decide +kernel

theorem wit_ChangeCountsAreKept_room (s : State) (hs : ∀ d < 4, tilesHeld s d 0 = 0 ∧ (s.die d).tiles = [] ∧ (s.die d).quota.get 0 0 = 8) :
    tilesFit s 0 [0x8000000] = true ∧ tileAt s 0x8000000 = none := by
  refine ⟨?_, by simp [tileAt, (hs _ (show dieOfCell 0x8000000 < 4 from (Config.dieOf _).isLt)).2.1]⟩
  simp only [tilesFit, List.all_eq_true, List.mem_range]
  intro d hd
  obtain ⟨h1, h2, h3⟩ := hs d hd
  rw [h1, h2, h3]
  by_cases h : dieOfCell 0x8000000 = d <;> simp [h]

theorem wit_ChangeCountsAreKept_quota :
    let s := wQuota (0xFFF * 2 ^ 52 + 0x8000000) (2 ^ 44 + 1)
    ∀ d < 4, tilesHeld s d 0 = 0 ∧ (s.die d).tiles = [] ∧ (s.die d).quota.get 0 0 = 8 := by decide +kernel

theorem wit_ChangeCountsAreKept_late :
    (let s := { wTree 1 0 with late := true }
     s.MemWf ∧ s.NoPrefix ∧ s.me.frame = none ∧ s.late = true ∧ (s.me.rs 1).toNat < 2 ^ 20) ∧
    (let s := (wTree 1 0).modSlot 0 fun x => { x with st := .interlocked (.tree 3 7) }
     s.MemWf ∧ (s.slot 0).st = .interlocked (.tree 3 7) ∧ (s.slot 0).frame = none) ∧
    (let s := (wTree 1 0).modVi 0 fun v => { v with owed := [⟨1, 0, [1, 0], [1, 0]⟩] }
     s.MemWf ∧ (s.vif 0).owed = ⟨1, 0, 1 :: [0], [1, 0]⟩ :: []) ∧
    (let s := ((wTree 1 0).modVi 0 fun v => { v with owed := [⟨2, 0, [2, 1, 0], [2, 1, 0]⟩, ⟨1, 0, [1, 0], [1, 0]⟩] }).modSlot 0
       fun x => { x with settles := [⟨1, none⟩] }
     s.MemWf ∧ (taskSlot s 0).settles[0]? = some ⟨1, none⟩ ∧ nodeCount s 0 1 ≤ countMax ∧ ∀ b ∈ (s.vif 0).owed, b.path.Nodup) ∧
    (let u : Trap := { code := 2 }
     let s := (wTree 1 0).modSlot 0 fun x => { x with report := some u, reports := 1 }
     s.MemWf ∧ s.NoPrefix ∧ s.me.frame = none ∧ s.me.sb = [] ∧ s.late = false ∧ (pendingReport s.me).isSome = true) := by
  decide +kernel

/-- A task of launch 1 on slot 0, with an event of its own bound to e1. -/
def wTask (f : Slot → Slot) : State :=
  { wEv 0 [0] fun x => f { x with task := some task0 } with launches := [(0, lch)] }

/-- That state with a copy command of the slot in its cluster's queue 0. -/
def wBusy (f : Slot → Slot) : State := (wTask f).modCluster 0 fun c => { c with copies := [(0, [cp0])] }

theorem wit_TasksRetireAndLaunch_exit :
    (∀ s ∈ [wTask id, wBusy id], s.MemWf ∧ s.NoPrefix ∧ s.me.frame = none ∧ s.me.report = none ∧ s.me.streams = [] ∧ s.me.sb = [] ∧
      s.me.task = some task0 ∧ task0.kind = 0 ∧ launchOf s 0 1 = some lch) ∧
    enginesOut (wTask id) 0 = false ∧ enginesOut (wBusy id) 0 = true ∧ (wTask id).me.bound 1 ≠ 0 ∧
    (evOf (wTask id) (refOfName (wTask id) 0 ((wTask id).me.bound 1))).isSome = true ∧
    (∀ s ∈ [wTask fun x => { x with st := .interlocked (.texit 0) }, wBusy fun x => { x with st := .interlocked (.texit 0) }],
      s.MemWf ∧ s.NoPrefix ∧ s.me.frame = none ∧ s.me.report = none ∧ (s.slot 0).st = .interlocked (.texit 0) ∧
      (s.slot 0).streams = [] ∧ (s.slot 0).report = none ∧ (s.slot 0).task = some task0) ∧
    (let s := { wTask id with launches := [(0, lch), (0, { lch with id := 2, tcm := 1, group := 3, ex := 9, ey := 9, ez := 9 })] }
     successor s task0 (2 ^ 63 + 2) = true) := by decide +kernel

/-- A Sumac slot (s6 the address of a record, whose bytes are `m`). -/
def wRec (a : Word) (m : List (Nat × Nat)) : State := mem (su fun x => x.ws 6 a) m

theorem wit_TasksRetireAndLaunch_launch :
    (wRec 0x1000 []).MemWf ∧ (wRec 0x1000 []).me.sb = [] ∧ (wRec 0x1000 []).NoPrefix ∧ (wRec 0x1000 []).me.frame = none ∧ (wRec 0x1000 []).me.report = none ∧
    ¬((0 : Nat) = 0 ∧ (0 : Nat) ≠ 0) ∧ ((wRec 0x1004 []).me.rs 6).toNat % 64 ≠ 0 ∧
    isRemote (wRec 0x0050000000001000 []) 0x0050000000001000 = true ∧ 0x0050000000001000 % 64 = 0 ∧
    isRemote (wRec 0x1000 []) 0x1000 = false ∧ 0x1000 % 2 ^ 52 < winBase ∧ (wRec 0x1000 []).late = false ∧
    eventField (wRec 0x1000 []) 8320 0 0 10 = .ok none ∧
    (let s := wRec 0x1000 [(0x1000, 1)]
     (readBlock s 8320 0x1000 128).toOption.map (·.1) = some 1 ∧ checkRecord s 0 1 false ≠ 0 ∧ launchOf s 0 1 = none) := by
  decide +kernel

/-- A fault record of slot 0 held in its core. -/
def wHeldRec : State := (wk id).modDie 0 fun d => { d with held := [⟨0, 0, 0x40, 0, { code := 2 }⟩], tqbase := 0x4000 }

theorem wit_TasksRetireAndLaunch_held :
    wHeldRec.MemWf ∧ wHeldRec.NoPrefix ∧ wHeldRec.me.frame = none ∧ wHeldRec.me.report = none ∧
    (wHeldRec.die 0).held[0]? = some ⟨0, 0, 0x40, 0, { code := 2 }⟩ ∧ dieOfSlot 0 = 0 ∧ queued wHeldRec 0 < 252 ∧
    (wHeldRec.core (coreOf 0)).halted = false := by decide +kernel
/-! Dispatch, requests, the host, the device -/

/-- Tenant 0 enabled with weight 1 on cluster 0, with launch 1. -/
def wDisp (l : Launch) (pre : List Pre) : State :=
  { State.reset.modVi 0 fun v => { v with tencfg := BitVec.ofNat 64 (2 ^ 63 + 2 ^ 40), ptbr := 1 } with
    launches := [(0, l)], pre := pre, tlb := [⟨0, 0, 0, 2 ^ 29, 0xF800000000000000⟩] }

/-- A pre-empted task of launch 1, off its core. -/
def wAway : Pre := ⟨{ st := .running, task := some { task0 with x := 0, y := 0, z := 0, group := 0 } }, 0, 0, [], 0, [], true, false⟩

/-- Launch 1 with a bank a task and a group in dispatch. -/
def lch1 : Launch := { lch with tcm := 1 }

theorem wit_DispatchPlacesTasks :
    State.reset.MemWf ∧ nextAction State.reset 0 = none ∧
    (let s := wDisp { lch1 with inUse := [], out := 0 } []
     let l := { lch1 with inUse := [], out := 0 }
     s.MemWf ∧ nextAction s 0 = some (.place 0 [0] ⟨0, l, [⟨0, 0, 0, 0, 0, 0, 0, 0, 0⟩], []⟩ [⟨0, 0, []⟩]) ∧ l.kind = 0 ∧
     freeFrames l 1 = [0] ∧ l.args.length = 7 ∧ (s.slot 0).st = .free) ∧
    (let s := wDisp lch1 [wAway]
     s.MemWf ∧ nextAction s 0 = some (.place 0 [0] ⟨0, lch1, [⟨0, 0, 0, 7 - 7, 0, 0, 0, 0, 0⟩], [wAway]⟩ [⟨0, 0, []⟩]) ∧
     s.pre.find? (fun f => f.out && f.order == wAway.order) = some wAway ∧ lch1.kind = 0 ∧ wAway.slot.st ≠ .lingering ∧
     wAway.slot.task.all (fun k => k.kind == 0 && k.tcm == lch1.tcm && frameAt s k + 0x10000 + k.tcm * 4096 ≤ winBase)) := by
  decide +kernel

/-- Its TCM image can be read from its frame. -/
theorem wit_DispatchPlacesTasks_image :
    ∃ bs, saveRead ((wDisp lch1 [wAway]).modSlot 0 fun x => { x with vi := 0 }) 0 (localEa (0x100000 + 0x10000)) (1 * 4096) = some bs := by
  obtain ⟨l, e, q⟩ := localCells_ok ((wDisp lch1 [wAway]).modSlot 0 fun x => { x with vi := 0 }) 0 true (fun a => a % 2 ^ 52)
    (localEa 0) (localEa (2 ^ 29)) (by decide) (by decide)
    (fun a _ _ _ => by simp only [localEa] at *; omega) (1 * 4096) (localEa (0x100000 + 0x10000)) 1 0 (by decide) (by decide) (fun a ha hb => by
      have hw : ¬ winBase ≤ a % 2 ^ 52 := by simp only [winBase, localEa] at *; omega
      have hr : isRemote ((wDisp lch1 [wAway]).modSlot 0 fun x => { x with vi := 0 }) a = false := by
        have h1 : a / 2 ^ 52 % 2 ^ 12 = 0xFFF := by simp only [localEa] at *; omega
        unfold isRemote; rw [h1]; simp
      have h2 : a % 2 ^ 52 < 2 ^ 29 := by simp only [localEa] at *; omega
      have ht : ((wDisp lch1 [wAway]).modSlot 0 fun x => { x with vi := 0 }).tlb = [⟨0, 0, 0, 2 ^ 29, 0xF800000000000000⟩] := rfl
      have hv : (((wDisp lch1 [wAway]).modSlot 0 fun x => { x with vi := 0 }).slot 0).vi = 0 := by decide +kernel
      have hs : isSumac 0 = false := rfl
      have hc : coreOf 0 = 0 := rfl
      have hl : translate ((wDisp lch1 [wAway]).modSlot 0 fun x => { x with vi := 0 }) 0 0 (a % 2 ^ 52) =
          some (0xF800000000000000, 2 ^ 29) := by
        have hn : bit (((wDisp lch1 [wAway]).modSlot 0 fun x => { x with vi := 0 }).vif 0).ptbr.toNat 0 = true := by decide +kernel
        have h62 : bit 0xF800000000000000 62 = true := by decide
        simp only [Machine.translate, hn, Leaf.covers, ht, h62, List.find?, Bool.not_true, Bool.false_eq_true, if_false]
        rw [decide_eq_true (by omega : 0 ≤ a % 2 ^ 52), decide_eq_true (by omega : a % 2 ^ 52 < 0 + 2 ^ 29)]
        rfl
      have hp : permitted 0xF800000000000000 1 = true := by decide
      have hb58 : bit 0xF800000000000000 58 = false := by decide
      simp only [targetOf, if_neg hw, hr, hs, hv, hc, translated, hl, hp, hb58]
      simp only [Bool.false_eq_true, if_false, Bool.not_true, Bool.false_and]
      have hz : bits 0xF800000000000000 51 8 = 0 := by decide
      rw [hz, Nat.mod_eq_of_lt h2]
      simp [Except.map])
  have hh : l.any isHost = false := by
    simp only [List.any_eq_false]
    intro c hc
    obtain ⟨a, ha, hb, rfl⟩ := q c hc
    simp only [isHost, Bool.and_eq_true, decide_eq_true_eq, not_and]
    omega
  have hp : l.any (poisoned ((wDisp lch1 [wAway]).modSlot 0 fun x => { x with vi := 0 })) = false := by
    simp only [List.any_eq_false]
    intro c _
    exact Bool.not_eq_true _ |>.mpr rfl
  have hs : ∀ u : State, saveCells u 0 (localEa (0x100000 + 0x10000)) (1 * 4096) 1 = some l → l.any (poisoned u) = false →
      ∃ bs, saveRead u 0 (localEa (0x100000 + 0x10000)) (1 * 4096) = some bs := fun u h1 h2 =>
    ⟨readCells u l, by rw [saveRead, h1]; simp only [h2]; rfl⟩
  exact hs _ (by rw [saveCells, e]; simp only [hh]; rfl) hp

/-- Tenant 0 with an urgent launch 2 beside a background task on slot 0 that holds every bank of the only core that is not stopped. -/
def wUrgent : State :=
  let s := { State.reset.modVi 0 fun v => { v with tencfg := BitVec.ofNat 64 (3 * 2 ^ 62 + 2 ^ 40) } with
    launches := [(0, { lch1 with cls := 2, ex := 0, group := 1, doneIn := [] }), (0, { lch1 with id := 2, cls := 1, out := 0, inUse := [] })] }
  (List.range 15).foldl (fun t i => t.modCore (i + 1) fun c => { c with halted := true }) (s.modSlot 0 fun x =>
    { x with st := .running, task := some { task0 with tcm := 16 } })

/-- A task of group 1 on slot 0 that holds every bank of the only core that is not stopped, and one of group 0 of the same launch that
was pre-empted. -/
def wLower : State :=
  let s := { wDisp { lch1 with ex := 0, group := 2, inUse := [0, 1], out := 2 } [wAway] with tlb := [] }
  (List.range 15).foldl (fun t i => t.modCore (i + 1) fun c => { c with halted := true }) (s.modSlot 0 fun x =>
    { x with st := .running, task := some { task0 with tcm := 16, group := 1, frame := 1 } })

theorem wit_DispatchPlacesTasks_request :
    wUrgent.MemWf ∧ nextAction wUrgent 0 = some (.request [0] none (some (0, 2, 0))) ∧
    wLower.MemWf ∧ nextAction wLower 0 = some (.request [0] (some (0, 1)) none) := by decide +kernel
/-! Requests, byte rings, the host -/

/-- Tenant 0 enabled, its low device memory mapped onto itself for the interface and the dispatcher. -/
def wNet (m : List (Nat × Nat)) : State :=
  { mem (State.reset.modVi 0 fun v => { v with tencfg := BitVec.ofNat 64 (2 ^ 63 + 2 ^ 40), ptbr := 1 }) m with
    tlb := [⟨3000, 0, 0, 2 ^ 29, 0xF800000000000000⟩, ⟨4000, 0, 0, 2 ^ 29, 0xF800000000000000⟩] }

/-- A request of node 5: class, operation, address, size. -/
def pkt (cls op addr size : Nat) : Packet := ⟨cls, op, 0, 5 * 2 ^ 13, 0, 9, 1, addr, size, 0, 0x11, 0⟩

/-- That request alone in its queue. -/
def wIn (s : State) (q : Packet) : State := { s with ingress := [(ingressKey 0 q.cls, [q])] }

/-- A load of node 5 for low device memory, every die off. -/
def wDark : State :=
  { wIn (wNet []) (pkt 1 1 0x1000 8) with dies := [(0, { off := true }), (1, { off := true }), (2, { off := true }), (3, { off := true })] }

theorem wit_RequestsAndByteRings_sleeps :
    wDark.MemWf ∧ wDark.ingress.get (ingressKey 0 1) [] = [pkt 1 1 0x1000 8] ∧ requestSleeps wDark (pkt 1 1 0x1000 8) = true := by
  have h : ∀ d : Fin 4, (wDark.die d.val).off = true := by decide +kernel
  have e : agentCells wDark ingressTlb 0 0x1000 8 1 = .ok (run 0x1000 8) := by decide +kernel
  have d : (wDark.dies.any fun e => e.2.off) = true := by decide +kernel
  refine ⟨by decide +kernel, by decide +kernel, ?_⟩
  have a : asleep wDark (run 0x1000 8) = true :=
    List.any_eq_true.mpr ⟨0x1000, by decide, by simp [cellAsleep, isDev, d, show (wDark.die (dieOfCell 0x1000)).off = true from h (Config.dieOf _)]⟩
  show (match agentCells wDark ingressTlb 0 0x1000 8 1 with
    | .ok cells => true && asleep wDark cells
    | .error _ => false) = true
  rw [e]
  exact a

theorem wit_RequestsAndByteRings_requests :
    (∀ e ∈ [(0, 0, 2), (1, 1, 1)],
      let q := pkt e.1 e.2.1 0x1000 8
      let s := wIn (wNet []) q
      s.MemWf ∧ s.ingress.get (ingressKey 0 e.1) [] = [q] ∧ q.cls ≠ 5 ∧ bit (s.vif q.vi).tencfg.toNat 63 = true ∧
      agentCells s ingressTlb q.vi q.addr q.size e.2.2 = .ok (run 0x1000 8) ∧ (run 0x1000 8).Nodup ∧ requestSleeps s q = false ∧
      ∀ c ∈ run 0x1000 8, isTarn c = false ∧ poisoned s c = false) ∧
    (let q := pkt 3 2 0x1000 8
     let s := { wIn (wNet []) q with cache := [(5 * 2 ^ 13, [(9, 7, 0)])] }
     s.ingress.get (ingressKey 0 3) [] = [q] ∧ savedAnswer s q = some (7, 0) ∧ requestSleeps s q = false) ∧
    (let q := pkt 1 1 0x1000 8
     let s := wIn State.reset q
     s.MemWf ∧ s.ingress.get (ingressKey 0 1) [] = [q] ∧ bit (s.vif q.vi).tencfg.toNat 63 = false ∧
     requestSleeps s q = false) := by decide +kernel

/-- A byte ring of 4096 bytes at 0x100000, its block at 0x10000 in registration 5 as `bind` says; RESV is `resv`. -/
def wRing (bind resv : Nat) (g : Regn → Regn) : State :=
  (wNet [(0x10002, 0x10), (0x10008, 12), (0x10020, resv % 256), (0x10021, resv / 256)]).modRegn 5 fun _ =>
    g { w0 := 0x10000, w1 := BitVec.ofNat 64 (2 ^ 63 + bind * 2 ^ 61), w2 := BitVec.ofNat 64 (0xFFE * 2 ^ 32) }

theorem wit_RequestsAndByteRings_appends :
    (let q := pkt 4 4 0x10040 16
     let s := wIn (wRing 0 0 id) q
     s.MemWf ∧ s.ingress.get (ingressKey 0 4) [] = [q] ∧ nodeOfAgent q.src ≠ s.node ∧ agentSleeps s 0 q.addr 64 = false ∧
     bit (s.vif 0).tencfg.toNat 63 = true ∧ findRing s 0 (q.addr / 64 * 64) = none ∧
     bit ((s.modVi 0 fun v => { v with tencfg := 0 }).vif 0).tencfg.toNat 63 = false) ∧
    (∀ a ∈ [0x10008, 0x10000], ∀ g ∈ [fun (g : Regn) => { g with w2 := 0xFFF }, id],
      let q := pkt 4 4 a 16
      let s := wIn (wRing 0 0 g) q
      let lo := bits (s.regn 5).w2.toNat 11 0
      let hi := bits (s.regn 5).w2.toNat 43 32
      s.MemWf ∧ s.ingress.get (ingressKey 0 4) [] = [q] ∧ nodeOfAgent q.src ≠ s.node ∧ agentSleeps s 0 q.addr 64 = false ∧
      findRing s 0 (q.addr / 64 * 64) = some 5 ∧ (readBrb s 0 q.addr = none ↔ a = 0x10008) ∧
      (lo ≤ 5 ∧ 5 ≤ (if hi = 0xFFF then s.node else hi) ↔ hi = 0xFFE)) ∧
    (∀ e ∈ [(0, 0), (4096, 4096)],
      let q := pkt 4 4 0x10000 16
      let s := wIn (wRing 0 e.1 id) q
      let b : Brb := ⟨run 0x10000 64, 0x100000, 4096, 0x100000 + 12 * 2 ^ 64 + e.2 * 2 ^ 256⟩
      s.MemWf ∧ s.ingress.get (ingressKey 0 4) [] = [q] ∧ nodeOfAgent q.src ≠ s.node ∧ agentSleeps s 0 q.addr 64 = false ∧
      findRing s 0 q.addr = some 5 ∧ bits (s.regn 5).w2.toNat 11 0 ≠ 0xFFF ∧ bits (s.regn 5).w2.toNat 43 32 ≠ 0xFFF ∧
      bits (s.regn 5).w2.toNat 11 0 ≤ nodeOfAgent q.src ∧ nodeOfAgent q.src ≤ bits (s.regn 5).w2.toNat 43 32 ∧
      (readBrb s 0 q.addr).map (fun r => (r.cells, r.base, r.size, r.raw)) = some (b.cells, b.base, b.size, b.raw) ∧
      dword b.raw 4 % b.size + q.size ≤ b.size ∧
      (if e.1 = 4096 then b.size - (dword b.raw 4 - consOf (s.regn 5) b) < q.size else q.size ≤ b.size - (dword b.raw 4 - consOf (s.regn 5) b)) ∧
      agentCells s ingressTlb (s.regn 5).vi (b.base + dword b.raw 4 % b.size) q.size 1 = .ok (run 0x100000 16) ∧
      agentCells s ingressTlb (s.regn 5).vi (b.base + dword b.raw 4 % b.size) q.size 2 = .ok (run 0x100000 16)) := by decide +kernel

/-- A record of 16 bytes at the head of the ring, of type `typ`, in stage `st`. -/
def rec0 (typ st len : Nat) : RingRec := ⟨0, len, typ, 0, 0x100000, st, false, 0, 0, 0x10000⟩

/-- The 128 bytes of a launch record that is accepted, `k` the record's address: a grid of one task. -/
def good (k : Nat) : List (Nat × Nat) := [(k + 2, 1), (k + 4, 1), (k + 9, 0x10)]

/-- Its number. -/
def goodRec : Nat := 0x0000000100010000 + 0x1000 * 2 ^ 64

theorem wit_RequestsAndByteRings_publish :
    (∀ b ∈ [0, 1], let s := wRing b 16 fun g => { g with recs := [rec0 1 1 16], cons := some 0 }
     s.MemWf ∧ nextPublished (s.regn 5).recs = [rec0 1 1 16] ∧ (readBrb s 0 0x10000).isSome = true ∧
     (s.regn 5).bind = b ∧ recordSleeps s 5 = false) ∧
    (let s := { (wRing 1 16 fun g => { g with recs := [rec0 1 2 16], launch := some 1, cons := some 0 }) with launches := [(0, { lch with kind := 3 })] }
     s.MemWf ∧ (s.regn 5).launch = some 1 ∧ nextArrival (s.regn 5) = some (rec0 1 2 16) ∧ (s.regn 5).bind = 1 ∧
     recordReadable s (s.regn 5) (rec0 1 2 16) = true ∧ recordSleeps s 5 = false ∧ launchOf s (s.regn 5).vi 1 = some { lch with kind := 3 }) ∧
    (let s := wRing 0 16 fun g => { g with recs := [{ rec0 1 2 16 with done := true }], cons := some 0 }
     s.MemWf ∧ (s.regn 5).cons = some 0 ∧ releasable 0 (s.regn 5).recs ≠ 0 ∧
     agentRead s (s.regn 5).vi (s.regn 5).brb 64 ≠ none ∧
     agentCells s ingressTlb (s.regn 5).vi ((s.regn 5).brb + 24) 8 2 = .ok (run 0x10018 8)) := by decide +kernel

theorem wit_RequestsAndByteRings_offer :
    let e := { rec0 1 1 16 with event := 2 ^ 30 }
    let s0 := wRing 1 16 fun g => { g with recs := [e], cons := some 0 }
    let s := withEv s0 { parties := [ringParty s0 5] }
    let g := s.regn 5
    let r := refInView s (meshBase s e.vi) (min 128 (meshSize s e.vi)) e.event
    s.MemWf ∧ nextPublished g.recs = [e] ∧ (readBrb s e.vi e.brb).isSome = true ∧ e.event ≠ 0 ∧
    (evOf s r).map (fun v => (v.broken, v.parties)) = some (false, [ringParty s 5]) := by decide +kernel

theorem wit_RequestsAndByteRings_launch :
    let s := { mem (wRing 1 136 fun g => { g with recs := [rec0 2 2 136], launch := some 1, cons := some 0 }) (good 0x100008) with
      launches := [(0, { lch with kind := 3 })] }
    s.MemWf ∧ (s.regn 5).launch = some 1 ∧ nextArrival (s.regn 5) = some (rec0 2 2 136) ∧ (s.regn 5).bind = 1 ∧
    recordReadable s (s.regn 5) (rec0 2 2 136) = true ∧ recordSleeps s 5 = false ∧ agentRead s (s.regn 5).vi (0x100000 + 8) 128 = some goodRec ∧
    checkRecord s (s.regn 5).vi goodRec false = 0 ∧ launchOf (s.modVi 0 fun v => { v with nextId := 2 }) 0 2 = none := by decide +kernel

theorem wit_TasksRetireAndLaunch_accepted :
    let s := wRec 0x1000 (good 0x1000)
    (readBlock s 8320 0x1000 128).toOption.map (·.1) = some goodRec ∧ checkRecord s 0 goodRec false = 0 ∧ launchOf s 0 1 = none := by
  decide +kernel

theorem wit_RequestsAndByteRings_registration :
    bit ((wRing 0 0 id).regn 5).w1.toNat 63 = true ∧ ((wRing 0 0 id).regn 5).bind ≠ 1 ∧ ((wRing 1 0 id).regn 5).bind = 1 ∧
    bit ((wRing 0 0 id).regn 6).w1.toNat 63 = false ∧ registered (wRing 0 0 id) 5 0x10000 0 = false ∧
    registered (wRing 0 0 id) 6 0x10000 0 = true ∧
    bits (regnWord 0 (2 ^ 63)) 62 61 ≠ 2 ∧ bits (regnWord 0 (3 * 2 ^ 62)) 62 61 = 2 := by decide +kernel

/-- Tenant 0 with command queue 1 (four entries at host address 0x4000): the bytes `m` of its first command. -/
def wHost (m : List (Nat × Nat)) (tail : Nat) (f : Vi → Vi) : State :=
  mem ((wNet []).modVi 0 fun v => f { v with
    queues := [(1, { base := 0x4000, ctl := 0x8000000000000002, tail := tail })]
    cqbase := 0x8000, cqctl := 0x8000000000000002 }) m

/-- Whether queue 1 of tenant 0 holds no more commands than it has entries. -/
abbrev roomy (s : State) : Prop :=
  let u := (s.vif 0).queues.get 1 {}
  dist32 u.tail u.head ≤ queueSize u.ctl

theorem wit_HostLaunchesAndCompletions_commands :
    (∀ r ∈ [good (hostBase + 0x4010), []],
      let s := wHost ((hostBase + 0x4000, 1) :: (hostBase + 0x4008, 9) :: r) 1 id
      s.MemWf ∧ nextQueue s 0 = some 1 ∧ roomy s ∧ commandBad (commandAt s 0 1) = false ∧ commandAt s 0 1 % 2 ^ 8 = 1 ∧
      commandAt s 0 1 / 2 ^ 128 % 2 ^ 1024 = (if r = [] then 0 else goodRec) ∧
      (checkRecord s 0 (commandAt s 0 1 / 2 ^ 128 % 2 ^ 1024) true = 0 ↔ r ≠ []) ∧ launchOf s 0 (s.vif 0).nextId = none) ∧
    (∀ ls ∈ [[], [(0, lch)]],
      let s := { wHost [(hostBase + 0x4000, 2), (hostBase + 0x4008, 9), (hostBase + 0x4010, 1)] 1 id with launches := ls }
      lch.ring = none ∧ s.MemWf ∧ nextQueue s 0 = some 1 ∧ roomy s ∧ commandBad (commandAt s 0 1) = false ∧ commandAt s 0 1 % 2 ^ 8 = 2 ∧
      dword (commandAt s 0 1) 2 % 2 ^ 32 = 1 ∧ launchOf s 0 1 = if ls = [] then none else some lch) ∧
    (let s := wHost [(hostBase + 0x4000, 3)] 1 id
     s.MemWf ∧ nextQueue s 0 = some 1 ∧ roomy s ∧ commandBad (commandAt s 0 1) = true ∧ commandAt s 0 1 % 2 ^ 8 ≠ 2) ∧
    nextQueue (wHost [] 0 id) 0 = none := by decide +kernel

theorem wit_HostLaunchesAndCompletions_ends :
    (let s := wHost [] 0 fun v => { v with waiting := [(9, 0x100000120)], cqie := true }
     s.MemWf ∧ (s.vif 0).waiting = (9, 0x100000120) :: [] ∧ bit (s.vif 0).cqctl.toNat 63 = true ∧
     dist32 (s.vif 0).cqtail (s.vif 0).cqhead < queueSize (s.vif 0).cqctl) ∧
    (let l := { lch with out := 0, group := 2, donew := 0x2000 }
     let s := { wNet [] with launches := [(0, l)] }
     s.MemWf ∧ launchOf s 0 1 = some l ∧ moreToDispatch l = false ∧ l.out = 0 ∧ l.donew ≠ 0 ∧ isRemote s l.donew = false ∧
     agentCells s dispatcher 0 l.donew 8 2 = .ok (run 0x2000 8) ∧ (run 0x2000 8).Nodup ∧ asleep s (run 0x2000 8) = false ∧
     ∀ c ∈ run 0x2000 8, isDev c = true ∧ poisoned s c = false) ∧
    moreToDispatch lch = true := by decide +kernel
/-! Device registers, power, links, Ethernet, steps -/

/-- An invalidation command at the head of the queue (at 0x6000): the bytes `m` of it. -/
def wInv (m : List (Nat × Nat)) : State := { mem State.reset m with invq := 0x6000, invdb := 1 }

theorem wit_DeviceRegistersAct_tenants :
    (∀ x ∈ [0, 2 ^ 63, 2 ^ 63 + 2 ^ 40 + 0x301], (bit x 63 = true ∧ bits x 6 0 % 2 ^ bits x 10 8 ≠ 0) ∨ bits x 55 40 = 0) ∧
    (∀ x ∈ [2 ^ 63 + 2 ^ 40, 2 ^ 40 + 0x301], ¬((bit x 63 = true ∧ bits x 6 0 % 2 ^ bits x 10 8 ≠ 0) ∨ bits x 55 40 = 0)) ∧
    (State.reset.vif 1).made = false ∧ ((State.reset.modVi 1 fun v => { v with made := true }).vif 1).made = true := by decide +kernel

theorem wit_DeviceRegistersAct_acknowledged :
    (let s := { State.reset with inval := some (1, 0, 0, 0) }
     s.MemWf ∧ s.inval = some (1, 0, 0, 0) ∧ s.pre = [] ∧ s.slots.all (fun e => !stillCovered 1 0 0 0 e.2.vi e.2) = true) ∧
    (let s := { (wk fun x => { x with sb := [⟨0x1000, [0x1000], 5, none, 0, 0, []⟩] }) with inval := some (1, 0, 0, 0) }
     s.MemWf ∧ s.inval = some (1, 0, 0, 0) ∧ s.slots.any (fun e => stillCovered 1 0 0 0 e.2.vi e.2) = true) := by decide +kernel

theorem wit_DeviceRegistersAct :
    State.reset.MemWf ∧
    bit (State.reset.vif 1).tencfg.toNat 63 = false ∧ bit State.reset.smsel.toNat 63 = false ∧
    (let s := { State.reset with smsel := 0x8000000000000010 }
     bit s.smsel.toNat 63 = true ∧ 0x10 ≤ (smSelected s).2 ∧ csrRead s (smSelected s).1 (smSelected s).2 ≠ none) ∧
    State.reset.booted = true ∧
    (∀ e ∈ [(0, 1), (1, 0), (2, 0)],
      let s := wInv [(0x6000, e.1), (0x6010, 0), (0x6012, e.2)]
      let cmd := s.raw (s.invq.toNat + 32 * (s.invack % 64)) 32
      s.MemWf ∧ s.inval = none ∧ s.invdb ≠ s.invack ∧ asleep s ((List.range 32).map (s.invq.toNat + 32 * (s.invack % 64) + ·)) = false ∧
      bits (dword cmd 0) 15 14 = 0 ∧ bits (dword cmd 0) 63 18 = 0 ∧
      bits (dword cmd 0) 7 0 = e.1 ∧ dword cmd 3 = 0 ∧ dword cmd 1 % 2 ^ 16 = 0 ∧ dword cmd 2 % 2 ^ 16 = 0 ∧
      (e.1 = 0 → dword cmd 2 ≠ 0)) ∧
    (∀ m ∈ [[(0x6004, 1)], [(0x6001, 0x40)]], (wInv m).MemWf ∧ (wInv m).inval = none ∧ (wInv m).invdb ≠ (wInv m).invack ∧
      asleep (wInv m) ((List.range 32).map ((wInv m).invq.toNat + 32 * ((wInv m).invack % 64) + ·)) = false) ∧
    bits (dword ((wInv [(0x6004, 1)]).raw 0x6000 32) 0) 63 18 ≠ 0 ∧ bits (dword ((wInv [(0x6004, 1)]).raw 0x6000 32) 0) 15 14 = 0 ∧
    bits (dword ((wInv [(0x6001, 0x40)]).raw 0x6000 32) 0) 15 14 ≠ 0 ∧
    (let s := State.reset.modVi 3 fun v => { v with go := true, raddr := 0x9000 }
     s.MemWf ∧ (s.vif 3).go = true) := by decide +kernel

/-- Cluster `p` as `f` makes it. -/
def wCl (p : Nat) (f : Cluster → Cluster) : State := State.reset.modCluster p f

/-- Die 0 with every cluster in C2, and no trap or block event at its resolver above index 47. -/
def wOff : State :=
  (List.range 32).foldl (fun t p => t.modCluster p fun c => { c with cur := 2 }) (State.reset.modDie 0 fun d => { d with offReq := true })

theorem wit_PowerLinksAndResets_power :
    ((State.reset.die (0 / 32)).off = false ∧ ((wCl 0 fun c => { c with cur := 1 }).cluster 0).req = 0 ∧
      ((wCl 0 fun c => { c with cur := 1 }).cluster 0).cur ≠ 0 ∧ ((wCl 0 fun c => { c with req := 1 }).cluster 0).req = 1 ∧
      ((wCl 0 fun c => { c with req := 1 }).cluster 0).cur ≠ 1) ∧
    (let s := wCl 0 fun c => { c with req := 2 }
     (s.cluster 0).req = 2 ∧ (s.cluster 0).cur ≠ 2 ∧ (s.cluster 0).refused = false ∧ refusesC2 s 0 = false ∧
     ((s.modCluster 0 fun c => { c with refused := true }).cluster 0).refused = true ∧
     refusesC2 (s.modSlot 0 fun x => { x with st := .running }) 0 = true) ∧
    ((wOff.die 0).offReq = true ∧ (wOff.die 0).off = false ∧ (wOff.die 0).refused = false ∧ refusesC3 wOff 0 = false ∧
      ((wOff.modDie 0 fun c => { c with refused := true }).die 0).refused = true ∧
      refusesC3 (wOff.modCluster 3 fun c => { c with cur := 1 }) 0 = true) ∧
    (let s := State.reset.modDie 0 fun d => { d with off := true }
     (s.die 0).offReq = false ∧ (s.die 0).off = true) ∧
    (let w := (0x8000000000006903 : Word).toNat
     bit w 63 = true ∧ bits w 15 8 ≤ 255 ∧ (State.reset.die 0).pcur < bits w 1 0) := by decide +kernel

theorem wit_PowerLinksAndResets_links :
    (let s := net State.reset
     let f : Flit := ⟨0, true, none, none, none⟩
     portUp s 0 = true ∧ f.crcOk = true ∧ f.seq % 4096 = (s.port 0).rxSeq ∧ f.packet = none ∧ (s.port 0).wait = [] ∧
     ∀ b ∈ [true, false], ∀ n ∈ [4095, 2048], let t := s.modPort 0 fun q => { q with replay := b }
       let g : Flit := { f with crcOk := false, seq := n }
       portUp t 0 = true ∧ g.crcOk = false ∧ f.crcOk = true ∧ (t.port 0).replay = b ∧ g.seq % 4096 ≠ (t.port 0).rxSeq ∧
       oldSeq (t.port 0).rxSeq g.seq = true) ∧
    (∀ b ∈ [true, false], let s := (net State.reset).modPort 0 fun q => { q with replay := b, buf := [⟨0, true, none, none, none⟩], fails := 15 }
     portUp s 0 = true ∧ (s.port 0).replay = b ∧ (s.port 0).buf[1 - 1]? = some ⟨0, true, none, none, none⟩ ∧ (s.port 0).failSeq = 0 ∧
     16 ≤ (s.port 0).fails + 1) ∧
    (∀ l ∈ [0, 16, 17], ∀ e ∈ portDies l, (State.reset.die e).off = false) ∧
    (let s := State.reset.modPort 2 fun q => { q with pmin := 3 }
     (s.port 2).minNow ≠ (s.port 2).pmin ∧ poolUse s (s.port 2).rx ((s.port 2).minNow + 1) < poolSize s ((s.port 2).pmin + 1)) ∧
    (let v : Ev := { live := true, parties := [7 * 2 ^ 28 + 5 * 2 ^ 13] }
     let s := State.reset.modHome 132 fun r => { r with evs := [(3, v)] }
     5 ≠ s.node ∧ 5 < 4096 ∧ (s.home 132).evs.get 3 {} = v ∧ v.live = true ∧ ∀ a ∈ v.parties, bits a 24 13 = 5) := by decide +kernel

/-- Send queue 3 of VI 0, its request at offset 0 of the window with the bytes `m`, its doorbell at 0x800, its counter at 0x900;
endpoint 7. -/
def wUe (m : List (Nat × Nat)) (f : SendQ → SendQ) : State :=
  { (mem (wNet []) (((0x800, 1) :: (33, 9) :: m).map fun e => (mereBase 0 + e.1, e.2))).modDie 0 fun d =>
      { d with mstw := [(0, 0x10000000)], mscr := 1 } with
    sendqs := [(3, f { ctl := 0x8000000000000002, db := 0x800 })]
    endpts := [(7, { w0 := 0x8000000000000050 })] }

theorem wit_EthernetHostAndErrors_requests :
    ∀ op ∈ [1, 2, 3],
      (let s := wUe [(7, op), (4, 7), (0, 16), (9, 0x10)] id
       let l := workWords s 3 0
       s.MemWf ∧ nextWork s 3 = some 0 ∧ workOp l = op ∧ workBad s 0 l = false ∧ epBad s 0 l = false) ∧
      (let s := wUe [(7, op), (4, 7), (9, 0x10)] id
       let l := workWords s 3 0
       s.MemWf ∧ nextWork s 3 = some 0 ∧ workOp l = op ∧ workBad s 0 l = true ∧ bit (workWord l 5) 63 = false ∧
       (sendQ s 3).recs = [] ∧ ueCells s 0 (workWord l 4) 8 = some (run (mereBase 0 + 0x900) 8) ∧
       (run (mereBase 0 + 0x900) 8).Nodup ∧ asleep s (run (mereBase 0 + 0x900) 8) = false) := by decide +kernel

theorem wit_EthernetHostAndErrors_progress :
    ∀ op ∈ [1, 3],
      let s0 := wUe [(7, op), (4, 7), (0, 16), (9, 0x10)] id
      let l := workWords s0 3 0
      let s := wUe [(7, op), (4, 7), (0, 16), (9, 0x10)] fun u => { u with work := [(0, l, 0)] }
      s.MemWf ∧ (sendQ s 3).work.find? (fun e => e.1 == 0) = some (0, l, 0) ∧ bit (workWord l 5) 63 = false ∧ (sendQ s 3).recs = [] ∧
      ueCells s 0 (workWord l 4) 8 = some (run (mereBase 0 + 0x900) 8) ∧ workOp l = op ∧
      localBytes s 0 l 2 = some (run 0x1000 16) ∧ (run 0x1000 16).Nodup ∧ (∀ c ∈ run 0x1000 16, isDev c = true) ∧
      asleep s (run (mereBase 0 + 0x900) 8) = false ∧ asleep s (run 0x1000 16) = false ∧
      ∀ c ∈ run (mereBase 0 + 0x900) 8, c ∉ run 0x1000 16 := by decide +kernel

theorem wit_EthernetHostAndErrors_region (h : Config.ueRegion 7 = some (0, 0x1000, 64)) :
    regionCells (wNet []) 7 0 8 2 = some (run 0x1000 8) ∧ regionCells (wNet []) 7 0 8 1 = some (run 0x1000 8) ∧
      asleep (wNet []) (run 0x1000 8) = false := by
  simp only [regionCells, h]; decide +kernel

theorem wit_EthernetHostAndErrors_arrivals :
    (∀ r ∈ [0, 4096], let s := { wRing 0 r id with endpts := [(7, { w0 := 0x8000000000000050 })] }
     let w := (s.endpts.get 7 {}).w0.toNat
     let data := [1, 2, 3, 4, 5, 6, 7, 8, 9]
     s.MemWf ∧ bit w 63 = true ∧ bits w 16 4 = 5 ∧ data.length = 9 ∧ s.ueIn = [] ∧ bit (s.regn 5).w1.toNat 63 = true ∧ (s.regn 5).vi = bits w 37 32 ∧
     (readBrb s (s.regn 5).vi (s.regn 5).brb).any (fun b => dword b.raw 4 == r && b.size == 4096 && consOf (s.regn 5) b == 0) = true ∧
     bit (((s.modRegn 5 fun g => { g with w1 := 0 }).regn 5).w1.toNat) 63 = false ∧
     agentCells s ingressTlb 0 0x100000 24 1 = .ok (run 0x100000 24) ∧ agentCells s ingressTlb 0 0x100000 24 2 = .ok (run 0x100000 24) ∧
     (run 0x100000 24).Nodup ∧ asleep s (run 0x100000 24) = false ∧ ∀ c ∈ run 0x100000 24, isDev c = true) ∧
    64 * 2 + 96 ≤ ({ State.reset with time := 300 }).time ∧ State.reset.time < 64 * 2 + 96 := by decide +kernel

theorem wit_StepRunsTheDecodedInstruction_issue :
    (let s := mem (su id) [(0, 0x00), (1, 0x1E), (2, 0xA5), (3, 0x04)]
     let t := { (tick s 1).modCore 2080 fun x => { x with rot := turnDone x.rot 0 } with cur := 8320 }
     s.power = true ∧ takeTurn s = (⟨1, .issue 2080⟩, s) ∧ nextSlot (tick s 1) 2080 = some 8320 ∧ preemptActs t 8320 = false ∧
     handlerDue t 8320 = false ∧ (t.slot 8320).frame = none ∧ (t.slot 8320).again = none ∧
     fetchWord t 8320 (t.slot 8320).pc = .ok 0x04A51E00 ∧ fetchCell t 8320 (t.slot 8320).pc = .ok 0 ∧ poisoned t 0 = false ∧
     t.icache = []) ∧
    (let s := su fun x => { x with again := some 0xFF }
     let t := { (tick s 1).modCore 2080 fun x => { x with rot := turnDone x.rot 0 } with cur := 8320 }
     nextSlot (tick s 1) 2080 = some 8320 ∧ (t.slot 8320).again = some 0xFF ∧ (decode 0xFF).toOption = none) ∧
    (let f : Frame := ⟨[0x04A51E00], 3, 1, 0, 0, 0, 1, 0x40⟩
     let s := su fun x => { x with frame := some f }
     let t := { (tick s 1).modCore 2080 fun x => { x with rot := turnDone x.rot 0 } with cur := 8320 }
     takeTurn s = (⟨1, .issue 2080⟩, s) ∧ nextSlot (tick s 1) 2080 = some 8320 ∧ preemptActs t 8320 = false ∧
     handlerDue t 8320 = false ∧ (t.slot 8320).frame = some f ∧ f.words[f.rpos]? = some 0x04A51E00) ∧
    (let s := { State.reset with agenda := [⟨0, .event (.rollup 0)⟩] }
     s.power = true ∧ takeTurn s = (⟨0, .event (.rollup 0)⟩, { s with agenda := [] })) := by decide +kernel

theorem wit_StepRunsTheDecodedInstruction_fault :
    let s := su fun x => { x with pc := 0x100 }
    let p := { s with poison := [4] }
    let t := { (tick p 1).modCore 2080 fun x => { x with rot := turnDone x.rot 0 } with cur := 8320 }
    takeTurn p = (⟨1, .issue 2080⟩, p) ∧ nextSlot (tick p 1) 2080 = some 8320 ∧ preemptActs t 8320 = false ∧ handlerDue t 8320 = false ∧
    (t.slot 8320).frame = none ∧ (t.slot 8320).again = none ∧ (fetchWord t 8320 (t.slot 8320).pc).toOption = none := by decide +kernel

theorem wit_EncodedInstructionsDecodeToThemselves :
    wellFormed (.addi 5 6 0x3FFC) = true ∧ (Instr.addi 5 6 0x3FFC).isAgentStep = false := by decide

theorem wit_EveryStepKeepsTheMemoryForm : State.reset.MemWf ∧ ∃ t, step State.reset = .next t :=
  ⟨by decide +kernel, _, rfl⟩
/-! ### Single steps: the expected values are worked out from the rules that the comments name -/

/-- The state after an instruction that completes. -/
def after (o : Host.Outcome State Fault Refusal) (s : State) : State :=
  match o with
  | .next t => t
  | _ => s

/-- s`d` after instruction `i` with s1 = x, s2 = y, s3 = z. -/
def sc (i : Instr) (d : Nat) (x y z : Word) : Word :=
  let s := wk fun n => ((n.ws 1 x).ws 2 y).ws 3 z
  (after (exec i s) s).me.rs d

-- 04 R79
theorem test_add_wraps : sc (.add 4 1 2) 4 0xFFFFFFFFFFFFFFFF 2 0 = 1 := by decide +kernel
theorem test_write_of_s0_is_discarded : sc (.add 0 1 2) 0 5 2 0 = 0 := by decide +kernel
theorem test_mulh_of_negatives : sc (.mulh 4 1 2) 4 0xFFFFFFFFFFFFFFFF 0xFFFFFFFFFFFFFFFF 0 = 0 := by decide +kernel
theorem test_mulhn_of_all_ones : sc (.mulhn 4 1 2) 4 0xFFFFFFFFFFFFFFFF 0xFFFFFFFFFFFFFFFF 0 = 0xFFFFFFFFFFFFFFFE := by decide +kernel
theorem test_div_rounds_to_zero : sc (.div 4 1 2) 4 0xFFFFFFFFFFFFFFF9 2 0 = 0xFFFFFFFFFFFFFFFD := by decide +kernel
theorem test_div_by_zero : sc (.div 4 1 2) 4 7 0 0 = 0xFFFFFFFFFFFFFFFF := by decide +kernel
theorem test_rem_by_zero : sc (.rem 4 1 2) 4 7 0 0 = 7 := by decide +kernel
theorem test_rem_takes_the_sign_of_the_dividend : sc (.rem 4 1 2) 4 0xFFFFFFFFFFFFFFF9 2 0 = 0xFFFFFFFFFFFFFFFF := by decide +kernel
theorem test_shift_amount_is_six_bits : sc (.shl 4 1 2) 4 1 65 0 = 2 := by decide +kernel
theorem test_sar_keeps_the_sign : sc (.sar 4 1 2) 4 0x8000000000000000 63 0 = 0xFFFFFFFFFFFFFFFF := by decide +kernel
theorem test_ext_of_eight_bits_at_four : sc (.ext 4 1 2) 4 0xABCD 0x0704 0 = 0xBC := by decide +kernel
theorem test_ins_of_eight_bits_at_four : sc (.ins 3 1 2) 3 0xFF 0x0704 0xFFFFFFFFFFFF000F = 0xFFFFFFFFFFFF0FFF := by decide +kernel
theorem test_sext_from_bit_seven : sc (.sext 4 1 2) 4 0x80 7 0 = 0xFFFFFFFFFFFFFF80 := by decide +kernel
-- 04 R80: in SLTIN the sign-extended immediate is a natural number
theorem test_sltin_of_minus_one : sc (.sltin 4 1 0x3FFF) 4 5 0 0 = 1 := by decide +kernel
theorem test_lui_sign_extends : sc (.lui 4 0x80000) 4 0 0 0 = 0xFFFFFFFE00000000 := by decide +kernel

-- 04 R81, R82
theorem test_branch_backwards :
    let s := su fun x => { x with pc := 0x100 }
    (after (exec (.bz 1 0x1FFFF) s) s).me.pc = 0xFC := by decide +kernel
theorem test_jl_links :
    let s := su fun x => { x with pc := 0x100 }
    (after (exec (.jl 2) s) s).me.pc = 0x108 ∧ (after (exec (.jl 2) s) s).me.rs 62 = 0x104 := by decide +kernel
-- 04 R84: a landing on a word that is no PAD is a fatal fault, which halts a Sumac core's slot
theorem test_jx_without_a_pad_is_a_fault :
    let s := wTrap 0
    (after (exec (.jx 3 2) s) s).me.pc ≠ 0x1000 := by decide +kernel
-- 04 R75; 20 R301, R302: CSRR of a privileged register in user mode raises PRIV, which is fatal: the task ends
theorem test_user_read_of_a_privileged_register :
    (after (exec (.csrr 4 0x11) (wTask id)) (wTask id)).me.st = .free := by decide +kernel
theorem test_csrw_returns_the_old_value :
    let s := wk fun x => { x.ws 1 0xFFFFF with fmt := 0x0123 }
    (after (exec (.csrw 4 1 0) s) s).me.rs 4 = 0x0123 ∧ (after (exec (.csrw 4 1 0) s) s).me.fmt = 0xFFFF := by decide +kernel
-- 20 R302, R317: the record of TRAP: code 0x20 in bits 7–0, the agent in bits 63–32, SEQ last
theorem test_trap_posts_its_record :
    let s := wk fun x => x.ws 2 0x77
    let u : Trap := { code := 0x20, kind := 6, data0 := 0x77, data1 := 9 }
    exec (.trap 1 2 9) s = .next (takeTrap s 0 u) ∧
    recordWords s (faultRec s 0 u) 1 = [0x20, 0, 0, 6 * 2 ^ 32, 0x77, 9, 0, 1] := ⟨rfl, by decide +kernel⟩
-- 04 R87: a count of zero moves past the body
theorem test_rpt_of_count_zero :
    let s := mem (su id) [(4, 0x01), (7, 0x04)]
    (after (exec (.rpt 0 5 1 1 1) s) s).me.pc = 8 := by decide +kernel
-- 04 R77: a prefix gives its formats to one instruction
theorem test_prefix_is_used_once :
    let s := wk fun x => { x with pfx := some 0 }
    (after (exec (.vfadd 1 2 3 0) s) s).me.pfx = none := by decide +kernel
-- 04 R83
theorem test_tid_packs_the_coordinates :
    (after (exec (.tid 4) (wTask id)) (wTask id)).me.rs 4 = 0x0000000100020003 := by decide +kernel

/-- A Sumac slot with s1 = 0x2000, s2 = `y`, s3 = `z` and the doubleword 0x8877665544332281 at 0x2000. -/
def wm (y z : Word) : State :=
  mem (su fun x => ((x.ws 1 0x2000).ws 2 y).ws 3 z)
    [(0x2000, 0x81), (0x2001, 0x22), (0x2002, 0x33), (0x2003, 0x44), (0x2004, 0x55), (0x2005, 0x66), (0x2006, 0x77), (0x2007, 0x88)]

-- 08 R153
theorem test_signed_byte_load : (after (exec (.lb 4 1 0 0) (wm 0 0)) (wm 0 0)).me.rs 4 = 0xFFFFFFFFFFFFFF81 := by decide +kernel
theorem test_natural_byte_load : (after (exec (.lbn 4 1 0 0) (wm 0 0)) (wm 0 0)).me.rs 4 = 0x81 := by decide +kernel
theorem test_loads_are_little_endian : (after (exec (.ld 4 1 0 0) (wm 0 0)) (wm 0 0)).me.rs 4 = 0x8877665544332281 := by decide +kernel
theorem test_store_of_a_halfword :
    let t := after (exec (.sth 2 1 0 1) (wm 0xABCDEF 0)) (wm 0xABCDEF 0)
    t.raw 0x2000 8 = 0x88776655CDEF2281 := by decide +kernel
-- 08 R159: an atomic returns the old value, of 32 bits zero-extended, and wraps
theorem test_aadd_of_a_word :
    let t := after (exec (.aadd 4 1 2 0 0) (wm 0xFFFFFFFF 0)) (wm 0xFFFFFFFF 0)
    t.me.rs 4 = 0x44332281 ∧ t.raw 0x2000 8 = 0x8877665544332280 := by decide +kernel
theorem test_acas_that_fails_writes_nothing :
    let t := after (exec (.acas 3 1 2 0 1) (wm 1 2)) (wm 1 2)
    t.me.rs 3 = 0x8877665544332281 ∧ t.raw 0x2000 8 = 0x8877665544332281 := by decide +kernel

/-- Worker slot 0 with v1 all `x` and v2 all `y` of 32 bits. -/
def wv (x y : Nat) : State :=
  let rep := fun (n : Nat) => BitVec.ofNat 1024 ((List.range 32).foldl (fun a _ => a * 2 ^ 32 + n) 0)
  wk fun n => { n with v := [(1, rep x), (2, rep y)] }

/-- Element 0 of v3 as 32 bits and FLAGS after `i`. -/
def ve (i : Instr) (x y : Nat) : Nat × Word :=
  let t := after (exec i (wv x y)) (wv x y)
  (elem 32 (t.me.rv 3) 0, t.me.flags)

-- 06 R114: elements wrap on their own
theorem test_vadd_does_not_carry_between_bytes : ve (.vadd 3 1 2 0 0) 0x01FF01FF 0x01010101 = (0x02000200, 0) := by decide +kernel
-- 06 R112, R115: 1 + 2^-24 is a tie and rounds to even; inexact is bit 0 of FLAGS
theorem test_vfadd_ties_to_even : ve (.vfadd 3 1 2 0) 0x3F800000 0x33800000 = (0x3F800000, 1) := by decide +kernel
-- 06 R97: x / 0 is an infinity and DZ (bit 3)
theorem test_vdiv_by_zero : ve (.vdiv 3 1 2 0) 0xBF800000 0 = (0xFF800000, 8) := by decide +kernel
-- 06 R101: a signalling NaN gives the canonical NaN and NV (bit 4)
theorem test_signalling_nan : ve (.vfmul 3 1 2 0) 0x7F800001 0x3F800000 = (0x7FC00000, 16) := by decide +kernel
-- 06 R119: 32 elements of 2^31 sum to 0 modulo 2^32
theorem test_vred_wraps : ve (.vred 3 1 2 0 2 0) 0x80000000 0 = (0, 0) := by decide +kernel
-- 06 R130
theorem test_vsqrt_of_a_negative_number : ve (.vsqrt 3 1 0) 0xC0800000 0 = (0x7FC00000, 16) := by decide +kernel
-- 06 R94: inactive elements keep their value
theorem test_inactive_elements_stay :
    let s := (wv 5 6).modSlot 0 fun x => { x with k := [(2, 0x0F)] }
    let t := after (exec (.vadd 3 1 2 2 2) s) s
    elem 32 (t.me.rv 3) 0 = 11 ∧ elem 32 (t.me.rv 3) 1 = 0 := by decide +kernel
-- 06 R117: a compare writes every bit of an element's byte lane
theorem test_compare_writes_byte_lanes :
    let t := after (exec (.vcmpi 3 1 2 0 2 2) (wv 5 6)) (wv 5 6)
    t.me.rk 3 = BitVec.allOnes 128 := by decide +kernel

-- 12 R204, R205: without a lease a command of the matrix engine raises its fault, which is fatal
theorem test_mma_without_a_lease_ends_the_task :
    (after (exec (.mzero 0 0 0) (wTask id)) (wTask id)).me.st = .free := by decide +kernel
-- 16 R266, R268: the oldest bump reaches the first node of its path
theorem test_rollup_raises_a_count :
    let s := (wTree 1 0).modVi 0 fun v => { v with owed := [⟨1, 0, [1, 0], [1, 0]⟩] }
    nodeCount (after (exec (.rollup 0) s) s) 0 1 = 6 := by decide +kernel
-- 02 R48: the launch counts the task
theorem test_texit_retires_the_task :
    let t := after (exec (.texit 0) (wTask id)) (wTask id)
    t.me.st = .free ∧ (launchOf t 0 1).map (·.retired) = some 1 := by decide +kernel
-- 22 R325, R328: a record with a nonzero zero field is BADREC
theorem test_launch_of_a_bad_record :
    let s := wRec 0x1000 [(0x1000, 1)]
    (after (exec (.launch 5 6 0 0) s) s).me.rs 5 = 1 := by decide +kernel
-- 22 R330: a write with EN 1 and WEIGHT 0 is ignored
theorem test_tencfg_without_weight :
    ((after (exec (.tencfgWrite 3 (2 ^ 63)) State.reset) State.reset).vif 3).tencfg = 0 := by decide +kernel
-- 24 R366
theorem test_thermal_shutdown : (after (exec (.thermalShutdown 0 120) State.reset) State.reset).power = false := by decide +kernel
-- 04 R57: the word at PC runs, little-endian
theorem test_step_adds :
    let s := mem (su fun x => (x.ws 20 3).ws 30 4) [(0, 0x00), (1, 0x1E), (2, 0xA5), (3, 0x04)]
    (after (step s) s).me.rs 10 = 7 ∧ (after (step s) s).me.pc = 4 := by decide +kernel
-- 24 R366
theorem test_step_without_power : step { State.reset with power := false } = .fault .poweredOff := rfl
-- The word placed is the word that the next step runs (ADDI s5, s0, 7).
theorem test_placed_word_runs :
    let s := State.reset.withFetchWord 32 0x08500007
    decode 0x08500007 = .ok (.addi 5 0 7) ∧ (after (step s) s).me.rs 5 = 7 := by decide +kernel

end Sys2Proof.Tests
end

section
/-!
The scalar immediate families (04 R80), the conditional branches and the direct jumps (04 R81, R82): their words, the words of their majors
that stand for no instruction, and their results. The model says these with integers and naturals; the lemmas here bring them to the bit
vectors that the obligations speak of.
-/

namespace Sys2Proof.Machine

open Sys2Proof Sys2Proof.Laws

/-! ### Sign extension and wrapping, as bit vectors -/

theorem bit_eq_msb_ofNat {n : Nat} (x : Nat) (hn : 0 < n) : bit x (n - 1) = (BitVec.ofNat n x).msb := by
  have hlt : n - 1 < n := by omega
  rw [BitVec.msb_eq_getLsbD_last, BitVec.getLsbD_ofNat, Nat.testBit_eq_decide_div_mod_eq]
  simp [bit, hlt, beq_eq_decide]

/-- SignExt of the spec's formulas is the signed value of the field's low bits. -/
theorem sx_eq_toInt {n : Nat} (x : Nat) (hn : 0 < n) : sx n x = (BitVec.ofNat n x).toInt := by
  rw [BitVec.toInt_eq_msb_cond, sx, bit_eq_msb_ofNat x hn]
  simp

theorem imm14_eq_signExtend (i : Nat) : imm14 i = (BitVec.ofNat 14 i).signExtend 64 := by
  rw [imm14, sx_eq_toInt i (by decide)]
  rfl

theorem wrap_eq_toNat_ofInt (n : Nat) (z : Int) : wrap n z = (BitVec.ofInt n z).toNat := by
  simp [wrap, BitVec.toNat_ofInt]

theorem wrap_lt (n : Nat) (z : Int) : wrap n z < 2 ^ n := by
  rw [wrap_eq_toNat_ofInt]
  exact BitVec.isLt _

theorem wrap_mod (n : Nat) (z : Int) : wrap n z % 2 ^ n = wrap n z := Nat.mod_eq_of_lt (wrap_lt n z)

/-- A displacement in words, counted from an address: sums of integers modulo 2^m are sums of bit vectors. -/
theorem ofInt_add_four_mul_sx {m n : Nat} (pc x : Nat) (hn : 0 < n) :
    BitVec.ofInt m (pc + 4 * sx n x) = BitVec.ofNat m pc + 4 * (BitVec.ofNat n x).signExtend m := by
  rw [sx_eq_toInt x hn, BitVec.ofInt_add, BitVec.ofInt_mul, BitVec.ofInt_natCast]
  rfl

/-! ### Words -/

/-- The word laid out for a well-formed instruction, in whatever form it is written, decodes to the instruction. -/
theorem decode_of_layout {i : Instr} {c w : Nat} (h : RoundTrip.Statement i) (hwf : wellFormed i = true)
    (he : encode i = some c) (hw : c = w) : decode w = .ok i := by
  subst hw
  exact (h hwf c he).2

/-- A word that no entry allocates raises ILLEGAL at its turn (04 R64). -/
theorem issueSlot_of_reject {s : State} {n w : Nat} {e : Reject} (hw : nextWord s n = .ok w)
    (he : decode w = .error e) :
    issueSlot s n = .next (takeTrap (s.modSlot n fun x => { x with iw := w }) n { code := 0x01 }) := by
  have hi : nextInstr s n = .ok (w, none) := by simp [nextInstr, hw, he]
  simp [issueSlot, hi, illegal, raise]

/-- Every shift immediate asks for zero in bits 11 to 6. -/
theorem decode_shiftImm_reject {w : Nat} (hm : bits w 31 26 = 6) (hz : bits w 11 6 ≠ 0) :
    ∃ e, decode w = .error e := by
  have hd : decode w = decShiftImm w := by simp only [decode, hm]
  rw [hd, decShiftImm]
  split <;> simp [hz]

/-- Major 0x0B allocates the conditions 0 to 5. -/
theorem decode_branch_reject {w : Nat} (hm : bits w 31 26 = 0x0B) (hc : 6 ≤ bits w 25 23) :
    decode w = .error .func := by
  have hd : decode w = decBranch w := by simp only [decode, hm]
  obtain ⟨k, hk⟩ := Nat.exists_eq_add_of_le' hc
  rw [hd, decBranch, hk]
  rfl

/-! ### Immediate forms -/

/-- An instruction that takes no format and only writes s[d], with the value `g` of the state before it. -/
theorem scalarResult_of_plain {i : Instr} {s : State} {d : Nat} {g : State → Nat → Word} {v : Word} (h : s.NoPrefix)
    (hx : exec i s = plain (fun t n => writeDone t n d (g t n)) s) (hv : g s s.cur = v) : ScalarResult i s d v := by
  subst hv
  exact scalarResult_of_writeDone h (hx.trans (plain_eq _ h))

theorem scalarResult_of_alu1 {i : Instr} {s : State} {d a : Nat} {f : Word → Word} {v : Word} (h : s.NoPrefix)
    (hx : exec i s = plain (alu1 f d a) s) (hv : f (s.me.rs a) = v) : ScalarResult i s d v :=
  scalarResult_of_plain h hx hv

theorem shl_eq_ofNat (x : Word) {k : Nat} (hk : k < 64) : x <<< (k % 64) = BitVec.ofNat 64 (x.toNat * 2 ^ k) := by
  rw [Nat.mod_eq_of_lt hk]
  exact BitVec.eq_of_toNat_eq (by simp [Nat.shiftLeft_eq])

theorem shr_eq_ofNat (x : Word) {k : Nat} (hk : k < 64) : x >>> (k % 64) = BitVec.ofNat 64 (x.toNat / 2 ^ k) := by
  have hlt : x.toNat / 2 ^ k < 2 ^ 64 := Nat.lt_of_le_of_lt (Nat.div_le_self _ _) x.isLt
  apply BitVec.eq_of_toNat_eq
  rw [Nat.mod_eq_of_lt hk, BitVec.toNat_ushiftRight, Nat.shiftRight_eq_div_pow, BitVec.toNat_ofNat, Nat.mod_eq_of_lt hlt]

theorem sar_eq_ofInt (x : Word) {k : Nat} (hk : k < 64) :
    x.sshiftRight (k % 64) = BitVec.ofInt 64 (x.toInt / 2 ^ k) := by
  rw [Nat.mod_eq_of_lt hk, BitVec.sshiftRight_eq, Int.shiftRight_eq_div_pow]
  rfl

theorem rotL_eq_rotateLeft (x : Word) {k : Nat} (hk : k < 64) : rotL x (k % 64) = x.rotateLeft k := by
  rw [BitVec.rotateLeft, Nat.mod_eq_of_lt hk]
  rfl

theorem flagWord_toInt_lt (x y : Word) : flagWord (decide (x.toInt < y.toInt)) = if x.slt y then 1 else 0 := rfl

theorem flagWord_toNat_lt (x y : Word) : flagWord (decide (x.toNat < y.toNat)) = if x < y then 1 else 0 := by
  simp [flagWord, BitVec.lt_def]

theorem lui_value_eq (u : Nat) : toWord (sx 20 u * 2 ^ 14) = ((BitVec.ofNat 20 u).signExtend 64) <<< 14 := by
  rw [sx_eq_toInt u (by decide), toWord, BitVec.ofInt_mul, BitVec.shiftLeft_eq_mul_twoPow]
  rfl

theorem addpc_value_eq (pc u : Nat) :
    BitVec.ofNat 64 (wrap 52 (pc + sx 20 u * 4)) =
      (BitVec.ofNat 52 pc + ((BitVec.ofNat 20 u).signExtend 52) <<< 2).setWidth 64 := by
  rw [mul_comm, wrap_eq_toNat_ofInt, ofInt_add_four_mul_sx pc u (by decide), BitVec.shiftLeft_eq_mul_twoPow, mul_comm,
    BitVec.ofNat_toNat]
  rfl

/-! ### Transfers of control -/

theorem retireTo_self_ownSlotOnly (s : State) (pc : Nat) : OwnSlotOnly s (retireTo s s.cur pc) where
  rest := rfl
  bytes _ := rfl
  slots m hm := by simp [retireTo, modSlot_slot, hm]
  cores c := by
    rw [retireTo, modCore_core]
    split
    · subst_vars; rfl
    · rfl

/-- An instruction that moves PC and changes nothing else of its slot. -/
theorem goesTo_of_retireTo {i : Instr} {s : State} {pc : Nat} (hx : exec i s = .next (retireTo s s.cur pc)) :
    GoesTo i s s.me (pc % 2 ^ 52) :=
  ⟨_, hx, retireTo_self_ownSlotOnly s pc, retireTo_slot_self s s.cur pc⟩

/-- Outside a repeat frame, completion in sequence is a transfer to the next word (04 R56). -/
theorem retire_eq_retireTo {s : State} {n : Nat} (hf : (s.slot n).frame = none) :
    retire s n false = retireTo s n ((s.slot n).pc + 4) := by
  have hn : (countInstr (s.slot n)).frame = none := hf
  simp only [retire, retireTo, State.modSlot, nextPc_none hn]
  rfl

theorem goesTo_next_of_done {i : Instr} {s : State} (h : s.NoPrefix) (hf : s.me.frame = none)
    (hx : exec i s = .next (conclude s s.cur (.ok (.done s)))) : GoesTo i s s.me ((s.me.pc + 4) % 2 ^ 52) := by
  have hc : conclude s s.cur (.ok (.done s)) = retire s s.cur s.me.pfx.isSome := rfl
  rw [hc, show s.me.pfx = none from h, Option.isSome_none, retire_eq_retireTo hf] at hx
  exact goesTo_of_retireTo hx

/-- A conditional branch whose test of s[a] is the condition `c` (04 R81). -/
theorem goesTo_of_branch {i : Instr} {s : State} {taken : Int → Bool} {a p : Nat} {c : Prop} [Decidable c]
    (h : s.NoPrefix) (hf : s.me.frame = none) (hx : exec i s = plain (branch taken a p) s)
    (hc : taken (s.me.rs a).toInt = decide c) :
    GoesTo i s s.me (if c then (BitVec.ofNat 52 s.me.pc + 4 * (BitVec.ofNat 17 p).signExtend 52).toNat
      else (s.me.pc + 4) % 2 ^ 52) := by
  rw [plain_eq _ h, branch, hc] at hx
  by_cases hb : c
  · rw [if_pos (decide_eq_true hb)] at hx
    rw [if_pos hb, ← ofInt_add_four_mul_sx s.me.pc p (by decide), ← wrap_eq_toNat_ofInt, ← wrap_mod]
    exact goesTo_of_retireTo hx
  · rw [if_neg (by simpa using hb)] at hx
    rw [if_neg hb]
    exact goesTo_next_of_done h hf hx

theorem toInt_eq_zero_iff (x : Word) : x.toInt = 0 ↔ x = 0 := by
  rw [← BitVec.toInt_inj]; simp

theorem toInt_neg_iff_msb (x : Word) : x.toInt < 0 ↔ x.msb = true := by
  simp [BitVec.msb_eq_toInt]

theorem toInt_nonpos_iff (x : Word) : x.toInt ≤ 0 ↔ x.msb = true ∨ x = 0 := by
  rw [← toInt_neg_iff_msb, ← toInt_eq_zero_iff, le_iff_lt_or_eq]

theorem jumpTarget_eq (x : Slot) (q : Nat) :
    jumpTarget x q = (BitVec.ofNat 52 x.pc + 4 * (BitVec.ofNat 26 q).signExtend 52).toNat := by
  rw [jumpTarget, wrap_eq_toNat_ofInt, ofInt_add_four_mul_sx x.pc q (by decide)]

theorem exec_j {s : State} (q : Nat) (h : s.NoPrefix) :
    exec (.j q) s = .next (retireTo s s.cur (jumpTarget s.me q)) := by
  show execJ q s = _
  rw [execJ, plain_eq _ h]
  rfl

theorem exec_jl {s : State} (q : Nat) (h : s.NoPrefix) :
    exec (.jl q) s = .next (retireTo (s.modSlot s.cur fun x => x.ws 62 (linkWord x)) s.cur (jumpTarget s.me q)) := by
  show execJl q s = _
  rw [execJl, plain_eq _ h]
  rfl

/-! ### The obligations -/

/-- Settles O4: the words by the round trip of each layout, the results by the value that each member writes. -/
theorem scalarImmediateResults : Obligations.ScalarImmediateResults := by
  refine ⟨fun d a i k u hd ha hi hk hu => ?words, fun s n w hw _ hm hz => ?illegal, fun s d a i k h hi hk => ?results⟩
  case words =>
    refine ⟨decode_of_layout (RoundTrip.addi d a i) (decide_eq_true ⟨hd, ha, hi⟩) rfl ?_,
      decode_of_layout (RoundTrip.andi d a i) (decide_eq_true ⟨hd, ha, hi⟩) rfl ?_,
      decode_of_layout (RoundTrip.ori d a i) (decide_eq_true ⟨hd, ha, hi⟩) rfl ?_,
      decode_of_layout (RoundTrip.xori d a i) (decide_eq_true ⟨hd, ha, hi⟩) rfl ?_,
      decode_of_layout (RoundTrip.slti d a i) (decide_eq_true ⟨hd, ha, hi⟩) rfl ?_,
      decode_of_layout (RoundTrip.sltin d a i) (decide_eq_true ⟨hd, ha, hi⟩) rfl ?_,
      decode_of_layout (RoundTrip.shli d a k) (decide_eq_true ⟨hd, ha, hk⟩) rfl ?_,
      decode_of_layout (RoundTrip.shri d a k) (decide_eq_true ⟨hd, ha, hk⟩) rfl ?_,
      decode_of_layout (RoundTrip.sari d a k) (decide_eq_true ⟨hd, ha, hk⟩) rfl ?_,
      decode_of_layout (RoundTrip.rotli d a k) (decide_eq_true ⟨hd, ha, hk⟩) rfl ?_,
      decode_of_layout (RoundTrip.lui d u) (decide_eq_true ⟨hd, hu⟩) rfl ?_,
      decode_of_layout (RoundTrip.addpc d u) (decide_eq_true ⟨hd, hu⟩) rfl ?_⟩ <;>
      simp only [layWord] <;> omega
  case illegal =>
    obtain ⟨e, he⟩ := decode_shiftImm_reject hm hz
    exact issueSlot_of_reject hw he
  case results =>
    intro x se ze
    have hse : imm14 i = se := imm14_eq_signExtend i
    have hze : BitVec.ofNat 64 i = ze := (BitVec.setWidth_ofNat_of_le_of_lt (by decide) hi).symm
    refine ⟨?_, ?_, ?_, ?_, ?_, ?_, ?_, ?_, ?_, ?_, fun u _ => ⟨?_, ?_⟩⟩
    · exact scalarResult_of_alu1 h rfl (congrArg (x + ·) hse)
    · exact scalarResult_of_alu1 h rfl (congrArg (x &&& ·) hse)
    · exact scalarResult_of_alu1 h rfl (congrArg (x ||| ·) hze)
    · exact scalarResult_of_alu1 h rfl (congrArg (x ^^^ ·) hze)
    · exact scalarResult_of_alu1 h rfl (hse ▸ flagWord_toInt_lt x (imm14 i))
    · exact scalarResult_of_alu1 h rfl (hse ▸ flagWord_toNat_lt x (imm14 i))
    · exact scalarResult_of_alu1 h rfl (shl_eq_ofNat x hk)
    · exact scalarResult_of_alu1 h rfl (shr_eq_ofNat x hk)
    · exact scalarResult_of_alu1 h rfl (sar_eq_ofInt x hk)
    · exact scalarResult_of_alu1 h rfl (rotL_eq_rotateLeft x hk)
    · exact scalarResult_of_plain (g := fun _ _ => toWord (sx 20 u * 2 ^ 14)) h rfl (lui_value_eq u)
    · exact scalarResult_of_plain (g := fun t n => BitVec.ofNat 64 (wrap 52 ((t.slot n).pc + sx 20 u * 4))) h rfl
        (addpc_value_eq s.me.pc u)

/-- Settles O5: the words by the round trip of each layout, each branch by its test of s[a], the jumps by their target. -/
theorem branchesAndDirectJumps : Obligations.BranchesAndDirectJumps := by
  refine ⟨fun a p q ha hp hq => ?words, fun s n w hw _ hm hc => ?illegal, fun s a p q h hf => ?effects⟩
  case words =>
    refine ⟨decode_of_layout (RoundTrip.bz a p) (decide_eq_true ⟨ha, hp⟩) rfl ?_,
      decode_of_layout (RoundTrip.bnz a p) (decide_eq_true ⟨ha, hp⟩) rfl ?_,
      decode_of_layout (RoundTrip.bltz a p) (decide_eq_true ⟨ha, hp⟩) rfl ?_,
      decode_of_layout (RoundTrip.bgez a p) (decide_eq_true ⟨ha, hp⟩) rfl ?_,
      decode_of_layout (RoundTrip.bgtz a p) (decide_eq_true ⟨ha, hp⟩) rfl ?_,
      decode_of_layout (RoundTrip.blez a p) (decide_eq_true ⟨ha, hp⟩) rfl ?_,
      decode_of_layout (RoundTrip.j q) (decide_eq_true hq) rfl ?_,
      decode_of_layout (RoundTrip.jl q) (decide_eq_true hq) rfl ?_⟩ <;>
      simp only [layWord] <;> omega
  case illegal => exact issueSlot_of_reject hw (decode_branch_reject hm hc)
  case effects =>
    intro x next target far
    have hfar : jumpTarget s.me q = far := jumpTarget_eq s.me q
    refine ⟨?_, ?_, ?_, ?_, ?_, ?_, ?_, ?_⟩
    · exact goesTo_of_branch h hf rfl (decide_eq_decide.mpr (toInt_eq_zero_iff x))
    · rw [← ite_not]
      exact goesTo_of_branch h hf rfl (decide_eq_decide.mpr (toInt_eq_zero_iff x).not)
    · exact goesTo_of_branch h hf rfl (decide_eq_decide.mpr (toInt_neg_iff_msb x))
    · rw [← ite_not]
      exact goesTo_of_branch h hf rfl (decide_eq_decide.mpr (not_lt.symm.trans (toInt_neg_iff_msb x).not))
    · rw [← ite_not]
      exact goesTo_of_branch h hf rfl (decide_eq_decide.mpr (not_le.symm.trans (toInt_nonpos_iff x).not))
    · exact goesTo_of_branch h hf rfl (decide_eq_decide.mpr (toInt_nonpos_iff x))
    · rw [← hfar, jumpTarget, ← wrap_mod]
      exact goesTo_of_retireTo (exec_j q h)
    · rw [← hfar]
      exact goesTo_of_jump (fun x => x.ws 62 (linkWord x)) (exec_jl q h) (Slot.ws_instret _ _ _) (wrap_lt 52 _)

end Sys2Proof.Machine
end
